-- ==== Sys2Proof/Word.lean ====
section
/-!
DEFINITION. The word types of the machine and the sparse map that registers and memories are held in.
Numbers, units and fields: spec/00_scope.md (R3).
-/

namespace Sys2Proof

/-- 8 bits. -/
abbrev Byte := BitVec 8
/-- 16 bits. -/
abbrev Half := BitVec 16
/-- 32 bits, the width of a v, w or k register. -/
abbrev Word := BitVec 32
/-- 64 bits, the width of a register pair and of the program counter. -/
abbrev Dword := BitVec 64
/-- One bit per lane of a group: active masks, exit masks, predicates. -/
abbrev Mask := BitVec 32

/-- A sparse map with natural keys in one canonical form: keys strictly rising, and no entry equal to
the value that an unlisted key reads as. -/
abbrev SMap (α : Type) := List (Nat × α)

/-- The value at a key; an unlisted key reads as `d`. -/
def SMap.get {α : Type} (d : α) : SMap α → Nat → α
  | [], _ => d
  | (i, a) :: r, k => if i = k then a else SMap.get d r k

/-- Insert at a key, keeping keys strictly rising. -/
def SMap.put {α : Type} : SMap α → Nat → α → SMap α
  | [], k, v => [(k, v)]
  | (i, a) :: r, k, v =>
    if k < i then (k, v) :: (i, a) :: r
    else if i = k then (k, v) :: r
    else (i, a) :: SMap.put r k v

/-- Remove a key. -/
def SMap.del {α : Type} : SMap α → Nat → SMap α
  | [], _ => []
  | (i, a) :: r, k => if i = k then SMap.del r k else (i, a) :: SMap.del r k

/-- Write a key: a value equal to what an unlisted key reads as removes the entry. -/
def SMap.set {α : Type} [DecidableEq α] (d : α) (m : SMap α) (k : Nat) (v : α) : SMap α :=
  if v = d then m.del k else m.put k v

/-- Every key of the map is above `k`. -/
def SMap.above {α : Type} (k : Nat) (m : SMap α) : Bool := m.all (fun p => k < p.1)

/-- The canonical form. -/
def SMap.wf {α : Type} [DecidableEq α] (d : α) : SMap α → Bool
  | [] => true
  | (i, a) :: r => decide (a ≠ d) && SMap.above i r && SMap.wf d r

end Sys2Proof
end

