-- ==== Sys2Proof/Machine/Numeric.lean ====
section
/-!
DEFINITION. Number formats, exact arithmetic, rounding, narrowing and scales (R116 to R128, R135 to R148, R153, R154). Every
floating value is held exactly as a sign, a natural mantissa and a power of two; results are formed exactly and rounded once.
-/

namespace Sys2Proof.Machine

/-- An exact value: `fin n m e` is (-1)^n × m × 2^e. -/
inductive Num where
  | nan
  | inf (neg : Bool)
  | fin (neg : Bool) (mant : Nat) (exp : Int)
deriving DecidableEq, Repr

/-- Which codes a format gives to Inf and NaN (R116). -/
inductive Specials where
  /-- E all ones: Inf with F = 0, NaN otherwise -/
  | ieee
  /-- S.1111.111 is NaN, no Inf -/
  | onlyNaN
  /-- neither -/
  | none
deriving DecidableEq, Repr

/-- A floating format (R116). `wide` marks f64, f32, h16 and bf16, whose overflow follows R123. -/
structure FFmt where
  ebits : Nat
  mbits : Nat
  bias : Nat
  sp : Specials
  wide : Bool
deriving DecidableEq, Repr

/-- f64. -/
def f64 : FFmt := ⟨11, 52, 1023, .ieee, true⟩
/-- f32. -/
def f32 : FFmt := ⟨8, 23, 127, .ieee, true⟩
/-- h16. -/
def h16 : FFmt := ⟨5, 10, 15, .ieee, true⟩
/-- bf16. -/
def bf16 : FFmt := ⟨8, 7, 127, .ieee, true⟩
/-- e5m2. -/
def e5m2 : FFmt := ⟨5, 2, 15, .ieee, false⟩
/-- e4m3. -/
def e4m3 : FFmt := ⟨4, 3, 7, .onlyNaN, false⟩
/-- e3m2. -/
def e3m2 : FFmt := ⟨3, 2, 3, .none, false⟩
/-- e2m3. -/
def e2m3 : FFmt := ⟨2, 3, 1, .none, false⟩
/-- e2m1. -/
def e2m1 : FFmt := ⟨2, 1, 1, .none, false⟩

/-- Bits of a format. -/
def FFmt.bits (f : FFmt) : Nat := 1 + f.ebits + f.mbits
/-- The sign bit's weight. -/
def FFmt.signBit (f : FFmt) : Nat := 2 ^ (f.ebits + f.mbits)
/-- The code of S, E and F. -/
def FFmt.code (f : FFmt) (neg : Bool) (e m : Nat) : Nat := (if neg then f.signBit else 0) + e * 2 ^ f.mbits + m
/-- All ones in E. -/
def FFmt.emax (f : FFmt) : Nat := 2 ^ f.ebits - 1
/-- The canonical NaN, or +0 in a format without NaN (R116, R126). -/
def FFmt.nanCode (f : FFmt) : Nat :=
  match f.sp with
  | .ieee => f.code false f.emax (2 ^ (f.mbits - 1))
  | .onlyNaN => f.code false f.emax (2 ^ f.mbits - 1)
  | .none => 0
/-- The largest finite magnitude of a sign (R116). -/
def FFmt.maxCode (f : FFmt) (neg : Bool) : Nat :=
  match f.sp with
  | .ieee => f.code neg (f.emax - 1) (2 ^ f.mbits - 1)
  | .onlyNaN => f.code neg f.emax (2 ^ f.mbits - 2)
  | .none => f.code neg f.emax (2 ^ f.mbits - 1)
/-- ±Inf of a format that has it. -/
def FFmt.infCode (f : FFmt) (neg : Bool) : Nat := f.code neg f.emax 0

/-- The value of a code (R116). -/
def FFmt.value (f : FFmt) (c : Nat) : Num :=
  let neg := decide (f.signBit ≤ c % 2 ^ f.bits)
  let e := c / 2 ^ f.mbits % 2 ^ f.ebits
  let m := c % 2 ^ f.mbits
  if e = f.emax ∧ f.sp = .ieee then (if m = 0 then .inf neg else .nan)
  else if e = f.emax ∧ m + 1 = 2 ^ f.mbits ∧ f.sp = .onlyNaN then .nan
  else if e = 0 then .fin neg m (1 - (f.bias : Int) - f.mbits)
  else .fin neg (2 ^ f.mbits + m) ((e : Int) - f.bias - f.mbits)

/-- Whether a code is a NaN. -/
def FFmt.isNaN (f : FFmt) (c : Nat) : Bool := f.value c == .nan
/-- Whether a code is subnormal: E = 0 and F ≠ 0. -/
def FFmt.isSub (f : FFmt) (c : Nat) : Bool := c / 2 ^ f.mbits % 2 ^ f.ebits == 0 && c % 2 ^ f.mbits != 0
/-- FTZ: a subnormal code becomes zero of its sign (R118); the 8-bit and narrower formats are never flushed. -/
def FFmt.flush (f : FFmt) (ftz : Bool) (c : Nat) : Nat :=
  if ftz && f.wide && f.isSub c then (if f.signBit ≤ c % 2 ^ f.bits then f.signBit else 0) else c
/-- ABS then NEG on a code: only S changes (R56, R117). -/
def FFmt.mods (f : FFmt) (neg abs : Bool) (c : Nat) : Nat :=
  let x := c % 2 ^ f.bits
  let x := if abs then x % f.signBit else x
  if neg then (if f.signBit ≤ x then x - f.signBit else x + f.signBit) else x

/-! ## Rounding (R123, R125) -/

/-- The rounding modes; `sr s` carries the LFSR state. -/
inductive Rnd where
  | rne | rz | rdn | rup | rna
  | sr (s : Nat)
deriving DecidableEq, Repr

/-- The mode of a RND field; `s` is the LFSR state for .sr (R56). -/
def rndOf (r s : Nat) : Rnd :=
  match r with
  | 0 => .rne
  | 1 => .rz
  | 2 => .rdn
  | 3 => .rup
  | 4 => .rna
  | _ => .sr s

/-- Number of bits of a natural. -/
def bitLen (n : Nat) : Nat := if n = 0 then 0 else Nat.log2 n + 1

/-- `m × 2^e` as a natural multiple of `2^q` and the part below it: quotient, remainder, bits of the remainder. -/
def splitAt (m : Nat) (e q : Int) : Nat × Nat × Nat :=
  if q ≤ e then (m * 2 ^ (e - q).toNat, 0, 0)
  else
    let d := (q - e).toNat
    (m / 2 ^ d, m % 2 ^ d, d)

/-- Whether the magnitude goes up by one unit in the last place (R123, R125). -/
def roundUp (r : Rnd) (neg : Bool) (n rem d : Nat) : Bool :=
  match r with
  | .rne => decide (2 ^ d < 2 * rem) || (rem * 2 == 2 ^ d && rem != 0 && n % 2 == 1)
  | .rz => false
  | .rdn => neg && rem != 0
  | .rup => !neg && rem != 0
  | .rna => rem != 0 && decide (2 ^ d ≤ 2 * rem)
  | .sr s => decide (65536 ≤ rem * 65536 / 2 ^ d + s) && rem != 0

/-- The quantum of a format at a magnitude: the exponent of its last place there (R123). -/
def FFmt.quantum (f : FFmt) (m : Nat) (e : Int) : Int :=
  max ((bitLen m : Int) - 1 + e) (1 - (f.bias : Int)) - f.mbits

/-- A finite value rounded to a multiple of the format's own spacing: the multiple and the quantum. In e4m3 the spacing above 448 stays
32, so that 480 stands on the grid and a magnitude that rounds to it is beyond the largest finite: R123 rounds on the destination's own
spacing, and R126's example has 480 round to 512. MODEL'S CHOICE (assumption 91). -/
def FFmt.roundMag (f : FFmt) (r : Rnd) (neg : Bool) (m : Nat) (e : Int) : Nat × Int :=
  let q := f.quantum m e
  let (n, rem, d) := splitAt m e q
  (if roundUp r neg n rem d then n + 1 else n, q)

/-- Whether `n × 2^q` is beyond the largest finite value (R126). -/
def FFmt.beyond (f : FFmt) (n : Nat) (q : Int) : Bool :=
  match f.value (f.maxCode false) with
  | .fin _ mm me => decide (mm * 2 ^ (me - min me q).toNat < n * 2 ^ (q - min me q).toNat)
  | _ => false

/-- The code of a representable `n × 2^q`. -/
def FFmt.pack (f : FFmt) (neg : Bool) (n : Nat) (q : Int) : Nat :=
  if n < 2 ^ f.mbits then f.code neg 0 n
  else if n = 2 ^ (f.mbits + 1) then f.code neg (q + 1 + f.mbits + f.bias).toNat 0
  else f.code neg (q + f.mbits + f.bias).toNat (n - 2 ^ f.mbits)

/-- R123's table: a finite result beyond the largest finite value of f64, f32, h16 or bf16. -/
def FFmt.overflow (f : FFmt) (r : Rnd) (neg : Bool) : Nat :=
  match r with
  | .rz => f.maxCode neg
  | .rdn => if neg then f.infCode true else f.maxCode false
  | .rup => if neg then f.maxCode true else f.infCode false
  | _ => f.infCode neg

/-- Rounding and narrowing of an exact value into a format (R123, R125, R126). -/
def FFmt.narrow (f : FFmt) (r : Rnd) (sat : Bool) : Num → Nat
  | .nan => f.nanCode
  | .inf neg =>
    if sat then f.maxCode neg
    else match f.sp with
      | .ieee => f.infCode neg
      | .onlyNaN => f.nanCode
      | .none => f.maxCode neg
  | .fin neg m e =>
    if m = 0 then f.code neg 0 0
    else
      let (n, q) := f.roundMag r neg m e
      if f.beyond n q then
        (if f.wide then (if sat then f.maxCode neg else f.overflow r neg)
         else if sat || f.sp == .none then f.maxCode neg
         else f.nanCode)
      else f.pack neg n q

/-! ## Exact arithmetic (R135, R136) -/

/-- Negation. -/
def Num.neg : Num → Num
  | .nan => .nan
  | .inf n => .inf (!n)
  | .fin n m e => .fin (!n) m e

/-- Multiply by a power of two. -/
def Num.scale (x : Num) (k : Int) : Num :=
  match x with
  | .fin n m e => .fin n m (e + k)
  | y => y

/-- Exact product: NaN inputs and Inf × 0 give NaN (R135); signs combine (R136). -/
def Num.mul : Num → Num → Num
  | .nan, _ => .nan
  | _, .nan => .nan
  | .inf a, .inf b => .inf (a != b)
  | .inf a, .fin b m _ => if m = 0 then .nan else .inf (a != b)
  | .fin a m _, .inf b => if m = 0 then .nan else .inf (a != b)
  | .fin a m e, .fin b n f => .fin (a != b) (m * n) (e + f)

/-- A signed integer of a finite value at exponent `q ≤ e`. -/
def signedAt (neg : Bool) (m : Nat) (e q : Int) : Int :=
  let x : Int := (m * 2 ^ (e - q).toNat : Nat)
  if neg then -x else x

/-- Exact sum (R135, R136); `rdn` says that an exact zero of opposite signs is −0. -/
def Num.add (rdn : Bool) : Num → Num → Num
  | .nan, _ => .nan
  | _, .nan => .nan
  | .inf a, .inf b => if a = b then .inf a else .nan
  | .inf a, .fin _ _ _ => .inf a
  | .fin _ _ _, .inf b => .inf b
  | .fin a m e, .fin b n f =>
    let q := min e f
    let x := signedAt a m e q + signedAt b n f q
    if x = 0 then .fin (if a = b then a else rdn) 0 0
    else .fin (decide (x < 0)) x.natAbs q

/-- EXACTSUM of several terms (R165): one exact sum, whatever the order. -/
def exactSum (rdn : Bool) : List Num → Num
  | [] => .fin false 0 0
  | [x] => x
  | x :: r => Num.add rdn x (exactSum rdn r)

/-- Three-way comparison of two ordered values: −1, 0 or 1; −0 equals +0. -/
def Num.cmp : Num → Num → Int
  | .inf a, .inf b => if a = b then 0 else if a then -1 else 1
  | .inf a, _ => if a then -1 else 1
  | _, .inf b => if b then 1 else -1
  | .fin a m e, .fin b n f =>
    let q := min e f
    let x := signedAt a m e q - signedAt b n f q
    if x < 0 then -1 else if x = 0 then 0 else 1
  | _, _ => 0

/-- Exact quotient to at least 32 significant bits, with a last bit that is 1 when anything is left over (R145). -/
def Num.div : Num → Num → Num
  | .nan, _ => .nan
  | _, .nan => .nan
  | .inf _, .inf _ => .nan
  | .inf a, .fin b _ _ => .inf (a != b)
  | .fin a _ _, .inf b => .fin (a != b) 0 0
  | .fin a m e, .fin b n f =>
    if n = 0 then (if m = 0 then .nan else .inf (a != b))
    else if m = 0 then .fin (a != b) 0 0
    else
      let k := 34 + bitLen n
      let x := m * 2 ^ k
      .fin (a != b) (2 * (x / n) + (if x % n = 0 then 0 else 1)) (e - f - k - 1)

/-- Integer square root by bits: `k` bits of the result remain, `r` is the root so far. -/
def isqrtGo (n : Nat) : Nat → Nat → Nat
  | 0, r => r
  | k + 1, r => let c := r + 2 ^ k; isqrtGo n k (if c * c ≤ n then c else r)

/-- The largest natural whose square is at most `n`. -/
def isqrt (n : Nat) : Nat := isqrtGo n ((bitLen n + 1) / 2) 0

/-- Exact square root to at least 32 bits with a sticky last bit; −0 keeps its sign and other negatives give NaN (R143). -/
def Num.sqrt : Num → Num
  | .nan => .nan
  | .inf neg => if neg then .nan else .inf false
  | .fin neg m e =>
    if m = 0 then .fin neg 0 0
    else if neg then .nan
    else
      let k : Int := if e % 2 = 0 then 80 else 81
      let x := m * 2 ^ k.toNat
      let r := isqrt x
      .fin false (2 * r + (if r * r = x then 0 else 1)) ((e - k) / 2 - 1)

/-! ## Bit-level operations on one format -/

/-- CLAMPSAT: the range +0 to 1.0; NaN and −0 become +0 (R131). -/
def FFmt.clamp (f : FFmt) (sat : Bool) (c : Nat) : Nat :=
  if !sat then c
  else match f.value c with
    | .nan => 0
    | .inf neg => if neg then 0 else f.code false f.bias 0
    | .fin neg m e =>
      if neg || m == 0 then 0
      else if Num.cmp (.fin false m e) (.fin false 1 0) = 1 then f.code false f.bias 0
      else c

/-- The modifiers of an arithmetic form: RND, FTZ and SAT (R130). -/
structure Arith where
  rnd : Rnd
  ftz : Bool
  sat : Bool
deriving DecidableEq, Repr

/-- CLAMPSAT(FLUSH(ROUND(x))) (R130, R131). -/
def FFmt.finish (f : FFmt) (k : Arith) (x : Num) : Nat := f.clamp k.sat (f.flush k.ftz (f.narrow k.rnd false x))

/-- An input after FTZ. -/
def FFmt.inp (f : FFmt) (k : Arith) (c : Nat) : Num := f.value (f.flush k.ftz c)

/-- a + b. -/
def FFmt.addC (f : FFmt) (k : Arith) (a b : Nat) : Nat := f.finish k (Num.add (k.rnd == .rdn) (f.inp k a) (f.inp k b))
/-- a − b. -/
def FFmt.subC (f : FFmt) (k : Arith) (a b : Nat) : Nat :=
  f.finish k (Num.add (k.rnd == .rdn) (f.inp k a) (f.inp k b).neg)
/-- a × b. -/
def FFmt.mulC (f : FFmt) (k : Arith) (a b : Nat) : Nat := f.finish k (Num.mul (f.inp k a) (f.inp k b))
/-- a × b + c, rounded once. -/
def FFmt.fmaC (f : FFmt) (k : Arith) (a b c : Nat) : Nat :=
  f.finish k (Num.add (k.rnd == .rdn) (Num.mul (f.inp k a) (f.inp k b)) (f.inp k c))
/-- a ÷ b. -/
def FFmt.divC (f : FFmt) (k : Arith) (a b : Nat) : Nat := f.finish k (Num.div (f.inp k a) (f.inp k b))
/-- √a. -/
def FFmt.sqrtC (f : FFmt) (k : Arith) (a : Nat) : Nat := f.finish k (Num.sqrt (f.inp k a))

/-- Round to nearest even with subnormals honoured, as the atomics, elements and tiles do (R195, R244, R318). -/
def plainArith : Arith := ⟨.rne, false, false⟩

/-- Whether a value is below another in R137's order, where −0 < +0. -/
def Num.below (x y : Num) : Bool :=
  match Num.cmp x y, x, y with
  | -1, _, _ => true
  | 0, .fin a 0 _, .fin b 0 _ => a && !b
  | _, _, _ => false

/-- The lesser or greater of two codes; a single NaN gives the other input, two give the canonical NaN (R137). -/
def FFmt.minMax (f : FFmt) (isMax ftz : Bool) (a b : Nat) : Nat :=
  let a := f.flush ftz a
  let b := f.flush ftz b
  match f.isNaN a, f.isNaN b with
  | true, true => f.nanCode
  | true, false => b
  | false, true => a
  | false, false =>
    let less := Num.below (f.value a) (f.value b)
    if isMax then (if less then b else a)
    else if Num.below (f.value b) (f.value a) then b else a

/-- FCLASS's class number: 0 −Inf, 1 negative normal, 2 negative subnormal, 3 −0, 4 +0, 5, 6, 7 +Inf, 8 NaN (R140). -/
def classOf (c : Nat) : Nat :=
  match f32.value c with
  | .nan => 8
  | .inf neg => if neg then 0 else 7
  | .fin neg m _ =>
    if m = 0 then (if neg then 3 else 4)
    else if f32.isSub c then (if neg then 2 else 5)
    else if neg then 1 else 6

/-- A value rounded to an integral value in a mode: sign and magnitude. -/
def roundIntegral (r : Rnd) (neg : Bool) (m : Nat) (e : Int) : Nat :=
  let (n, rem, d) := splitAt m e 0
  if roundUp r neg n rem d then n + 1 else n

/-- FRND: an integral f32 of the same sign; zeros and Inf pass, NaN is canonical (R141). -/
def rndIntegralCode (k : Arith) (c : Nat) : Nat :=
  match f32.inp k c with
  | .nan => f32.nanCode
  | .inf neg => f32.infCode neg
  | .fin neg m e => f32.narrow .rne false (.fin neg (roundIntegral k.rnd neg m e) 0)

/-- FLDEXP: A × 2^B rounded once (R142). -/
def ldexpCode (k : Arith) (a : Nat) (b : Int) : Nat := f32.finish k ((f32.inp k a).scale b)

/-- FFREXP: mantissa code and exponent (R142). -/
def frexpCode (ftz : Bool) (a : Nat) : Nat × Int :=
  let a := f32.flush ftz a
  match f32.value a with
  | .nan => (f32.nanCode, 0)
  | .inf _ => (a, 0)
  | .fin neg m e =>
    if m = 0 then (a, 0)
    else (f32.narrow .rne false (.fin neg m (-(bitLen m : Int))), e + bitLen m)

/-! ## Integers (R126, R153) -/

/-- Clamp an integer to a range. -/
def clampInt (lo hi x : Int) : Int := if x < lo then lo else if hi < x then hi else x

/-- The range of an integer type: low and high. -/
def intRange (signed : Bool) (bits : Nat) : Int × Int :=
  if signed then (-(2 ^ (bits - 1) : Nat), (2 ^ (bits - 1) : Nat) - 1) else (0, (2 ^ bits : Nat) - 1)

/-- A floating value rounded to an integral value and clamped; NaN gives 0 (R126, R153). -/
def numToInt (r : Rnd) (signed : Bool) (bits : Nat) (x : Num) : Int :=
  let (lo, hi) := intRange signed bits
  match x with
  | .nan => 0
  | .inf neg => if neg then lo else hi
  | .fin neg m e =>
    let n : Int := roundIntegral r neg m e
    clampInt lo hi (if neg then -n else n)

/-- An integer as an exact value; zero is +0. -/
def numOfInt (x : Int) : Num := .fin (decide (x < 0)) x.natAbs 0

/-- An integer's low bits as a natural. -/
def lowBits (bits : Nat) (x : Int) : Nat := (x % (2 ^ bits : Nat)).toNat

/-- An `n`-bit code as an integer of a signedness. -/
def intOfBits (signed : Bool) (bits c : Nat) : Int :=
  let x := c % 2 ^ bits
  if signed && decide (2 ^ (bits - 1) ≤ x) then (x : Int) - (2 ^ bits : Nat) else x

/-! ## Types of R150 -/

/-- The floating format of a type code. -/
def fmtOfType (t : Nat) : Option FFmt :=
  match t with
  | 0x00 => some f32
  | 0x01 => some f64
  | 0x02 => some h16
  | 0x03 => some bf16
  | 0x04 => some e5m2
  | 0x05 => some e4m3
  | 0x06 => some e3m2
  | 0x07 => some e2m3
  | 0x08 => some e2m1
  | _ => none

/-- Signedness and bits of an integer type code. -/
def intOfType (t : Nat) : Bool × Nat :=
  match t with
  | 0x10 => (true, 8)
  | 0x11 => (true, 16)
  | 0x12 => (true, 32)
  | 0x13 => (true, 64)
  | 0x14 => (true, 4)
  | 0x18 => (false, 8)
  | 0x19 => (false, 16)
  | 0x1A => (false, 32)
  | 0x1B => (false, 64)
  | _ => (false, 4)

/-- Bits of a type (R116, R121). -/
def typeBits (t : Nat) : Nat :=
  match fmtOfType t with
  | some f => f.bits
  | none => (intOfType t).2

/-- CONVERT of R153: source code, destination code, modifiers. `sat` is R126's SAT, `ftz` acts on floating sources and results
of the wide formats (R118). Widening an integer extends it by the source's signedness, and SAT clamps in narrowing. Between integers of one
width R126 and R153 name neither; SAT clamps there too. MODEL'S CHOICE (assumption 107). -/
def convertCode (dt st : Nat) (r : Rnd) (ftz sat : Bool) (c : Nat) : Nat :=
  match fmtOfType st, fmtOfType dt with
  | some fs, some fd => fd.flush ftz (fd.narrow r sat (fs.value (fs.flush ftz c)))
  | some fs, none =>
    let (sg, n) := intOfType dt
    lowBits n (numToInt r sg n (fs.value (fs.flush ftz c)))
  | none, some fd =>
    let (sg, n) := intOfType st
    fd.flush ftz (fd.narrow r sat (numOfInt (intOfBits sg n c)))
  | none, none =>
    let (sg, n) := intOfType st
    let (dg, d) := intOfType dt
    let x := intOfBits sg n c
    lowBits d (if sat && decide (d ≤ n) then clampInt (intRange dg d).1 (intRange dg d).2 x else x)

/-! ## Scales (R119, R154, R155) -/

/-- EMAX of a scaled type (R154). -/
def scaleEmax (t : Nat) : Int :=
  match t with
  | 4 => 15
  | 5 => 8
  | 6 => 4
  | _ => 2

/-- MAXF of a scaled type (R154). -/
def scaleMaxF (t : Nat) : Num :=
  match t with
  | 4 => .fin false 57344 0
  | 5 => .fin false 448 0
  | 6 => .fin false 28 0
  | 7 => .fin false 15 (-1)
  | _ => .fin false 6 0

/-- SCALEOF (R154). It states no case for a magnitude that is a NaN pattern, which `.amax` can hand it with bit 31 clear: the scale is then
0xFF. MODEL'S CHOICE (assumption 92). -/
def scaleOf (nan : Bool) (m : Num) (dt : Nat) (ceil : Bool) : Nat :=
  if nan then 0xFF
  else match m with
    | .nan => 0xFF
    | .inf _ => 0xFE
    | .fin _ mm me =>
      if mm = 0 then 0x7F
      else
        let x := (bitLen mm : Int) - 1 + me - scaleEmax dt
        let x := if ceil && Num.cmp (.fin false mm (me - x)) (scaleMaxF dt) == 1 then x + 1 else x
        (clampInt 0 0xFE (127 + x)).toNat

/-- One element under a scale: NaN under the NaN scale, otherwise x × 2^(127 − s) rounded and narrowed (R155, R206). -/
def quantCode (dt : Nat) (r : Rnd) (ftz sat : Bool) (s : Nat) (x : Num) : Nat :=
  match fmtOfType dt with
  | some f => if s = 0xFF then f.nanCode else f.flush ftz (f.narrow r sat (x.scale (127 - (s : Int))))
  | none => 0

/-- STEP of the LFSR (R125). -/
def lfsrStep (s : Half) : Half :=
  let fb := (s.getLsbD 15).xor ((s.getLsbD 13).xor ((s.getLsbD 12).xor (s.getLsbD 10)))
  (s <<< 1) ||| (if fb then 1 else 0)

/-- `n` steps of the LFSR. -/
def lfsrSteps : Nat → Half → Half
  | 0, s => s
  | n + 1, s => lfsrSteps n (lfsrStep s)

/-- Element `i` of width `w` bits of a packed value (R122). -/
def elemAt (w i c : Nat) : Nat := c / 2 ^ (w * i) % 2 ^ w

/-- Pack elements of width `w`, element 0 lowest (R122). -/
def packElems (w : Nat) : List Nat → Nat
  | [] => 0
  | x :: r => x % 2 ^ w + 2 ^ w * packElems w r

end Sys2Proof.Machine
end

