-- ==== Sys2Proof/Machine/Flags.lean ====
section
/-!
DEFINITION. The conditions and flags that instructions compute: integer and float comparisons, their combination with a
predicate, carry and overflow (R102, R110, R138). The machine has no flag register: a flag is a predicate bit of a lane.
-/

namespace Sys2Proof.Machine

/-- The integer condition of CMP on A and B, read as S gives (R110). Codes 110 and 111 are illegal words. -/
def intCond (cmp : Nat) (signed : Bool) (a b : Word) : Bool :=
  let lt := if signed then BitVec.slt a b else BitVec.ult a b
  match cmp with
  | 0 => a == b
  | 1 => a != b
  | 2 => lt
  | 3 => lt || a == b
  | 4 => !(lt || a == b)
  | _ => !lt

/-- COMB: a condition combined with a bit, 00 none, 01 and, 10 or, 11 xor (R110, R138). -/
def combine (comb : Nat) (x c : Bool) : Bool :=
  match comb with
  | 0 => x
  | 1 => x && c
  | 2 => x || c
  | _ => x != c

/-- The float condition of C[9:6] (R138): ordered conditions 0 to 6, `.nan` 7, and 8 to 13 which also hold unordered. -/
def floatCond (cc : Nat) (x y : Num) : Bool :=
  let un := x == .nan || y == .nan
  let c := Num.cmp x y
  let base := match cc % 8 with
    | 0 => c == 0
    | 1 => c != 0
    | 2 => c == -1
    | 3 => c != 1
    | 4 => c == 1
    | _ => c != -1
  if cc = 6 then !un
  else if cc = 7 then un
  else if cc < 8 then !un && base
  else un || base

/-- The unsigned carry out of A + B + c (R102). -/
def carryOut (a b : Word) (c : Bool) : Bool := decide (2 ^ 32 ≤ a.toNat + b.toNat + c.toNat)

/-- The signed overflow of A + B + c (R102). -/
def overflowOut (a b : Word) (c : Bool) : Bool :=
  let x := a.toInt + b.toInt + (c.toNat : Int)
  decide (x < -(2 ^ 31 : Int) ∨ (2 ^ 31 : Int) ≤ x)

/-- A condition as a 32-bit 0 or 1. -/
def boolWord (b : Bool) : Word := if b then 1 else 0

/-- A condition as an all-ones or zero mask (R110, R138). -/
def maskWord (b : Bool) : Word := if b then 0xFFFFFFFF else 0

end Sys2Proof.Machine
end

