-- ==== Sys2Proof/Syntax.lean ====
section
/-!
DEFINITION. Instructions, whole: the 239 forms of front-end words, the 56 element forms, and the 102
operations and events of the device that have no word (spec/opcode_table.json, spec/04_encoding_and_assembly.md,
spec/95_what_each_step_holds.md).
-/

namespace Sys2Proof

/-- The guard of a front-end word: G[55] negates, G[54:52] selects p0 to p7 (R51). -/
structure Guard where
  neg : Bool
  pred : BitVec 3
deriving DecidableEq, Repr, Inhabited

/-- Handles of format X (R58). -/
inductive Handle where
  | bar (n : BitVec 7)
  | ob (n : BitVec 5)
  | cv (n : BitVec 4)
  | acc (n : BitVec 3)
  | tg (n : BitVec 3)
  | win (n : BitVec 4)
  | gb (n : BitVec 4)
deriving DecidableEq, Repr, Inhabited

/-- What a 10-bit operand field names (R53). A register pair or quad is named by its lower register. -/
inductive Opnd where
  | v (n : BitVec 8)
  | w (n : BitVec 3)
  | y (hi : Bool)
  | p (n : BitVec 3)
  | k (n : BitVec 6)
  | const (n : BitVec 4)
  | discard
  | hnd (h : Handle)
  | xl (n : BitVec 8)
deriving DecidableEq, Repr, Inhabited

/-- Formats R and X whose field C holds control bits or is reserved (R52, R55). -/
structure FmtR where
  g : Guard
  d : Opnd
  a : Opnd
  b : Opnd
  c : BitVec 10
  m : BitVec 12
deriving DecidableEq, Repr, Inhabited

/-- Formats R and X whose field C names an operand (R52). -/
structure FmtR3 where
  g : Guard
  d : Opnd
  a : Opnd
  b : Opnd
  c : Opnd
  m : BitVec 12
deriving DecidableEq, Repr, Inhabited

/-- Format I (R52). -/
structure FmtI where
  g : Guard
  d : Opnd
  a : Opnd
  imm : BitVec 32
deriving DecidableEq, Repr, Inhabited

/-- Format M: a 20-bit signed byte offset and the memory modifiers MM (R52, R57). -/
structure FmtM where
  g : Guard
  d : Opnd
  a : Opnd
  ofs : BitVec 20
  mm : BitVec 12
deriving DecidableEq, Repr, Inhabited

/-- Format B (R52, R59). -/
structure FmtB where
  g : Guard
  lnk : Opnd
  a : Opnd
  ofs : BitVec 32
deriving DecidableEq, Repr, Inhabited

/-- Format S (R52, R59). -/
structure FmtS where
  g : Guard
  d : Opnd
  a : Opnd
  srn : BitVec 12
  sub : BitVec 8
  m : BitVec 12
deriving DecidableEq, Repr, Inhabited

/-- The fields of an element word below its opcode (R63). -/
structure ElemWord where
  sa : BitVec 4
  sb : BitVec 4
  da : BitVec 4
  db : BitVec 3
  ta : BitVec 4
  gd : BitVec 7
deriving DecidableEq, Repr, Inhabited

/-- A core that a distributor chooses for one block, with the bases it chooses there (R23, R257, R264). -/
structure Site where
  core : Nat
  sbase : Nat
  lbase : Nat
deriving DecidableEq, Repr, Inhabited

/-- Where an uncorrectable or correctable error is found (R303, R304). -/
inductive EccSite where
  /-- a register array of the block -/
  | register (core blk : Nat)
  /-- operand buffer or accumulator memory of the block -/
  | matrix (core blk : Nat)
  /-- an element or channel of the copy or region serving the block -/
  | element (core blk : Nat)
  /-- a dirty line of L2, by the key of a byte -/
  | dirtyLine (addr : Nat)
  /-- a word of HBM of 64 bits, by the key of a byte -/
  | hbmWord (addr : Nat)
  /-- a dirty word of an L1 slice of 32 bits, by the key of a byte -/
  | l1Word (addr : Nat)
  /-- a scratchpad word of a core, by its byte -/
  | scratchWord (core k : Nat)
  /-- a word of the lane private slices of a core, by its byte -/
  | laneWord (core k : Nat)
  /-- a clean line: refetched -/
  | cleanLine (addr : Nat)
  /-- an entry of a TLB, by its number: it is dropped and walked again -/
  | tlbEntry (n : Nat)
  /-- a directory entry -/
  | directory (addr : Nat)
  /-- a block consumes the poisoned word at this address -/
  | consumed (core blk : Nat) (addr : Nat)
  /-- any single-bit error: corrected -/
  | correctable
deriving DecidableEq, Repr, Inhabited

/-- Why a loop damps (R45). -/
inductive DampWhy where
  | branchOut (j : BitVec 32)
  | faulted (j : BitVec 32)
  | preempt
  | breakpoint
  | damp
deriving DecidableEq, Repr, Inhabited

/-- An access by the host or a peer to a byte range of device memory (R211). -/
inductive OutsideAccess where
  | read (addr n : Nat)
  | write (addr : Nat) (bytes : List Byte)
  | atomicAdd (addr : Nat) (val : Dword)
  | atomicSwap (addr : Nat) (val : Dword)
  | atomicCas (addr : Nat) (cmp val : Dword)
deriving DecidableEq, Repr, Inhabited

/-- One constructor per row of spec/opcode_table.json. -/
inductive Instr where
  /-- Direct branch; divides the active lanes and pushes a pending entry when the guard is not uniform. (R80) -/
  | bra (x : FmtB)
  /-- Indirect branch to a per-lane 64-bit target; lanes with other targets are pushed as LATER. (R81) -/
  | brx (x : FmtR)
  /-- Direct call that writes the return address to the link pair and branches. (R80) -/
  | call (x : FmtB)
  /-- Indirect call through a per-lane target with a link write. (R81) -/
  | callx (x : FmtR)
  /-- Call through a linkage entry loaded with an acquire at dev scope. (R82) -/
  | calll (x : FmtM)
  /-- Return; has exactly the effect of BRX. (R81) -/
  | ret (x : FmtR)
  /-- Ends the active lanes, removes them from every stack mask and unwinds when no lane is left. (R85) -/
  | exit (x : FmtR)
  /-- Pushes a reconvergence entry holding the target PC and the current mask. (R83) -/
  | rcv (x : FmtB)
  /-- Pops the next pending path, or reconverges at the top reconvergence entry. (R84) -/
  | join (x : FmtR)
  /-- Sets the loop monitor's hint threshold and hinted head for the following loop. (R86) -/
  | loophint (x : FmtI)
  /-- Enters the user trap handler at TRAPBASE and records the cause and return PC. (R87) -/
  | trap (x : FmtI)
  /-- Halts the group for an attached debugger; otherwise does nothing. (R88) -/
  | bkpt (x : FmtI)
  /-- Takes an issue slot and changes nothing. (R89) -/
  | nop (x : FmtR)
  /-- Reads a special register into the destination. (R90) -/
  | rdsr (x : FmtS)
  /-- Writes a writable special register (LOOPCFG or TRAPBASE) from the lowest active lane. (R91) -/
  | wrsr (x : FmtS)
  /-- 32-bit integer add, optionally saturating. (R98) -/
  | iadd (x : FmtR)
  /-- 32-bit integer subtract, optionally saturating. (R98) -/
  | isub (x : FmtR)
  /-- Low 32 bits of the product. (R99) -/
  | imul (x : FmtR)
  /-- High 32 bits of the 64-bit product. (R99) -/
  | imulh (x : FmtR)
  /-- 32-bit multiply-add. (R99) -/
  | imad (x : FmtR3)
  /-- 64-bit integer add. (R98) -/
  | iadd64 (x : FmtR)
  /-- 64-bit integer subtract. (R98) -/
  | isub64 (x : FmtR)
  /-- 64-bit multiply-add of two 32-bit factors and a 64-bit addend. (R99) -/
  | imad64 (x : FmtR3)
  /-- Integer division truncated toward zero, with defined division by zero. (R100) -/
  | idiv (x : FmtR)
  /-- Integer remainder with the sign of the dividend. (R100) -/
  | irem (x : FmtR)
  /-- Lesser of two integers. (R101) -/
  | imin (x : FmtR)
  /-- Greater of two integers. (R101) -/
  | imax (x : FmtR)
  /-- Absolute value as i32. (R101) -/
  | iabs (x : FmtR)
  /-- Negation as i32. (R101) -/
  | ineg (x : FmtR)
  /-- Sum of absolute difference and an addend. (R101) -/
  | isad (x : FmtR3)
  /-- Add with carry in and carry or overflow out to a predicate. (R102) -/
  | iaddc (x : FmtR3)
  /-- Bitwise and. (R103) -/
  | and (x : FmtR)
  /-- Bitwise or. (R103) -/
  | or (x : FmtR)
  /-- Bitwise exclusive or. (R103) -/
  | xor (x : FmtR)
  /-- A and not B. (R103) -/
  | andn (x : FmtR)
  /-- Bitwise not. (R103) -/
  | not (x : FmtR)
  /-- Shift left. (R104) -/
  | shl (x : FmtR)
  /-- Logical shift right. (R104) -/
  | shr (x : FmtR)
  /-- Arithmetic shift right. (R104) -/
  | sar (x : FmtR)
  /-- Rotate left by B mod 32. (R104) -/
  | rot (x : FmtR)
  /-- Funnel shift left. (R105) -/
  | fshl (x : FmtR3)
  /-- Funnel shift right. (R105) -/
  | fshr (x : FmtR3)
  /-- 64-bit shift left. (R106) -/
  | shl64 (x : FmtR)
  /-- 64-bit shift right, zero or sign fill. (R106) -/
  | shr64 (x : FmtR)
  /-- Population count. (R107) -/
  | popc (x : FmtR)
  /-- Count leading zeros. (R107) -/
  | clz (x : FmtR)
  /-- Count trailing zeros. (R107) -/
  | ctz (x : FmtR)
  /-- Bit reversal. (R107) -/
  | brev (x : FmtR)
  /-- Bit-field extract. (R108) -/
  | bfx (x : FmtR)
  /-- Bit-field insert. (R108) -/
  | bfi (x : FmtR3)
  /-- Byte permute of two registers. (R109) -/
  | prmt (x : FmtR3)
  /-- Integer compare giving 0 or 1, optionally combined with a predicate. (R110) -/
  | icmp (x : FmtR)
  /-- Integer compare giving an all-ones or zero mask. (R110) -/
  | iset (x : FmtR)
  /-- Select A or B by C bit 0. (R111) -/
  | isel (x : FmtR3)
  /-- Three-input lookup-table predicate function. (R112) -/
  | pset (x : FmtR3)
  /-- Register copy. (R113) -/
  | mov (x : FmtR)
  /-- Move a 32-bit immediate to each active lane. (R114) -/
  | movi (x : FmtI)
  /-- Move a 32-bit immediate to a k register once for the group. (R114) -/
  | movk (x : FmtI)
  /-- 32-bit address formation with shifted index. (R115) -/
  | lea (x : FmtR)
  /-- 64-bit address formation with shifted 32-bit index. (R115) -/
  | lea64 (x : FmtR)
  /-- f32 add, rounded once. (R135) -/
  | fadd (x : FmtR)
  /-- f32 subtract. (R135) -/
  | fsub (x : FmtR)
  /-- f32 multiply. (R135) -/
  | fmul (x : FmtR)
  /-- f32 fused multiply-add. (R135) -/
  | ffma (x : FmtR3)
  /-- f32 minimum with NaN suppression. (R137) -/
  | fmin (x : FmtR)
  /-- f32 maximum with NaN suppression. (R137) -/
  | fmax (x : FmtR)
  /-- f32 compare giving 0 or 1, optionally combined with a predicate. (R138) -/
  | fcmp (x : FmtR)
  /-- f32 compare giving a mask. (R138) -/
  | fset (x : FmtR)
  /-- Select A or B by the sign of C. (R139) -/
  | fsel (x : FmtR3)
  /-- Test the class of A against a mask. (R140) -/
  | fclass (x : FmtR)
  /-- Round f32 to an integral value. (R141) -/
  | frnd (x : FmtR)
  /-- SFU reciprocal. (R143) -/
  | frcp (x : FmtR)
  /-- SFU reciprocal square root. (R143) -/
  | frsq (x : FmtR)
  /-- Correctly rounded square root. (R143) -/
  | fsqrt (x : FmtR)
  /-- SFU base-2 exponential. (R143) -/
  | fexp2 (x : FmtR)
  /-- SFU base-2 logarithm. (R143) -/
  | flog2 (x : FmtR)
  /-- SFU sine. (R143) -/
  | fsin (x : FmtR)
  /-- SFU cosine. (R143) -/
  | fcos (x : FmtR)
  /-- SFU hyperbolic tangent. (R143) -/
  | ftanh (x : FmtR)
  /-- Correctly rounded f32 division. (R145) -/
  | fdiv (x : FmtR)
  /-- Multiply by a power of two, rounded once. (R142) -/
  | fldexp (x : FmtR)
  /-- Split into mantissa and exponent pair. (R142) -/
  | ffrexp (x : FmtR)
  /-- Packed h16 add. (R146) -/
  | hadd2 (x : FmtR)
  /-- Packed h16 subtract. (R146) -/
  | hsub2 (x : FmtR)
  /-- Packed h16 multiply. (R146) -/
  | hmul2 (x : FmtR)
  /-- Packed h16 fused multiply-add. (R146) -/
  | hfma2 (x : FmtR3)
  /-- Packed h16 minimum. (R146) -/
  | hmin2 (x : FmtR)
  /-- Packed h16 maximum. (R146) -/
  | hmax2 (x : FmtR)
  /-- Packed h16 compare. (R138) -/
  | hcmp2 (x : FmtR)
  /-- Packed bf16 add. (R146) -/
  | badd2 (x : FmtR)
  /-- Packed bf16 subtract. (R146) -/
  | bsub2 (x : FmtR)
  /-- Packed bf16 multiply. (R146) -/
  | bmul2 (x : FmtR)
  /-- Packed bf16 fused multiply-add. (R146) -/
  | bfma2 (x : FmtR3)
  /-- Packed bf16 minimum. (R146) -/
  | bmin2 (x : FmtR)
  /-- Packed bf16 maximum. (R146) -/
  | bmax2 (x : FmtR)
  /-- Packed bf16 compare. (R138) -/
  | bcmp2 (x : FmtR)
  /-- f32 FMA of two h16 halves and an f32 addend. (R147) -/
  | ffmah (x : FmtR3)
  /-- f32 FMA of two bf16 halves and an f32 addend. (R147) -/
  | ffmab (x : FmtR3)
  /-- f64 add. (R148) -/
  | dadd (x : FmtR)
  /-- f64 multiply. (R148) -/
  | dmul (x : FmtR)
  /-- f64 fused multiply-add. (R148) -/
  | dfma (x : FmtR3)
  /-- f64 compare giving a 32-bit result. (R148) -/
  | dcmp (x : FmtR)
  /-- f64 minimum. (R148) -/
  | dmin (x : FmtR)
  /-- f64 maximum. (R148) -/
  | dmax (x : FmtR)
  /-- Type conversion between 32-bit-or-narrower types. (R152) -/
  | cvt (x : FmtR)
  /-- Type conversion with a 64-bit source or destination. (R152) -/
  | cvt64 (x : FmtR)
  /-- Scaled quantising conversion of several elements that updates AMAX. (R155) -/
  | qcvt (x : FmtR)
  /-- Scaled dequantising conversion to a wider type. (R157) -/
  | dqcvt (x : FmtR)
  /-- Packs two 16-bit halves. (R162) -/
  | pack2 (x : FmtR)
  /-- Packs four bytes from a quad. (R162) -/
  | pack4 (x : FmtR)
  /-- Packs eight nibbles from two quads. (R162) -/
  | pack8 (x : FmtR)
  /-- Unpacks two 16-bit elements to a pair. (R163) -/
  | unpk2 (x : FmtR)
  /-- Unpacks four bytes to a quad. (R163) -/
  | unpk4 (x : FmtR)
  /-- Unpacks four nibbles to a quad. (R163) -/
  | unpk8 (x : FmtR)
  /-- Computes the x8 scale a block magnitude needs. (R154) -/
  | scalex (x : FmtR)
  /-- Quantises one block across the group with a shared scale. (R158) -/
  | qblk (x : FmtR)
  /-- Largest magnitude over aligned lane segments. (R159) -/
  | blkmax (x : FmtR)
  /-- Seeds the stochastic-rounding LFSR. (R161) -/
  | srseed (x : FmtR)
  /-- Two-term h16 dot product into f32. (R165) -/
  | dot2h (x : FmtR)
  /-- Two-term bf16 dot product into f32. (R165) -/
  | dot2b (x : FmtR)
  /-- Four-term 8-bit integer dot product. (R166) -/
  | dot4i (x : FmtR)
  /-- Eight-term 4-bit integer dot product. (R166) -/
  | dot8i (x : FmtR)
  /-- Four-term 8/6-bit float dot product into f32. (R165) -/
  | dot4e (x : FmtR)
  /-- Eight-term e2m1 dot product into f32. (R165) -/
  | dot8e (x : FmtR)
  /-- Two-term 16-bit integer dot product. (R166) -/
  | idp2 (x : FmtR)
  /-- Reads AMAX and clears it in one step. (R160) -/
  | amaxclr (x : FmtR)
  /-- Shuffle from an indexed lane within a segment. (R169) -/
  | shfli (x : FmtR)
  /-- Shuffle from a lower lane. (R169) -/
  | shfla (x : FmtR)
  /-- Shuffle from a higher lane. (R169) -/
  | shflb (x : FmtR)
  /-- Shuffle from lane L xor n. (R169) -/
  | shflx (x : FmtR)
  /-- Quad exchange. (R170) -/
  | qswap (x : FmtR)
  /-- Quad broadcast. (R170) -/
  | qbcast (x : FmtR)
  /-- Group vote all, any, uniform or ballot. (R171) -/
  | vote (x : FmtR)
  /-- Masks of lanes with equal values. (R172) -/
  | matchLanes (x : FmtR)
  /-- Integer reduction over the group. (R173) -/
  | redux (x : FmtR)
  /-- f32 tree reduction over the group. (R174) -/
  | reduxf (x : FmtR)
  /-- Integer prefix scan. (R173) -/
  | scan (x : FmtR)
  /-- f32 prefix scan in ascending lane order. (R175) -/
  | scanf (x : FmtR)
  /-- Segmented reduction. (R176) -/
  | segred (x : FmtR)
  /-- Segmented prefix scan. (R176) -/
  | segscan (x : FmtR)
  /-- Elects the lowest contributing lane. (R177) -/
  | elect (x : FmtR)
  /-- Writes the active mask to every active lane. (R177) -/
  | actmask (x : FmtR)
  /-- Broadcasts one lane's value to the group. (R178) -/
  | bcast (x : FmtR)
  /-- Writes one lane's value to a k register. (R178) -/
  | kset (x : FmtR)
  /-- Rank or count of equal keys. (R179) -/
  | rank (x : FmtR)
  /-- Stable group sort of payloads by key. (R180) -/
  | sortg (x : FmtR)
  /-- Packs selected lanes' values to the low lanes. (R181) -/
  | compact (x : FmtR)
  /-- Spreads packed values back to selected lanes. (R181) -/
  | expand (x : FmtR)
  /-- Global load, checked for every lane before any performs. (R237) -/
  | ld (x : FmtM)
  /-- Global store. (R237) -/
  | st (x : FmtM)
  /-- Contiguous group load from a k base by lane. (R238) -/
  | ldv (x : FmtM)
  /-- Contiguous group store from a k base by lane. (R238) -/
  | stv (x : FmtM)
  /-- Uniform load into k registers by the lowest active lane. (R239) -/
  | ldk (x : FmtM)
  /-- Non-faulting load that reports suppressed lanes through its guard predicate. (R240) -/
  | ldnf (x : FmtM)
  /-- Zeroes a 128-byte line per lane. (R241) -/
  | stz (x : FmtM)
  /-- Atomic add returning the old value. (R243) -/
  | atadd (x : FmtR)
  /-- Atomic minimum. (R243) -/
  | atmin (x : FmtR)
  /-- Atomic maximum. (R243) -/
  | atmax (x : FmtR)
  /-- Atomic and. (R243) -/
  | atand (x : FmtR)
  /-- Atomic or. (R243) -/
  | ator (x : FmtR)
  /-- Atomic exclusive or. (R243) -/
  | atxor (x : FmtR)
  /-- Atomic exchange. (R243) -/
  | atexch (x : FmtR)
  /-- Atomic compare and swap; always writes. (R243) -/
  | atcas (x : FmtR3)
  /-- Atomic wrapping increment. (R243) -/
  | atinc (x : FmtR)
  /-- Atomic wrapping decrement. (R243) -/
  | atdec (x : FmtR)
  /-- Atomic float add. (R243) -/
  | atfadd (x : FmtR)
  /-- Atomic float minimum. (R243) -/
  | atfmin (x : FmtR)
  /-- Atomic float maximum. (R243) -/
  | atfmax (x : FmtR)
  /-- 16-byte atomic compare and swap. (R245) -/
  | atcas128 (x : FmtR3)
  /-- Reduction add without a returned value. (R246) -/
  | redadd (x : FmtR)
  /-- Reduction minimum. (R246) -/
  | redmin (x : FmtR)
  /-- Reduction maximum. (R246) -/
  | redmax (x : FmtR)
  /-- Reduction float add. (R246) -/
  | redfadd (x : FmtR)
  /-- Orders the thread's accesses at a scope. (R248) -/
  | fence (x : FmtM)
  /-- Prefetches each lane's line; never faults. (R249) -/
  | pref (x : FmtM)
  /-- Applies a cache line operation to each lane's line. (R250) -/
  | cctl (x : FmtM)
  /-- Scratchpad load, local or cluster form, with window fills. (R262) -/
  | lds (x : FmtM)
  /-- Scratchpad store, marking window words dirty. (R262) -/
  | sts (x : FmtM)
  /-- Contiguous scratchpad load by lane. (R262) -/
  | ldsv (x : FmtM)
  /-- Contiguous scratchpad store by lane. (R262) -/
  | stsv (x : FmtM)
  /-- Scratchpad atomic add. (R263) -/
  | atsadd (x : FmtR)
  /-- Scratchpad atomic minimum. (R263) -/
  | atsmin (x : FmtR)
  /-- Scratchpad atomic maximum. (R263) -/
  | atsmax (x : FmtR)
  /-- Scratchpad atomic compare and swap. (R263) -/
  | atscas (x : FmtR3)
  /-- Load from the thread's lane private slice at its home lane. (R264) -/
  | ldl (x : FmtM)
  /-- Store to the thread's lane private slice. (R264) -/
  | stl (x : FmtM)
  /-- Binds a mapped window from a shape record. (R270) -/
  | wmap (x : FmtR)
  /-- Flushes and unbinds a window. (R272) -/
  | wunmap (x : FmtR)
  /-- Writes back a window's dirty bytes. (R271) -/
  | wflush (x : FmtR)
  /-- Clears a window's marks without write-back. (R273) -/
  | winv (x : FmtR)
  /-- Commits a sparse tile with a frame from the pool. (R225) -/
  | pgcommit (x : FmtR)
  /-- Returns a committed tile to RESERVED and its frame to the pool. (R226) -/
  | pgrelease (x : FmtR)
  /-- Reads the page-table entry that decides a translation. (R228) -/
  | pgquery (x : FmtR)
  /-- Sets a tile's permissions and ZEROREAD. (R227) -/
  | pgprot (x : FmtR)
  /-- Reads a commit pool value. (R228) -/
  | pgpool (x : FmtR)
  /-- Allocates a heap block per lane. (R252) -/
  | halloc (x : FmtR)
  /-- Frees a heap block per lane. (R253) -/
  | hfree (x : FmtR)
  /-- Reads the size of the live block containing an address. (R254) -/
  | hsize (x : FmtR)
  /-- Resumes a suspended group or operation by replaying the faulted word. (R434) -/
  | gresumeReplay (x : FmtR)
  /-- Resumes a suspended group past the faulted word with a SKIP value. (R434) -/
  | gresumeSkip (x : FmtR)
  /-- Kills the block that holds the suspended group or operation. (R434) -/
  | gresumeKill (x : FmtR)
  /-- Per-lane 32-byte copy counted per lane in a copy tag. (R349) -/
  | cpy32 (x : FmtR3)
  /-- Bulk copy of one range. (R350) -/
  | cpyb (x : FmtR3)
  /-- Strided box copy between global memory and scratchpad. (R351) -/
  | cpyst (x : FmtR)
  /-- Waits until a copy tag, or all tags, read zero. (R352) -/
  | cpywait (x : FmtR)
  /-- Reads a copy tag counter. (R352) -/
  | cpycnt (x : FmtR)
  /-- Fills a range with a 32-bit pattern. (R350) -/
  | cpyfill (x : FmtR3)
  /-- Bulk copy reaching peer memory, ordered at sys scope. (R350) -/
  | cpyp (x : FmtR3)
  /-- Indexed gather into scratchpad through a memory tile. (R354) -/
  | gath (x : FmtR)
  /-- Indexed scatter from scratchpad, optionally atomic add. (R354) -/
  | scat (x : FmtR)
  /-- Expands a sparse slot into dense elements. (R355) -/
  | gathbm (x : FmtR3)
  /-- Waits until the group's tile count reads zero. (R356) -/
  | mtwait (x : FmtR)
  /-- Fetches L2 lines into an operand-buffer reservation, pinning them. (R357) -/
  | tfetch (x : FmtR3)
  /-- Unpins a handle's fetched lines. (R358) -/
  | tfrel (x : FmtR)
  /-- Reserves and zeroes an operand-buffer range for a handle. (R313) -/
  | obrsv (x : FmtR)
  /-- Releases a reservation after its users complete. (R313) -/
  | obrel (x : FmtR)
  /-- Copies scratchpad bytes into a reservation through the matrix queue. (R314) -/
  | obldS (x : FmtR3)
  /-- Writes each lane's register into a reservation. (R314) -/
  | obldR (x : FmtR3)
  /-- Declares a convergence register's group count. (R420) -/
  | cvdecl (x : FmtR)
  /-- Signs or fires a dense matrix multiply-accumulate round. (R318) -/
  | mma (x : FmtR3)
  /-- Signs or fires a sparse-A matrix multiply-accumulate round. (R320) -/
  | mmas (x : FmtR3)
  /-- Claims a tile and zeroes it. (R315) -/
  | accinitZero (x : FmtR)
  /-- Claims a tile and loads it from scratchpad. (R315) -/
  | accinitLd (x : FmtR)
  /-- Reads a tile row into registers after the tile's earlier entries. (R316) -/
  | accrd (x : FmtR)
  /-- Drains a tile to scratchpad. (R321) -/
  | mdrainS (x : FmtR)
  /-- Drains a tile as tokens into a region's drain node. (R321) -/
  | mdrainC (x : FmtR)
  /-- Waits for a tile's, or all, matrix entries and signed rounds. (R322) -/
  | mwait (x : FmtR)
  /-- Arrives at a named barrier and waits for the phase. (R414) -/
  | barSync (x : FmtR)
  /-- Arrives at a named barrier without waiting. (R414) -/
  | barArrive (x : FmtR)
  /-- Arrives at a gang barrier and waits. (R418) -/
  | gbarSync (x : FmtR)
  /-- Arrives at a gang barrier without waiting. (R418) -/
  | gbarArrive (x : FmtR)
  /-- Arrives at the block rendezvous that sorts threads by key. (R377) -/
  | regroup (x : FmtR)
  /-- Arrives at the block rendezvous that returns threads home. (R381) -/
  | regroupb (x : FmtR)
  /-- Loads a compiler-placed region image. (R400) -/
  | fxload (x : FmtR)
  /-- Starts a loaded region. (R401) -/
  | fxrun (x : FmtR)
  /-- Waits for a region's end and writes its status. (R403) -/
  | fxwait (x : FmtR)
  /-- Sends one parameter token per octet to a region port. (R402) -/
  | fxparam (x : FmtR)
  /-- Stops and frees a region. (R404) -/
  | fxdrop (x : FmtR)
  /-- Damps the block's streaming groups. (R405) -/
  | damp (x : FmtR)
  /-- Empty element slot; never fires. (R198) -/
  | elemNop (x : ElemWord)
  /-- Element transport copy keeping TYPE. (R195) -/
  | elemMov (x : ElemWord)
  /-- Element integer add. (R195) -/
  | elemAdd (x : ElemWord)
  /-- Element integer subtract. (R195) -/
  | elemSub (x : ElemWord)
  /-- Element integer multiply. (R195) -/
  | elemMul (x : ElemWord)
  /-- Element unsigned high multiply. (R195) -/
  | elemMulh (x : ElemWord)
  /-- Element multiply-add with a d register or literal addend. (R195) -/
  | elemMad (x : ElemWord)
  /-- Element signed minimum. (R195) -/
  | elemMin (x : ElemWord)
  /-- Element signed maximum. (R195) -/
  | elemMax (x : ElemWord)
  /-- Element bitwise and. (R195) -/
  | elemAnd (x : ElemWord)
  /-- Element bitwise or. (R195) -/
  | elemOr (x : ElemWord)
  /-- Element bitwise exclusive or. (R195) -/
  | elemXor (x : ElemWord)
  /-- Element a and not b. (R195) -/
  | elemAndn (x : ElemWord)
  /-- Element bitwise not. (R195) -/
  | elemNot (x : ElemWord)
  /-- Element shift left. (R195) -/
  | elemShl (x : ElemWord)
  /-- Element logical shift right. (R195) -/
  | elemShr (x : ElemWord)
  /-- Element arithmetic shift right. (R195) -/
  | elemSar (x : ElemWord)
  /-- Element population count. (R195) -/
  | elemPopc (x : ElemWord)
  /-- Element count leading zeros. (R195) -/
  | elemClz (x : ElemWord)
  /-- Element per-lane select by predicate. (R196) -/
  | elemSel (x : ElemWord)
  /-- Element f32 add. (R195) -/
  | elemFadd (x : ElemWord)
  /-- Element f32 subtract. (R195) -/
  | elemFsub (x : ElemWord)
  /-- Element f32 multiply. (R195) -/
  | elemFmul (x : ElemWord)
  /-- Element f32 fused multiply-add. (R195) -/
  | elemFfma (x : ElemWord)
  /-- Element f32 minimum. (R195) -/
  | elemFmin (x : ElemWord)
  /-- Element f32 maximum. (R195) -/
  | elemFmax (x : ElemWord)
  /-- Element f32 to i32, toward zero. (R195) -/
  | elemFtoi (x : ElemWord)
  /-- Element i32 to f32. (R195) -/
  | elemItof (x : ElemWord)
  /-- Element integer equal compare. (R195) -/
  | elemCeq (x : ElemWord)
  /-- Element integer not-equal compare. (R195) -/
  | elemCne (x : ElemWord)
  /-- Element signed less-than compare. (R195) -/
  | elemClt (x : ElemWord)
  /-- Element signed less-or-equal compare. (R195) -/
  | elemCle (x : ElemWord)
  /-- Element unsigned less-than compare. (R195) -/
  | elemCltn (x : ElemWord)
  /-- Element unsigned less-or-equal compare. (R195) -/
  | elemClen (x : ElemWord)
  /-- Element f32 less-than compare. (R195) -/
  | elemFclt (x : ElemWord)
  /-- Element f32 less-or-equal compare. (R195) -/
  | elemFcle (x : ElemWord)
  /-- Element f32 equal compare. (R195) -/
  | elemFceq (x : ElemWord)
  /-- Element f32 unordered-or-not-equal compare. (R195) -/
  | elemFcne (x : ElemWord)
  /-- Sets a context predicate bit in executed lanes. (R197) -/
  | elemPset (x : ElemWord)
  /-- Clears a context predicate bit. (R197) -/
  | elemPclr (x : ElemWord)
  /-- And of two predicate bits. (R197) -/
  | elemPand (x : ElemWord)
  /-- Or of two predicate bits. (R197) -/
  | elemPor (x : ElemWord)
  /-- Not of a predicate bit. (R197) -/
  | elemPnot (x : ElemWord)
  /-- Sends a token to one arm and a control token to a MERGE. (R201) -/
  | elemSteer (x : ElemWord)
  /-- Forwards the head of the arm that the control token names. (R202) -/
  | elemMerge (x : ElemWord)
  /-- Forwards a head from either arm, alternating when both wait. (R203) -/
  | elemMergeu (x : ElemWord)
  /-- Forwards a token clearing lanes that meet the drop conditions. (R199) -/
  | elemDrop (x : ElemWord)
  /-- Sends a value with END bits or scale type from the literal. (R200) -/
  | elemEmit (x : ElemWord)
  /-- Dequeues the named channels only. (R198) -/
  | elemDeq (x : ElemWord)
  /-- Latches a scale token into a d register. (R204) -/
  | elemSclatch (x : ElemWord)
  /-- Quantises f32 lanes under a per-lane scale. (R206) -/
  | elemQuant (x : ElemWord)
  /-- Accumulates block magnitude and sends a scale token per block. (R205) -/
  | elemAmaxr (x : ElemWord)
  /-- Counts lanes and sends the count at an END mark. (R207) -/
  | elemCnt (x : ElemWord)
  /-- Folds a value into the context accumulator. (R208) -/
  | elemAcc (x : ElemWord)
  /-- Releases a ready accumulator as a token and resets it. (R209) -/
  | elemAccrel (x : ElemWord)
  /-- Per-lane selection of a lane of source A. (R196) -/
  | elemLsel (x : ElemWord)
  /-- A CP fetch turn copies one record whole from the highest-priority ready queue and checks it. (R328) -/
  | commandFetch
  /-- Accepts a launch and hands it to the distributors of the partition. (R329) -/
  | launch (id : Nat)
  /-- Starts a hub copy agent transfer. (R331) -/
  | copy (id : Nat)
  /-- After earlier records finish, writes VALUE to the counter with a release. (R330) -/
  | signalSet (id : Nat)
  /-- After earlier records finish, adds VALUE to the counter with a release. (R330) -/
  | signalAdd (id : Nat)
  /-- Holds its queue until its counter condition holds. (R330) -/
  | wait (id : Nat)
  /-- Holds its queue until earlier records finish and all its conditions hold. (R330) -/
  | barrierAnd (id : Nat)
  /-- Sends a placement area to every core of the named dies for cache entry. (R409) -/
  | placePreload (id : Nat)
  /-- Frees a target queue with no unfinished commands. (R334) -/
  | queueDestroy (id : Nat)
  /-- Kills the target's blocks and commands and frees the queue. (R334) -/
  | queueDestroyForce (id : Nat)
  /-- Writes a tagged journal record. (R329) -/
  | journalMark (id : Nat)
  /-- The CP rereads a waited counter on a line write or the 2 us period. (R330) -/
  | waitReread (id : Nat)
  /-- A WAIT's timeout expires; the record faults and the queue enters ERROR. (R330) -/
  | waitTimeout (id : Nat)
  /-- The last block of a grid retires; the grid is journaled and signalled. (R26) -/
  | gridRetire (id : Nat)
  /-- A hub COPY finishes its last piece and retires. (R331) -/
  | copyRetire (id : Nat)
  /-- PLACE_PRELOAD retires when every named core has finished. (R409) -/
  | preloadRetire (id : Nat)
  /-- A doorbell write sets the queue's WIDX; `q` is 4,096 × the partition through whose page it is written + the queue. (R326) -/
  | doorbell (q : Nat) (w : Dword)
  /-- Creates a queue from its QTAB entry. (R325) -/
  | qctlCreate (p : Nat) (q : Nat)
  /-- Returns a queue's RIDX in QCTL. (R496) -/
  | qctlReadRidx (p : Nat) (q : Nat)
  /-- Destroys a queue as QUEUE_DESTROY without FORCE. (R496) -/
  | qctlDestroy (p : Nat) (q : Nat)
  /-- Destroys a queue as QUEUE_DESTROY with FORCE. (R496) -/
  | qctlDestroyForce (p : Nat) (q : Nat)
  /-- Creates an address space from the descriptor at ASDESC. (R450) -/
  | asctlCreate (p : Nat) (asid : Nat)
  /-- Replaces an address space's PTROOT, PASID and flags. (R450) -/
  | asctlUpdate (p : Nat) (asid : Nat)
  /-- Destroys an unused address space. (R450) -/
  | asctlDestroy (p : Nat) (asid : Nat)
  /-- Adds a frame to the commit pool, or counts a refusal. (R222) -/
  | pooladd (p : Nat) (val : Dword)
  /-- Starts a TLB invalidation of a range and sets BUSY. (R221) -/
  | tlbinv (p : Nat) (val : Dword)
  /-- Old translations have drained and BUSY clears. (R221) -/
  | tlbinvComplete (p : Nat)
  /-- Host resume of a FAULTID by replay. (R434) -/
  | fresumeReplay (p : Nat) (fid : Word)
  /-- Host resume of a FAULTID by skip. (R434) -/
  | fresumeSkip (p : Nat) (fid : Word) (val : Dword)
  /-- Host kill of the block holding a FAULTID. (R434) -/
  | fresumeKill (p : Nat) (fid : Word)
  /-- PREEMPT.CTL write with ONE clear pre-empts every started block of a grid. (R439) -/
  | preemptGrid (p : Nat) (val : Dword)
  /-- PREEMPT.CTL write with ONE set pre-empts one block and its gang. (R439) -/
  | preemptBlock (p : Nat) (val : Dword)
  /-- Sets a core's power-share budget. (R457) -/
  | pwrbudget (p : Nat) (val : Dword)
  /-- Adds a save area to the partition's save pool. (R449) -/
  | csaadd (p : Nat) (val : Dword)
  /-- The service frees fault queue records, letting waiting records be written. (R338) -/
  | fqrWrite (p : Nat) (val : Dword)
  /-- Setting the fault ring releases records waiting at overflow buffers and cores. (R338) -/
  | fqbaseWrite (p : Nat) (val : Dword)
  /-- Attaches or detaches the debugger and holds or releases engines. (R443) -/
  | dbgctlWrite (p : Nat) (val : Dword)
  /-- Sets a breakpoint, damping groups that stream its loop. (R445) -/
  | dbgbpWrite (p : Nat) (n : Nat) (val : Dword)
  /-- Halts a named group. (R443) -/
  | dbgcmdHalt (p : Nat) (core : Nat) (slot : Nat)
  /-- Resumes a halted group, optionally at DBGPC. (R443) -/
  | dbgcmdResume (p : Nat) (core : Nat) (slot : Nat)
  /-- Issues one word of a halted group and halts again. (R443) -/
  | dbgcmdStep (p : Nat) (core : Nat) (slot : Nat)
  /-- Write to a register with no row of its own, ignored whole if out of range. (R495) -/
  | registerWrite (p : Nat) (off : Nat) (val : Dword)
  /-- A distributor places a block or whole gang on cores with room and starts it. (R23) -/
  | blockPlace (id : Nat) (die : Nat) (sites : List Site)
  /-- A victim distributor receives a steal message and replies with a unit or empty. (R22) -/
  | stealMessage (id : Nat) (thief : Nat) (victim : Nat)
  /-- A thief receives a stolen unit or tries the next distributor. (R22) -/
  | stealReply (thief : Nat)
  /-- A finished block flushes windows and frees its resources. (R26) -/
  | blockRetire (core : Nat) (blk : Nat)
  /-- Load or atomic data arrives and is written with a y push. (R230) -/
  | loadReturn (core : Nat) (n : Nat)
  /-- A write performs once its invalidations are acknowledged. (R298) -/
  | writePerform (n : Nat)
  /-- A host ATS or PRI response lets a waiting translation proceed. (R447) -/
  | translationResponse (core : Nat) (slot : Nat) (ok : Bool)
  /-- A page walk reads its entries and fills the TLBs or fails. (R214) -/
  | walkComplete (core : Nat) (asid : Nat) (va : Dword)
  /-- A kit read request at the home directory. (R297) -/
  | coherenceRead (kit : Nat) (line : Nat)
  /-- A kit read-for-write or upgrade invalidates other copies. (R297) -/
  | coherenceReadForWrite (kit : Nat) (line : Nat)
  /-- A kit evicts a line, writing back dirty data. (R297) -/
  | coherenceEvict (kit : Nat) (line : Nat)
  /-- An atomic or reduction performs at the location's home. (R284) -/
  | homeAtomic (core : Nat) (n : Nat)
  /-- A window receives a home notice of words written by another agent. (R268) -/
  | windowNotice (n : Nat)
  /-- A home's answer timer expires; the line is poisoned and an error raised. (R302) -/
  | homeAnswerTimeout (line : Nat) (agent : Nat)
  /-- The patrol scrubber reads and corrects L2 and HBM words. (R303) -/
  | patrolScrub (addr : Nat)
  /-- A detected memory error is corrected, poisoned or made fatal by array. (R303) -/
  | eccError (what : EccSite)
  /-- A copy operation or lane copy completes and its tag falls. (R343) -/
  | copyComplete (core : Nat) (n : Nat)
  /-- A bulk piece fails translation and the operation is suspended. (R345) -/
  | enginePieceFault (core : Nat) (n : Nat)
  /-- A memory tile instruction completes and MTC falls. (R353) -/
  | tileComplete (core : Nat) (tile : Nat)
  /-- A matrix queue entry completes. (R309) -/
  | matrixEntryComplete (core : Nat) (n : Nat)
  /-- A queued round starts at the rate the power limit allows. (R13) -/
  | mmaRoundStart (core : Nat)
  /-- The drain port sends the next tile token when the channel has space. (R321) -/
  | drainToken (core : Nat)
  /-- After the rendezvous and drain, threads are packed into groups. (R379) -/
  | regroupShuffle (core : Nat) (blk : Nat)
  /-- The placer writes a placement or an unplaceable mark into the cache. (R38) -/
  | placerComplete (core : Nat)
  /-- A candidate group injects its live-ins and starts streaming. (R39) -/
  | handOver (core : Nat) (slot : Nat)
  /-- A returned permit admits the next iteration. (R41) -/
  | iterationAdmit (core : Nat) (n : Nat)
  /-- An iteration commits its live-outs and releases its stores. (R42) -/
  | iterationCommit (core : Nat) (n : Nat)
  /-- A memory node performs an access for its tokens. (R366) -/
  | memoryNodeAccess (core : Nat) (n : Nat)
  /-- The last octet leaves; later iterations are squashed. (R44) -/
  | loopExit (core : Nat) (n : Nat)
  /-- A damp trigger stops admission and returns the group to the front end. (R46) -/
  | loopDamp (core : Nat) (n : Nat) (why : DampWhy)
  /-- Committed live-outs are written back and the group becomes eligible. (R44) -/
  | liveoutWriteback (core : Nat) (n : Nat)
  /-- A token reaches its channel after its hops. (R361) -/
  | channelTokenArrive (core : Nat) (n : Nat)
  /-- A stream engine sends its next token when the channel has space. (R363) -/
  | streamToken (core : Nat) (n : Nat)
  /-- A parameter token starts a new stream round after the last token. (R364) -/
  | streamRound (core : Nat) (n : Nat)
  /-- An END[3] token and wired accesses complete at the end node. (R403) -/
  | regionDone (core : Nat) (n : Nat)
  /-- A slot's starvation count reaches its limit. (R193) -/
  | carillonStarve (core : Nat) (elem : Nat) (slot : Nat)
  /-- A channel block timer expires and an echo probe is sent. (R369) -/
  | probeSend (core : Nat) (elem : Nat) (chan : Nat)
  /-- An echo probe moves one wait-for edge or dies. (R369) -/
  | probeForward (core : Nat)
  /-- A count token reaches its block's chime counter. (R423) -/
  | countToken (core : Nat) (blk : Nat)
  /-- A pre-emption request reaches a core, which stops issue and damps streaming groups. (R440) -/
  | preemptArrive (core : Nat) (blk : Nat)
  /-- The deadline expires and still-streaming copies freeze. (R47) -/
  | preemptDeadline (core : Nat) (blk : Nat)
  /-- After in-flight work drains, the save area is written and resources freed. (R441) -/
  | blockSave (core : Nat) (blk : Nat)
  /-- A saved block is placed again and its state reloaded. (R442) -/
  | blockRestore (p : Nat) (n : Nat) (sites : List Site)
  /-- A fetch matches an enabled breakpoint and starts a halt. (R443) -/
  | dbgbpMatch (core : Nat) (slot : Nat)
  /-- Once earlier words complete, the group is HALTED and recorded. (R443) -/
  | groupHalt (core : Nat) (slot : Nat)
  /-- A code page is hash-checked when brought in; failure quarantines the object. (R387) -/
  | codePageVerify (p : Nat) (obj : Nat) (page : Nat)
  /-- Device reset; DEVSTATE reads RESET. (R451) -/
  | reset
  /-- Die C0 has trained and reduced service begins. (R452) -/
  | serviceReduced (harvest : List Nat)
  /-- All dies have trained; held launches dispatch at full clock. (R453) -/
  | serviceFull (dies : BitVec 4)
  /-- Management sets partitions and their resources. (R454) -/
  | partitionSetup (count : Nat) (signed : BitVec 4)
  /-- A Gwynryn link agrees version and width and comes up. (R455) -/
  | linkTrain (link : Nat) (ver : Nat) (width : Nat)
  /-- A link exceeds its retry limit, goes down and kills affected blocks. (R456) -/
  | linkDown (link : Nat)
  /-- A mailbox request with a nonce returns a signed report. (R459) -/
  | attestationRequest (p : Nat) (nonce : List Byte)
  /-- A group issues a word whose OP is unassigned, or the all-zero word, and faults ILLEGAL_OPCODE. (R61) -/
  | unassignedOp (w : Dword)
  /-- A kit with no resident block enters retention, keeping its slice data with its logic powered off. (R302) -/
  | kitEntersRetention (kit : Nat)
  /-- A Pyoft load makes a code object table entry LOADING and then LOADED, and writes its linkage entries. (R372) -/
  | codeObjectLoad (p : Nat) (obj : Nat) (asid : Nat) (base : Dword)
  /-- Unloading a code object makes it UNLOADED and invalidates its placement cache entries and instruction cache lines. (R406) -/
  | codeObjectUnload (p : Nat) (obj : Nat)
  /-- The debugger writes a HALTED group's registers, which makes its y slots invalid. (R443) -/
  | debuggerRegisterWrite (p : Nat) (core : Nat) (slot : Nat) (reg : Nat) (lane : Nat) (val : Word)
  /-- An FXLOAD's image check and load end some cycles after the last byte arrives, making the region LOADED or writing the refusal status. (R400) -/
  | fxloadLoadEnd (core : Nat) (blk : Nat) (rgn : Nat)
  /-- A load, store or atomic from the host over PCIe or from a peer over a Gwynryn link arrives and performs at its L2 home. (R211) -/
  | peerOrHostAccess (acc : OutsideAccess)deriving DecidableEq, Repr, Inhabited

end Sys2Proof
end

