-- ==== Sys2Proof/Machine/Codes.lean ====
section
/-!
DEFINITION. The 10-bit operand codes (R53, R58) and the uses an instruction makes of its operand fields: which codes a
position takes, how many registers it covers, whether it is a source or a destination (R53 to R58, R92).
-/

namespace Sys2Proof.Machine

/-- The code of a handle, CLS = 10 (R58). -/
def handleCode : Handle → BitVec 8
  | .bar n => n.setWidth 8
  | .ob n => 0x80 + n.setWidth 8
  | .cv n => 0xA0 + n.setWidth 8
  | .acc n => 0xB0 + n.setWidth 8
  | .tg n => 0xB8 + n.setWidth 8
  | .win n => 0xC0 + n.setWidth 8
  | .gb n => 0xD0 + n.setWidth 8

/-- The handle a code names; codes 0xE0 to 0xFF name none (R58). -/
def handleOfCode (i : BitVec 8) : Option Handle :=
  if i < 0x80 then some (.bar (i.setWidth 7))
  else if i < 0xA0 then some (.ob (i.setWidth 5))
  else if i < 0xB0 then some (.cv (i.setWidth 4))
  else if i < 0xB8 then some (.acc (i.setWidth 3))
  else if i < 0xC0 then some (.tg (i.setWidth 3))
  else if i < 0xD0 then some (.win (i.setWidth 4))
  else if i < 0xE0 then some (.gb (i.setWidth 4))
  else none

/-- The 10-bit code of an operand: CLS[9:8] then IDX[7:0] (R53). -/
def opndCode : Opnd → BitVec 10
  | .v n => 0#2 ++ n
  | .w n => 1#2 ++ n.setWidth 8
  | .y hi => 1#2 ++ (if hi then 0x09#8 else 0x08#8)
  | .p n => 1#2 ++ (0x10#8 + n.setWidth 8)
  | .k n => 1#2 ++ (0x40#8 + n.setWidth 8)
  | .const n => 1#2 ++ (0x80#8 + n.setWidth 8)
  | .discard => 1#2 ++ 0xFF#8
  | .hnd h => 2#2 ++ handleCode h
  | .xl n => 3#2 ++ n

/-- What a 10-bit code names; none for the codes that the table of R53 or R58 leaves illegal everywhere. -/
def opndOfCode (f : BitVec 10) : Option Opnd :=
  let i := f.setWidth 8
  match (f.extractLsb' 8 2).toNat with
  | 0 => some (.v i)
  | 1 =>
    if i < 0x08 then some (.w (i.setWidth 3))
    else if i = 0x08 then some (.y false)
    else if i = 0x09 then some (.y true)
    else if i < 0x10 then none
    else if i < 0x18 then some (.p (i.setWidth 3))
    else if i < 0x40 then none
    else if i < 0x80 then some (.k (i.setWidth 6))
    else if i < 0x90 then some (.const (i.setWidth 4))
    else if i = 0xFF then some .discard
    else none
  | 2 => (handleOfCode i).map .hnd
  | _ => some (.xl i)

/-! ## Uses of operand fields -/

/-- One use of an operand field: whether the code stands legally there, whether it is a destination, and how many
registers it covers. `push` marks the destination whose result enters y (R75). -/
structure Use where
  o : Opnd
  ok : Bool
  dst : Bool
  regs : Nat
  push : Bool
deriving DecidableEq, Repr

/-- A register range that starts at a multiple of `n` and stays below `top` (R53). -/
def aligned (i n top : Nat) : Bool := i % n == 0 && i + n ≤ top

/-- A field an entry leaves reserved holds zero, the code of v0 (R4, R52, R60). -/
def resv (o : Opnd) : Bool := o == .v 0

/-- A 32-bit source (R92). -/
def src (o : Opnd) : Use :=
  { o, dst := false, regs := 1, push := false,
    ok := match o with | .v _ | .w _ | .y _ | .p _ | .k _ | .const _ => true | _ => false }

/-- A 32-bit source in a two-source form: a register of another lane as well (R95). -/
def srcX (o : Opnd) : Use :=
  { o, dst := false, regs := 1, push := false,
    ok := match o with | .v _ | .w _ | .y _ | .p _ | .k _ | .const _ | .xl _ => true | _ => false }

/-- A 64-bit source: a v, w or k pair, or a constant (R92). -/
def src64 (o : Opnd) : Use :=
  { o, dst := false, regs := 2, push := false,
    ok := match o with
      | .v n => aligned n.toNat 2 256
      | .w n => aligned n.toNat 2 8
      | .k n => aligned n.toNat 2 64
      | .const _ => true
      | _ => false }

/-- A 32-bit destination: v, w, p or discard (R92). -/
def dst (o : Opnd) : Use :=
  { o, dst := true, regs := 1, push := true,
    ok := match o with | .v _ | .w _ | .p _ | .discard => true | _ => false }

/-- A 64-bit destination: a v or w pair, or discard (R92). -/
def dst64 (o : Opnd) : Use :=
  { o, dst := true, regs := 2, push := true,
    ok := match o with
      | .v n => aligned n.toNat 2 256
      | .w n => aligned n.toNat 2 8
      | .discard => true
      | _ => false }

/-- A source restricted by an entry to some codes; `n` registers. -/
def srcOf (n : Nat) (o : Opnd) (ok : Bool) : Use := { o, ok, dst := false, regs := n, push := false }

/-- A destination restricted by an entry to some codes; `n` registers. -/
def dstOf (n : Nat) (o : Opnd) (ok : Bool) : Use := { o, ok, dst := true, regs := n, push := true }

/-- A v register, pair or quad. -/
def isV (n : Nat) : Opnd → Bool
  | .v i => aligned i.toNat n 256
  | _ => false

/-- A w register, pair or quad (R230). -/
def isW (n : Nat) : Opnd → Bool
  | .w i => aligned i.toNat n 8
  | _ => false

/-- A k register, pair or quad (R239). -/
def isK (n : Nat) : Opnd → Bool
  | .k i => aligned i.toNat n 64
  | _ => false

/-- The constants that are floating values (R54). -/
def floatConst (n : BitVec 4) : Bool := 3 ≤ n.toNat && n.toNat ≤ 11

/-- The mask `m` has no bit outside `allowed`: the bits that no entry defines are reserved. -/
def only (m allowed : BitVec 12) : Bool := m &&& ~~~allowed == 0

/-- The cross-lane control of R55, as a field C. -/
def xlControlOk (c : BitVec 10) : Bool :=
  let n := (c.extractLsb' 2 5).toNat
  let low := (c.extractLsb' 0 2).toNat
  match (c.extractLsb' 7 3).toNat with
  | 0 => false
  | 1 | 2 | 3 => n == 0 && low == 0
  | 4 => n ≤ 3 && low == 0
  | 5 => true
  | _ => low == 0

/-- Whether an operand names a register of another lane. -/
def isXL : Opnd → Bool
  | .xl _ => true
  | _ => false

/-- Field C of a two-source form: the control where one source is of another lane, otherwise reserved (R55, R95, R97). -/
def xlOk (a b : Opnd) (c : BitVec 10) : Bool :=
  if isXL a && isXL b then false
  else if isXL a || isXL b then xlControlOk c
  else c == 0

/-- What an instruction does with its fields: its uses of operand fields, and whether everything else about its fields is
legal (R60 check 1). -/
structure Form where
  uses : List Use
  ok : Bool
deriving DecidableEq, Repr

end Sys2Proof.Machine
end

