-- ==== Sys2Proof/Machine/Legal.lean ====
section
/-!
DEFINITION. Which instructions are legal as words: the checks of R60 step 1 for front-end words, from the tables of each
family (R52 to R59, R92 to R97, R129 to R133, R149 to R151, R167, R168, R223, R230, R236, R261, R269, R312, R348, R376,
R399, R413, R417, R433), and the checks of R65 and R194 for element words.
-/

namespace Sys2Proof.Machine

/-- Bits `lo` to `lo + n - 1` of a field M or MM. -/
def fldM (m : BitVec 12) (lo n : Nat) : Nat := (m.extractLsb' lo n).toNat
/-- Bits `lo` to `lo + n - 1` of a field C. -/
def fldC (c : BitVec 10) (lo n : Nat) : Nat := (c.extractLsb' lo n).toNat

/-- G = 0b0111: the guard that holds in every lane (R51). -/
def guardAlways (g : Guard) : Bool := !g.neg && g.pred == 7

/-- Every field below G is reserved (R85, R89). -/
def allResv (x : FmtR) : Bool := resv x.d && resv x.a && resv x.b && x.c == 0 && x.m == 0

/-- The special registers of R77 and their SUB ranges. -/
def srExists (n sub : Nat) : Bool :=
  match n with
  | 0x00B | 0x013 | 0x051 => sub ≤ 2
  | 0x050 => sub ≤ 5
  | 0x052 => sub ≤ 1
  | 0x000 | 0x001 | 0x002 | 0x003 | 0x004 | 0x005 | 0x008 | 0x009 | 0x00A | 0x010 | 0x011 | 0x012 | 0x014
  | 0x018 | 0x019 | 0x01A | 0x020 | 0x021 | 0x028 | 0x029 | 0x030 | 0x031 | 0x038 | 0x039 | 0x040 | 0x041
  | 0x048 => sub == 0
  | _ => false

/-- The registers that R77 gives group scope. -/
def srGroupScope (n : Nat) : Bool :=
  match n with
  | 0x000 | 0x001 | 0x003 | 0x004 | 0x008 | 0x009 | 0x00A | 0x030 | 0x031 | 0x038 => false
  | _ => true

/-- The registers that R77 marks RW. -/
def srWritable (n sub : Nat) : Bool := (n == 0x029 && sub == 0) || (n == 0x052 && sub ≤ 1)

/-! ## Format R shapes -/

/-- One 32-bit source and a 32-bit result. -/
def form1 (x : FmtR) (m : BitVec 12) : Form := ⟨[dst x.d, src x.a], resv x.b && x.c == 0 && only x.m m⟩
/-- A two-source form that may read another lane (R95, R132). -/
def formXL (x : FmtR) (m : BitVec 12) : Form := ⟨[dst x.d, srcX x.a, srcX x.b], xlOk x.a x.b x.c && only x.m m⟩
/-- Three 32-bit sources. -/
def form3 (x : FmtR3) (m : BitVec 12) : Form := ⟨[dst x.d, src x.a, src x.b, src x.c], only x.m m⟩

/-- RND of an arithmetic form: 000 to 011 (R131). -/
def rndOk (m : BitVec 12) : Bool := fldM m 9 3 ≤ 3
/-- `form1` with a RND field or a zero one. -/
def form1r (x : FmtR) (m : BitVec 12) : Form := ⟨(form1 x m).uses, (form1 x m).ok && rndOk x.m⟩
/-- `formXL` with a RND field; FLDEXP's B is an integer and takes no modifier. -/
def formXLr (x : FmtR) (m : BitVec 12) : Form := ⟨(formXL x m).uses, (formXL x m).ok && rndOk x.m⟩
/-- `form3` with a RND field. -/
def form3r (x : FmtR3) (m : BitVec 12) : Form := ⟨(form3 x m).uses, (form3 x m).ok && rndOk x.m⟩

/-- The operand that field C names, where a form makes it a third source (R110). -/
def opndC (c : BitVec 10) : Opnd := (opndOfCode c).getD .discard

/-- ICMP: field C is a source when COMB is not 00, otherwise a two-source form (R110, R95). -/
def formCmp (x : FmtR) (m : BitVec 12) (cmpOk : Bool) (comb : Nat) : Form :=
  if comb = 0 then ⟨[dst x.d, srcX x.a, srcX x.b], xlOk x.a x.b x.c && only x.m m && cmpOk⟩
  else ⟨[dst x.d, src x.a, src x.b, src (opndC x.c)], only x.m m && cmpOk⟩

/-- FCMP and DCMP: C[9:6] the condition, C[5:4] COMB, C[3] reserved, C[2:0] a predicate (R138). -/
def formFcmp (s : Opnd → Use) (x : FmtR) : Form :=
  ⟨[dst x.d, s x.a, s x.b], fldC x.c 6 4 ≤ 13 && fldC x.c 3 1 == 0 && (fldC x.c 4 2 != 0 || fldC x.c 0 3 == 0) &&
    only x.m 0x16C⟩

/-- FSET, HCMP2 and BCMP2: C[9:6] the condition, the rest reserved (R138). -/
def formFset (x : FmtR) : Form :=
  ⟨[dst x.d, src x.a, src x.b], fldC x.c 6 4 ≤ 13 && fldC x.c 0 6 == 0 && only x.m 0x16C⟩

/-! ## Conversions (R150 to R166) -/

/-- The floating type codes of R150. -/
def floatType (t : Nat) : Bool := t ≤ 8
/-- The integer type codes of R150. -/
def intType (t : Nat) : Bool := (0x10 ≤ t && t ≤ 0x14) || (0x18 ≤ t && t ≤ 0x1C)
/-- f64, i64 and n64. -/
def wideType (t : Nat) : Bool := t == 0x01 || t == 0x13 || t == 0x1B
/-- The types that have an x8 scale: e5m2, e4m3, e3m2, e2m3, e2m1 (R154). -/
def scaleType (t : Nat) : Bool := 4 ≤ t && t ≤ 8
/-- The destinations of .sr: h16, bf16 and the narrower floating formats (R124). -/
def srType (t : Nat) : Bool := 2 ≤ t && t ≤ 8
/-- e5m2, e4m3, e3m2 or e2m3 (R164). -/
def narrow8Type (t : Nat) : Bool := 4 ≤ t && t ≤ 7
/-- i8 or n8. -/
def int8Type (t : Nat) : Bool := t == 0x10 || t == 0x18
/-- i4 or n4. -/
def int4Type (t : Nat) : Bool := t == 0x14 || t == 0x1C
/-- i16 or n16. -/
def int16Type (t : Nat) : Bool := t == 0x11 || t == 0x19

/-- The constants whose value a narrow floating format holds exactly (R54): R116's table of the five formats. -/
def constFits (t : Nat) : Opnd → Bool
  | .const n =>
    if floatConst n then
      match t with
      | 4 => true
      | 5 => n != 11
      | 6 => n != 11
      | 7 => n != 11
      | 8 => n != 11 && n != 10
      | _ => true
    else true
  | _ => true

/-- A floating constant stands illegally where the elements have no floating format (R54). -/
def intOnly : Opnd → Bool
  | .const n => !floatConst n
  | _ => true

/-- A quad of 32-bit elements without a floating format, or an integer constant (R54, R162). -/
def quadSrc (o : Opnd) : Use :=
  srcOf 4 o (isV 4 o || (match o with | .const n => !floatConst n | _ => false))

/-- A register of packed elements without a floating format (R54, R163). -/
def intSrc (o : Opnd) : Use := srcOf 1 o ((src o).ok && intOnly o)

/-- CVT (`wide` false) and CVT64 (`wide` true) (R152, R124). -/
def formCvt (wide : Bool) (x : FmtR) : Form :=
  let dt := fldC x.c 5 5
  let st := fldC x.c 0 5
  let rnd := fldM x.m 9 3
  let okType := fun t => floatType t || intType t
  ⟨[if wideType dt then dst64 x.d else dst x.d, if wideType st then src64 x.a else src x.a],
    resv x.b && okType dt && okType st && (wide == (wideType dt || wideType st)) &&
    only x.m (if floatType st then 0xFC8 else 0xF80) && rnd ≤ 5 && (rnd != 5 || srType dt) &&
    (floatType st || floatType dt || rnd == 0)⟩

/-- A span of `n` registers, or a constant (R155). -/
def spanSrc (n : Nat) (o : Opnd) : Use :=
  match n with
  | 1 => src o
  | 2 => src64 o
  | _ => srcOf 4 o (isV 4 o || (match o with | .const _ => true | _ => false))

/-- Registers that QCVT's A or DQCVT's D spans: E elements of the wide type (R155). -/
def spanRegs (narrow st : Nat) : Nat :=
  match decide (narrow ≤ 3), st with
  | true, 0 => 2
  | true, _ => 1
  | false, 0 => 4
  | false, _ => 2

/-- The narrow types of QCVT and DQCVT: h16, bf16 and the scaled types (R155). -/
def qType (t : Nat) : Bool := 2 ≤ t && t ≤ 8

/-- QCVT (R155). -/
def formQcvt (x : FmtR) : Form :=
  let dt := fldC x.c 5 5
  let st := fldC x.c 3 2
  ⟨[dstOf 1 x.d (isV 1 x.d || isW 1 x.d), spanSrc (spanRegs dt st) x.a, src x.b],
    qType dt && st ≤ 2 && (fldC x.c 2 1 == 0 || dt == 8) && fldC x.c 0 2 == 0 && only x.m 0xFC8 && fldM x.m 9 3 ≤ 5⟩

/-- A destination span of DQCVT and of the UNPK forms; 128 bits are a v quad (R149) or dropped (R53). -/
def spanDst (n : Nat) (o : Opnd) : Use :=
  match n with
  | 1 => dst o
  | 2 => dst64 o
  | _ => dstOf 4 o (isV 4 o || o == .discard)

/-- DQCVT (R157). -/
def formDqcvt (x : FmtR) : Form :=
  let nt := fldC x.c 5 5
  let wt := fldC x.c 3 2
  let rnd := fldM x.m 9 3
  ⟨[spanDst (spanRegs nt wt) x.d, srcOf 1 x.a ((src x.a).ok && constFits nt x.a), src x.b],
    qType nt && wt ≤ 2 && (fldC x.c 2 1 == 0 || nt == 8) && fldC x.c 0 2 == 0 && only x.m 0xF80 &&
    (rnd ≤ 4 || (rnd == 5 && wt != 0))⟩

/-- The dot forms: D is a v or w register, addend and destination (R164). -/
def formDot (x : FmtR) (m : BitVec 12) (types aOk bOk : Bool) : Form :=
  ⟨[dstOf 1 x.d (isV 1 x.d || isW 1 x.d), srcOf 1 x.a ((src x.a).ok && aOk), srcOf 1 x.b ((src x.b).ok && bOk)],
    types && only x.m m && rndOk x.m⟩

/-! ## Cross-lane (R168) -/

/-- SHFL*: C[4:2] the width code, C[1:0] the bound (R169). -/
def formShfl (x : FmtR) : Form := ⟨[dst x.d, src x.a, src x.b], fldC x.c 2 3 ≤ 4 && fldC x.c 5 5 == 0 && x.m == 0⟩
/-- REDUX and SCAN: OP in C[2:0], S in C[3] for min and max only (R173). -/
def reduxOk (c : Nat) : Bool := c ≤ 5 || c == 9 || c == 10
/-- SEGRED and SEGSCAN: SOP in C[2:0], S in C[3] for integer min and max, RND and FTZ for float operations (R176). R176 does not say whether S
may be set with integer add; it is refused, as R173 does. MODEL'S CHOICE (assumption 104). -/
def segOk (c : Nat) (m : BitVec 12) : Bool :=
  if 4 ≤ c && c ≤ 6 then only m 0xF00 && rndOk m
  else (c ≤ 2 || c == 9 || c == 10) && m == 0
/-- BCAST and KSET: with FIRST, C[4:0] is 0 (R178). -/
def firstOk (c : BitVec 10) : Bool := fldC c 5 1 == 0 || fldC c 0 5 == 0

/-! ## Memory (R57, R230, R236, R261) -/

/-- Registers that SZ needs: one up to 32 bits, a pair, a quad (R57). -/
def szRegs (m : BitVec 12) : Nat :=
  match fldM m 9 3 with
  | 3 => 2
  | 4 => 4
  | _ => 1

/-- The limits of R57 on MM but for SCP: SZ within a range, ORD among some codes, EXT. -/
def mmShape (m : BitVec 12) (lo hi : Nat) (ords : List Nat) (load : Bool) : Bool :=
  let sz := fldM m 9 3
  let ext := fldM m 0 2
  lo ≤ sz && sz ≤ hi && ords.contains (fldM m 7 2) && (ext == 0 || (ext == 1 && load && sz ≤ 1))

/-- The limits of R57 on MM: SCP is 0 for a plain access and at most sys. -/
def mmOk (m : BitVec 12) (lo hi : Nat) (ords : List Nat) (load : Bool) : Bool :=
  mmShape m lo hi ords load && fldM m 4 3 ≤ 4 && (fldM m 7 2 != 0 || fldM m 4 3 == 0)

/-- A load destination or old value of `n` registers, or discard (R230). -/
def sizedDst (n : Nat) (o : Opnd) : Use := dstOf n o (isV n o || isW n o || o == .discard)
/-- Store data, atomic data or a compare value of `n` registers; a constant up to 64 bits (R230). -/
def sizedSrc (n : Nat) (o : Opnd) : Use :=
  srcOf n o (isV n o || isW n o || (n ≤ 2 && (match o with | .const _ => true | _ => false)))
/-- A global base: a v or k pair (R230). -/
def gbase (o : Opnd) : Use := srcOf 2 o (isV 2 o || isK 2 o)
/-- A VA of HFREE and HSIZE: a v, w or k pair (R53, R253, R254). -/
def heapVa (o : Opnd) : Use := srcOf 2 o (isV 2 o || isW 2 o || isK 2 o)
/-- A scratchpad or lane private base: a v, w or k register (R57). -/
def lbase (o : Opnd) : Use := srcOf 1 o (isV 1 o || isW 1 o || isK 1 o)
/-- A v, w or k register. -/
def vwk (o : Opnd) : Use := lbase o

/-- LD and LDNF. -/
def formLoad (x : FmtM) (lo hi : Nat) : Form :=
  ⟨[sizedDst (szRegs x.mm) x.d, gbase x.a], mmOk x.mm lo hi [0, 1] true⟩
/-- ST: D is the data. -/
def formStore (x : FmtM) (lo hi : Nat) : Form :=
  ⟨[sizedSrc (szRegs x.mm) x.d, gbase x.a], mmOk x.mm lo hi [0, 2] false⟩
/-- LDV and STV: a k base, plain (R238). -/
def formRun (f : Form) (x : FmtM) : Form := ⟨f.uses, f.ok && isK 2 x.a && fldM x.mm 7 2 == 0⟩
/-- A form with one more condition. -/
def formRun2 (f : Form) (b : Bool) : Form := ⟨f.uses, f.ok && b⟩
/-- AT* forms: EXT and CH zero; C[0] is S in min and max, otherwise reserved (R235, R242). -/
def formAtomic (x : FmtR) (lo hi : Nat) (s : Bool) : Form :=
  ⟨[sizedDst (szRegs x.m) x.d, gbase x.a, sizedSrc (szRegs x.m) x.b],
    mmOk x.m lo hi [0, 1, 2, 3] false && fldM x.m 0 4 == 0 && (if s then x.c.toNat ≤ 1 else x.c == 0)⟩
/-- Compare and swap: C is the compare value (R242, R245, R263). -/
def formCas (base : Opnd → Use) (x : FmtR3) (lo hi : Nat) : Form :=
  ⟨[sizedDst (szRegs x.m) x.d, base x.a, sizedSrc (szRegs x.m) x.b, sizedSrc (szRegs x.m) x.c],
    mmOk x.m lo hi [0, 1, 2, 3] false && fldM x.m 0 4 == 0⟩
/-- RED* forms: D must be zero (R246). -/
def formRed (x : FmtR) (s : Bool) : Form :=
  ⟨[gbase x.a, sizedSrc (szRegs x.m) x.b],
    resv x.d && mmOk x.m 2 3 [0, 2] false && fldM x.m 0 4 == 0 && (if s then x.c.toNat ≤ 1 else x.c == 0)⟩
/-- LDSV, STSV, LDL and STL are plain, with SCP 000 and CH zero (R262, R264). -/
def formLocal (x : FmtM) (load : Bool) : Form :=
  ⟨[if load then sizedDst (szRegs x.mm) x.d else sizedSrc (szRegs x.mm) x.d, lbase x.a],
    mmOk x.mm 0 4 [0] load && fldM x.mm 2 2 == 0⟩
/-- LDS and STS: SCP up to cls, CH zero. SCP 010 is legal on a plain access too, as R261 says of every access; SCP 001 is not, as R57 says of
every plain load and store (assumption 88). -/
def formScratch (x : FmtM) (ords : List Nat) (load : Bool) : Form :=
  ⟨(formLocal x load).uses, mmShape x.mm 0 4 ords load && fldM x.mm 2 2 == 0 && fldM x.mm 4 3 ≤ 2 &&
    (fldM x.mm 7 2 != 0 || fldM x.mm 4 3 != 1)⟩
/-- ATS* forms: SCP up to cls, a plain one included, since R57 asks SCP 000 of plain loads and stores only (R261, R263). -/
def formAts (x : FmtR) (s : Bool) : Form :=
  ⟨[sizedDst (szRegs x.m) x.d, lbase x.a, sizedSrc (szRegs x.m) x.b],
    2 ≤ fldM x.m 9 3 && fldM x.m 9 3 ≤ 3 && fldM x.m 0 4 == 0 && fldM x.m 4 3 ≤ 2 && (if s then x.c.toNat ≤ 1 else x.c == 0)⟩

/-! ## Format X (R58, R348) -/

/-- A window handle. -/
def isWin : Opnd → Bool | .hnd (.win _) => true | _ => false
/-- A copy tag handle. -/
def isTg : Opnd → Bool | .hnd (.tg _) => true | _ => false
/-- An operand-buffer handle. -/
def isOb : Opnd → Bool | .hnd (.ob _) => true | _ => false
/-- A tile handle. -/
def isAcc : Opnd → Bool | .hnd (.acc _) => true | _ => false
/-- A convergence handle. -/
def isCv : Opnd → Bool | .hnd (.cv _) => true | _ => false
/-- A barrier handle. -/
def isBar : Opnd → Bool | .hnd (.bar _) => true | _ => false
/-- A gang barrier handle. -/
def isGb : Opnd → Bool | .hnd (.gb _) => true | _ => false
/-- A local scratchpad address of an engine form: v, w, k or constant (R348). -/
def spad (o : Opnd) : Use :=
  srcOf 1 o (isV 1 o || isW 1 o || isK 1 o || (match o with | .const _ => true | _ => false))
/-- A global address or a scratchpad address. -/
def spadOr (global : Bool) (o : Opnd) : Use := if global then gbase o else spad o
/-- A status destination of the FX forms and DAMP: v, w or discard (R399). -/
def vwDst (o : Opnd) : Use := dstOf 1 o (isV 1 o || isW 1 o || o == .discard)
/-- BAR: A is a thread count, or 0x1FF for default mode (R413). -/
def formBar (x : FmtR) (m : BitVec 12) : Form :=
  ⟨if x.a == .discard then [] else [spad x.a], isBar x.d && resv x.b && x.c == 0 && x.m == m⟩

/-! ## Element words (R63 to R65, R194) -/

/-- Which sources an element opcode uses: none, A, or A and B (R195 to R209). -/
def elemSources (op : Nat) : Nat :=
  match op with
  | 0x00 | 0x26 | 0x27 | 0x30 | 0x36 => 0
  | 0x01 | 0x0D | 0x11 | 0x12 | 0x1A | 0x1B | 0x2A | 0x2E | 0x2F | 0x31 | 0x33 | 0x34 | 0x35 => 1
  | _ => 2

/-- The configured forms, whose literal is configuration (R194). -/
def elemConfigured (op : Nat) : Bool :=
  match op with
  | 0x2B | 0x2C | 0x2D | 0x2E | 0x2F | 0x32 | 0x33 | 0x34 => true
  | _ => false

/-- PAND, POR and PNOT, whose sources are predicates (R194). -/
def elemPredSource (op : Nat) : Bool := op == 0x28 || op == 0x29 || op == 0x2A

/-- What the entry of an opcode asks of its destinations (R65, R190, R195 to R209). -/
def elemDestOk (op : Nat) (x : ElemWord) : Bool :=
  let da := x.da.toNat
  let db := x.db.toNat
  let port := da ≤ 3 || da == 15
  match op with
  | 0x00 | 0x30 | 0x35 => da == 15 && db == 0
  | 0x26 | 0x27 | 0x28 | 0x29 | 0x2A => da == 12 && db ≤ 6
  | 0x2B => port && db ≤ 4
  | 0x2E | 0x2F => da != 14 && db == 0
  | 0x31 => 4 ≤ da && da ≤ 11 && db == 0
  | _ => da != 14 && (da != 12 || db ≤ 6)

/-- The checks of R65 and R194 that need only the word. -/
def slotWordOk (op : Nat) (x : ElemWord) : Bool :=
  let sa := x.sa.toNat
  let sb := x.sb.toNat
  op < 0x38 && elemDestOk op x &&
  (1 ≤ elemSources op || sa == 13) && (elemSources op == 2 || sb == 13) &&
  (!elemPredSource op || (sa ≤ 7 && (op == 0x2A || sb ≤ 7))) &&
  (fldG x.gd == 0 || (sa ≤ 3 && !elemPredSource op)) &&
  (!elemConfigured op || (sa != 12 && (op == 0x32 || sb != 12))) &&
  (match op with
   | 0x2C | 0x2D => sa ≤ 3 && sb ≤ 3 && x.ta == 0
   | 0x36 => x.ta == 0
   | 0x30 => x.ta != 0
   | 0x2E | 0x31 => sa ≤ 3
   | 0x32 => sb ≤ 12
   | _ => true)
where
  /-- The HEAD test of a guard (R64). -/
  fldG (g : BitVec 7) : Nat := (g.extractLsb' 0 2).toNat

/-! ## The whole table -/

/-- The uses and the field checks of every instruction. Events of the device have no fields. -/
def form : Instr → Form
  -- control (R80 to R91)
  | .bra x => ⟨[], resv x.lnk && resv x.a⟩
  | .brx x => ⟨[srcOf 2 x.a (isV 2 x.a || isK 2 x.a)], resv x.d && resv x.b && x.c == 0 && x.m == 0⟩
  | .call x => ⟨[dstOf 2 x.lnk (isV 2 x.lnk || x.lnk == .discard)], resv x.a⟩
  | .callx x => ⟨[dstOf 2 x.d (isV 2 x.d || x.d == .discard), srcOf 2 x.a (isV 2 x.a || isK 2 x.a)],
      resv x.b && x.c == 0 && x.m == 0⟩
  | .calll x => ⟨[dstOf 2 x.d (isV 2 x.d || x.d == .discard), srcOf 2 x.a (isV 2 x.a || isK 2 x.a)], x.mm == 0x6B0⟩
  | .ret x => ⟨[srcOf 2 x.a (isV 2 x.a || isK 2 x.a)], resv x.d && resv x.b && x.c == 0 && x.m == 0⟩
  | .exit x => ⟨[], allResv x⟩
  | .rcv x => ⟨[], resv x.lnk && resv x.a && guardAlways x.g⟩
  | .join x => ⟨[], allResv x && guardAlways x.g⟩
  | .loophint x => ⟨[], resv x.d && resv x.a && x.imm.toNat < 256⟩
  | .trap x => ⟨[], resv x.d && resv x.a && x.imm.toNat < 256⟩
  | .bkpt x => ⟨[], resv x.d && resv x.a && x.imm.toNat < 65536⟩
  | .nop x => ⟨[], allResv x⟩
  | .rdsr x => ⟨[dstOf 1 x.d ((dst x.d).ok || (isK 1 x.d && srGroupScope x.srn.toNat))],
      srExists x.srn.toNat x.sub.toNat && resv x.a && x.m == 0⟩
  | .wrsr x => ⟨[srcOf 1 x.a (match x.a with | .v _ | .w _ | .k _ | .p _ | .const _ => true | _ => false)],
      srWritable x.srn.toNat x.sub.toNat && resv x.d && x.m == 0⟩
  -- integer (R97)
  | .iadd x => formXL x 0xC00
  | .isub x => formXL x 0xC00
  | .imul x => formXL x 0
  | .imulh x => formXL x 0x800
  | .imad x => form3 x 0
  | .iadd64 x => ⟨[dst64 x.d, src64 x.a, src64 x.b], x.c == 0 && only x.m 0xC00⟩
  | .isub64 x => ⟨[dst64 x.d, src64 x.a, src64 x.b], x.c == 0 && only x.m 0xC00⟩
  | .imad64 x => ⟨[dst64 x.d, src x.a, src x.b, src64 x.c], only x.m 0x800⟩
  | .idiv x => formXL x 0x800
  | .irem x => formXL x 0x800
  | .imin x => formXL x 0x800
  | .imax x => formXL x 0x800
  | .iabs x => form1 x 0x400
  | .ineg x => form1 x 0x400
  | .isad x => form3 x 0x800
  | .iaddc x => form3 x 0xB80
  | .and x => formXL x 0
  | .or x => formXL x 0
  | .xor x => formXL x 0
  | .andn x => formXL x 0
  | .not x => form1 x 0
  | .shl x => formXL x 0x200
  | .shr x => formXL x 0x200
  | .sar x => formXL x 0x200
  | .rot x => formXL x 0
  | .fshl x => form3 x 0x200
  | .fshr x => form3 x 0x200
  | .shl64 x => ⟨[dst64 x.d, src64 x.a, src x.b], x.c == 0 && only x.m 0x200⟩
  | .shr64 x => ⟨[dst64 x.d, src64 x.a, src x.b], x.c == 0 && only x.m 0xA00⟩
  | .popc x => form1 x 0
  | .clz x => form1 x 0
  | .ctz x => form1 x 0
  | .brev x => form1 x 0
  | .bfx x => formXL x 0x800
  | .bfi x => form3 x 0
  | .prmt x => form3 x 0
  | .icmp x => formCmp x 0xBE0 (fldM x.m 7 3 ≤ 5) (fldM x.m 5 2)
  | .iset x =>
      let f := formXL x 0xB80
      ⟨f.uses, f.ok && fldM x.m 7 3 ≤ 5⟩
  | .isel x => form3 x 0
  | .pset x => form3 x 0x0FF
  | .mov x => form1 x 0
  | .movi x => ⟨[dst x.d], resv x.a⟩
  | .movk x => ⟨[dstOf 1 x.d (isK 1 x.d)], resv x.a⟩
  | .lea x => formXL x 0x300
  | .lea64 x => ⟨[dst64 x.d, src64 x.a, src x.b], x.c == 0 && only x.m 0xB00⟩
  -- floating point (R133)
  | .fadd x => formXLr x 0xFEC
  | .fsub x => formXLr x 0xFEC
  | .fmul x => formXLr x 0xFEC
  | .ffma x => form3r x 0xFFE
  | .fmin x => formXL x 0x16C
  | .fmax x => formXL x 0x16C
  | .fcmp x => formFcmp src x
  | .fset x => formFset x
  | .fsel x => form3 x 0x06C
  | .fclass x => ⟨[dst x.d, src x.a], resv x.b && fldC x.c 9 1 == 0 && only x.m 0x048⟩
  | .frnd x => form1r x 0xF48
  | .frcp x => form1r x 0x1C8
  | .frsq x => form1r x 0x1C8
  | .fsqrt x => form1r x 0xFC8
  | .fexp2 x => form1r x 0x1C8
  | .flog2 x => form1r x 0x1C8
  | .fsin x => form1r x 0x1C8
  | .fcos x => form1r x 0x1C8
  | .ftanh x => form1r x 0x1C8
  | .fdiv x => formXLr x 0xFEC
  | .fldexp x => formXLr x 0xFC8
  | .ffrexp x => ⟨[dst64 x.d, src x.a], resv x.b && x.c == 0 && only x.m 0x148⟩
  | .hadd2 x => formXLr x 0xFEC
  | .hsub2 x => formXLr x 0xFEC
  | .hmul2 x => formXLr x 0xFEC
  | .hfma2 x => form3r x 0xFFE
  | .hmin2 x => formXL x 0x16C
  | .hmax2 x => formXL x 0x16C
  | .hcmp2 x => formFset x
  | .badd2 x => formXLr x 0xFEC
  | .bsub2 x => formXLr x 0xFEC
  | .bmul2 x => formXLr x 0xFEC
  | .bfma2 x => form3r x 0xFFE
  | .bmin2 x => formXL x 0x16C
  | .bmax2 x => formXL x 0x16C
  | .bcmp2 x => formFset x
  | .ffmah x => form3r x 0xFFE
  | .ffmab x => form3r x 0xFFE
  | .dadd x => ⟨[dst64 x.d, src64 x.a, src64 x.b], x.c == 0 && only x.m 0xFEC && rndOk x.m⟩
  | .dmul x => ⟨[dst64 x.d, src64 x.a, src64 x.b], x.c == 0 && only x.m 0xFEC && rndOk x.m⟩
  | .dfma x => ⟨[dst64 x.d, src64 x.a, src64 x.b, src64 x.c], only x.m 0xFFE && rndOk x.m⟩
  | .dcmp x => formFcmp src64 x
  | .dmin x => ⟨[dst64 x.d, src64 x.a, src64 x.b], x.c == 0 && only x.m 0x16C⟩
  | .dmax x => ⟨[dst64 x.d, src64 x.a, src64 x.b], x.c == 0 && only x.m 0x16C⟩
  -- conversion, quantisation, packed dot (R151)
  | .cvt x => formCvt false x
  | .cvt64 x => formCvt true x
  | .qcvt x => formQcvt x
  | .dqcvt x => formDqcvt x
  | .pack2 x => formXL x 0
  | .pack4 x => ⟨[dst x.d, quadSrc x.a], resv x.b && x.c == 0 && x.m == 0⟩
  | .pack8 x => ⟨[dst x.d, quadSrc x.a, quadSrc x.b], x.c == 0 && x.m == 0⟩
  | .unpk2 x => ⟨[dst64 x.d, intSrc x.a], resv x.b && fldC x.c 1 9 == 0 && x.m == 0⟩
  | .unpk4 x => ⟨[spanDst 4 x.d, intSrc x.a], resv x.b && fldC x.c 1 9 == 0 && x.m == 0⟩
  | .unpk8 x => ⟨[spanDst 4 x.d, intSrc x.a], resv x.b && fldC x.c 2 8 == 0 && x.m == 0⟩
  | .scalex x => ⟨[dst x.d, src x.a], scaleType (fldC x.c 5 5) && resv x.b && fldC x.c 0 3 == 0 && only x.m 0x100⟩
  | .qblk x => ⟨[dst x.d, src x.a], scaleType (fldC x.c 5 5) && resv x.b && fldC x.c 0 4 == 0 && only x.m 0xFC8 && fldM x.m 9 3 ≤ 5⟩
  | .blkmax x =>
      if fldC x.c 9 1 == 1 then ⟨[dst x.d], resv x.a && resv x.b && fldC x.c 0 7 == 0 && only x.m 0x100⟩
      else ⟨[dst x.d, src x.a], resv x.b && fldC x.c 0 7 == 0 && only x.m 0x100⟩
  | .srseed x => ⟨[src x.a], resv x.d && resv x.b && fldC x.c 1 9 == 0 && x.m == 0⟩
  | .dot2h x => formDot x 0xFEC (x.c == 0) true true
  | .dot2b x => formDot x 0xFEC (x.c == 0) true true
  | .dot4i x => formDot x 0x080 (int8Type (fldC x.c 5 5) && int8Type (fldC x.c 0 5)) (intOnly x.a) (intOnly x.b)
  | .dot8i x => formDot x 0x080 (int4Type (fldC x.c 5 5) && int4Type (fldC x.c 0 5)) (intOnly x.a) (intOnly x.b)
  | .dot4e x => formDot x 0xF80 (narrow8Type (fldC x.c 5 5) && narrow8Type (fldC x.c 0 5))
      (constFits (fldC x.c 5 5) x.a) (constFits (fldC x.c 0 5) x.b)
  | .dot8e x => formDot x 0xF80 (fldC x.c 5 5 == 8 && fldC x.c 0 5 == 8) (constFits 8 x.a) (constFits 8 x.b)
  | .idp2 x => formDot x 0x080 (int16Type (fldC x.c 5 5) && int16Type (fldC x.c 0 5)) (intOnly x.a) (intOnly x.b)
  | .amaxclr x => ⟨[dstOf 1 x.d (isV 1 x.d || isW 1 x.d || x.d == .discard)], resv x.a && resv x.b && x.c == 0 && x.m == 0⟩
  -- cross-lane (R168)
  | .shfli x => formShfl x
  | .shfla x => formShfl x
  | .shflb x => formShfl x
  | .shflx x => formShfl x
  | .qswap x => ⟨[dst x.d, src x.a], resv x.b && fldC x.c 0 10 ≤ 2 && x.m == 0⟩
  | .qbcast x => ⟨[dst x.d, src x.a], resv x.b && fldC x.c 0 10 ≤ 3 && x.m == 0⟩
  | .vote x => ⟨[dst x.d, src x.a], resv x.b && fldC x.c 0 10 ≤ 3 && x.m == 0⟩
  | .matchLanes x => ⟨[dst x.d, if fldC x.c 1 1 == 1 then src64 x.a else src x.a], resv x.b && fldC x.c 0 10 ≤ 3 && x.m == 0⟩
  | .redux x => ⟨[dst x.d, src x.a], resv x.b && reduxOk (fldC x.c 0 4) && fldC x.c 4 6 == 0 && x.m == 0⟩
  | .reduxf x => ⟨[dst x.d, src x.a], resv x.b && fldC x.c 0 10 ≤ 2 && only x.m 0xF00 && rndOk x.m⟩
  | .scan x => ⟨[dst x.d, src x.a], resv x.b && reduxOk (fldC x.c 0 4) && fldC x.c 5 5 == 0 && x.m == 0⟩
  | .scanf x => ⟨[dst x.d, src x.a], resv x.b && fldC x.c 0 4 ≤ 2 && fldC x.c 5 5 == 0 && only x.m 0xF00 && rndOk x.m⟩
  | .segred x => ⟨[dst x.d, src x.a, src x.b], segOk (fldC x.c 0 4) x.m && fldC x.c 4 6 == 0⟩
  | .segscan x => ⟨[dst x.d, src x.a, src x.b], segOk (fldC x.c 0 4) x.m && fldC x.c 5 5 == 0⟩
  | .elect x => ⟨[dst x.d], resv x.a && resv x.b && x.c == 0 && x.m == 0⟩
  | .actmask x => ⟨[dst x.d], resv x.a && resv x.b && fldC x.c 1 9 == 0 && x.m == 0⟩
  | .bcast x => ⟨[dst x.d, src x.a], resv x.b && firstOk x.c && fldC x.c 6 4 == 0 && x.m == 0⟩
  | .kset x =>
      if fldC x.c 6 1 == 1 then ⟨[dstOf 2 x.d (isK 2 x.d), src64 x.a], resv x.b && firstOk x.c && fldC x.c 7 3 == 0 && x.m == 0⟩
      else ⟨[dstOf 1 x.d (isK 1 x.d), src x.a], resv x.b && firstOk x.c && fldC x.c 7 3 == 0 && x.m == 0⟩
  | .rank x => ⟨[dst x.d, src x.a], resv x.b && fldC x.c 1 9 == 0 && x.m == 0⟩
  | .sortg x => ⟨[dst x.d, src x.a, src x.b], fldC x.c 2 8 == 0 && x.m == 0⟩
  | .compact x => ⟨[dst x.d, src x.a, src x.b], x.c == 0 && x.m == 0⟩
  | .expand x => ⟨[dst x.d, src x.a, src x.b], x.c == 0 && x.m == 0⟩
  -- global memory (R230 to R250)
  | .ld x => formLoad x 0 4
  | .st x => formStore x 0 4
  | .ldv x => formRun (formLoad x 2 4) x
  | .stv x => formRun (formStore x 2 4) x
  -- R236 shows LDK and STZ no CH, where R57 and R235 give it to every access: any CH is taken. MODEL'S CHOICE (assumption 105).
  | .ldk x => ⟨[dstOf (szRegs x.mm) x.d (isK (szRegs x.mm) x.d), gbase x.a],
      isK 2 x.a && mmOk x.mm 2 4 [0, 1] false && fldM x.mm 0 2 == 0⟩
  | .ldnf x => formRun2 (formLoad x 0 3) (fldM x.mm 7 2 == 0)
  | .stz x => ⟨[gbase x.a], resv x.d && mmOk x.mm 0 0 [0, 2] false && fldM x.mm 0 2 == 0⟩
  | .atadd x => formAtomic x 2 3 false
  | .atmin x => formAtomic x 2 3 true
  | .atmax x => formAtomic x 2 3 true
  | .atand x => formAtomic x 2 3 false
  | .ator x => formAtomic x 2 3 false
  | .atxor x => formAtomic x 2 3 false
  | .atexch x => formAtomic x 2 3 false
  | .atcas x => formCas gbase x 2 3
  | .atinc x => formAtomic x 2 2 false
  | .atdec x => formAtomic x 2 2 false
  | .atfadd x => formAtomic x 2 3 false
  | .atfmin x => formAtomic x 2 3 false
  | .atfmax x => formAtomic x 2 3 false
  | .atcas128 x => formRun2 (formCas gbase x 4 4) (!isW 4 x.d && isV 4 x.b && isV 4 x.c)
  | .redadd x => formRed x false
  | .redmin x => formRed x true
  | .redmax x => formRed x true
  | .redfadd x => formRed x false
  | .fence x => ⟨[], resv x.d && resv x.a && x.ofs == 0 && fldM x.mm 9 3 == 0 && fldM x.mm 7 2 != 0 &&
      fldM x.mm 4 3 ≤ 4 && fldM x.mm 0 4 == 0⟩
  | .pref x => ⟨[gbase x.a], resv x.d && only x.mm 0x00C⟩
  | .cctl x => ⟨[gbase x.a], (match x.d with | .v n => n.toNat ≤ 3 | _ => false) && only x.mm 0x00C⟩
  -- scratchpad, lane slices, windows (R261, R269)
  | .lds x => formScratch x [0, 1] true
  | .sts x => formScratch x [0, 2] false
  | .ldsv x => formRun2 (formLocal x true) (isK 1 x.a && 2 ≤ fldM x.mm 9 3)
  | .stsv x => formRun2 (formLocal x false) (isK 1 x.a && 2 ≤ fldM x.mm 9 3)
  | .atsadd x => formAts x false
  | .atsmin x => formAts x true
  | .atsmax x => formAts x true
  | .atscas x => ⟨(formCas lbase x 2 3).uses, 2 ≤ fldM x.m 9 3 && fldM x.m 9 3 ≤ 3 && fldM x.m 0 4 == 0 && fldM x.m 4 3 ≤ 2⟩
  | .ldl x => formLocal x true
  | .stl x => formLocal x false
  | .wmap x => ⟨[src x.a, src x.b], isWin x.d && x.c == 0 && x.m.toNat ≤ 2⟩
  | .wunmap x => ⟨[], isWin x.d && resv x.a && resv x.b && x.c == 0 && (x.m == 0x030 || x.m == 0x040)⟩
  | .wflush x => ⟨[], isWin x.d && resv x.a && resv x.b && x.c == 0 && (x.m == 0x030 || x.m == 0x040)⟩
  | .winv x => ⟨[], isWin x.d && resv x.a && resv x.b && x.c == 0 && x.m == 0⟩
  -- pages, heap, GRESUME (R223, R236, R433)
  | .pgcommit x => ⟨[dst x.d, gbase x.a], resv x.b && x.c == 0 && x.m.toNat ≤ 1⟩
  | .pgrelease x => ⟨[dst x.d, gbase x.a], resv x.b && x.c == 0 && x.m == 0⟩
  | .pgquery x => ⟨[dst64 x.d, gbase x.a], resv x.b && x.c == 0 && x.m == 0⟩
  | .pgprot x => ⟨[dst x.d, gbase x.a, src x.b], x.c == 0 && x.m == 0⟩
  | .pgpool x => ⟨[dst x.d], resv x.a && resv x.b && x.c.toNat ≤ 3 && x.m == 0⟩
  | .halloc x => ⟨[dst64 x.d, src x.a], resv x.b && x.c == 0 && x.m == 0⟩
  | .hfree x => ⟨[dst x.d, heapVa x.a], resv x.b && x.c == 0 && x.m == 0⟩
  | .hsize x => ⟨[dst x.d, heapVa x.a], resv x.b && x.c == 0 && x.m == 0⟩
  | .gresumeReplay x => ⟨[dst x.d, vwk x.a], resv x.b && x.c == 0 && x.m == 0⟩
  | .gresumeSkip x => ⟨[dst x.d, vwk x.a, src64 x.b], x.c == 0 && x.m == 1⟩
  | .gresumeKill x => ⟨[dst x.d, vwk x.a], resv x.b && x.c == 0 && x.m == 2⟩
  -- engines (R348)
  | .cpy32 x => ⟨[spad x.a, gbase x.b, src x.c], isTg x.d && x.m.toNat ≤ 1⟩
  | .cpyb x => ⟨[spadOr (x.m == 1 || x.m == 3) x.a, spadOr (x.m == 0 || x.m == 3) x.b, src x.c], isTg x.d && x.m.toNat ≤ 3⟩
  | .cpyst x => ⟨[spad x.a, spad x.b], isTg x.d && x.c == 0 && x.m.toNat ≤ 1⟩
  | .cpywait x => ⟨[], resv x.a && resv x.b && x.c == 0 && x.m.toNat ≤ 1 && (if x.m == 1 then resv x.d else isTg x.d)⟩
  | .cpycnt x => ⟨[dst x.d], isTg x.a && resv x.b && x.c == 0 && x.m == 0⟩
  | .cpyfill x => ⟨[spadOr (x.m == 1) x.a, src x.b, src x.c], isTg x.d && x.m.toNat ≤ 1⟩
  | .cpyp x => ⟨[gbase x.a, gbase x.b, src64 x.c], isTg x.d && x.m == 0⟩
  | .gath x => ⟨[spad x.d, spadOr (fldM x.m 8 1 == 0) x.a, src x.b], x.c == 0 && only x.m 0xF80 && fldM x.m 9 3 ≤ 3⟩
  | .scat x => ⟨[spad x.d, spadOr (fldM x.m 8 1 == 0) x.a, src x.b], x.c == 0 && only x.m 0xFE0 && fldM x.m 9 3 ≤ 3 &&
      fldM x.m 5 2 ≤ 2 && (fldM x.m 5 2 == 0 || 2 ≤ fldM x.m 9 3)⟩
  | .gathbm x => ⟨[spad x.d, spadOr (fldM x.m 8 1 == 0) x.a, src x.c], resv x.b && only x.m 0xF00 && fldM x.m 9 3 ≤ 2⟩
  | .mtwait x => ⟨[], allResv x⟩
  | .tfetch x => ⟨[gbase x.a, src x.b, src x.c], isOb x.d && x.m == 0⟩
  | .tfrel x => ⟨[], isOb x.d && resv x.a && resv x.b && x.c == 0 && x.m == 0⟩
  -- matrix (R312), counters (R413, R417, R420)
  | .obrsv x => ⟨[src x.a], isOb x.d && resv x.b && x.c == 0 && x.m == 0⟩
  | .obrel x => ⟨[], isOb x.d && resv x.a && resv x.b && x.c == 0 && x.m == 0⟩
  | .obldS x => ⟨[src x.a, src x.b, src x.c], isOb x.d && x.m == 0⟩
  | .obldR x => ⟨[src x.a, src x.b], isOb x.d && resv x.c && x.m == 1⟩
  | .cvdecl x => ⟨[srcOf 1 x.a (match x.a with | .v _ | .w _ | .k _ | .const _ => true | _ => false)],
      isCv x.d && resv x.b && x.c == 0 && x.m == 0⟩
  | .mma x => ⟨[], isAcc x.d && isOb x.a && isOb x.b && (isCv x.c || x.c == .discard) && only x.m 0x8FF⟩
  | .mmas x => ⟨[], isAcc x.d && isOb x.a && isOb x.b && (isCv x.c || x.c == .discard) && only x.m 0x8FF⟩
  | .accinitZero x => ⟨[], isAcc x.d && resv x.a && resv x.b && x.c == 0 && x.m == 0⟩
  | .accinitLd x => ⟨[src x.a], isAcc x.d && resv x.b && x.c == 0 && x.m == 1⟩
  | .accrd x =>
      let n := if fldM x.m 1 1 == 1 then 2 else 1
      ⟨[dstOf n x.d (isV n x.d || isW n x.d), src x.b], isAcc x.a && x.c == 0 && x.m.toNat ≤ 2⟩
  | .mdrainS x => ⟨[src x.a], isAcc x.d && resv x.b && x.c == 0 && only x.m 0x006⟩
  | .mdrainC x => ⟨[], isAcc x.d && resv x.a && resv x.b && x.c == 0 && only x.m 0x007 && fldM x.m 0 1 == 1⟩
  | .mwait x => ⟨[], resv x.a && resv x.b && x.c == 0 && x.m.toNat ≤ 1 && (if x.m == 1 then resv x.d else isAcc x.d)⟩
  | .barSync x => formBar x 0
  | .barArrive x => formBar x 1
  | .gbarSync x => ⟨[], isGb x.d && resv x.a && resv x.b && x.c == 0 && x.m == 0⟩
  | .gbarArrive x => ⟨[], isGb x.d && resv x.a && resv x.b && x.c == 0 && x.m == 1⟩
  -- REGROUP (R376), placement (R399)
  | .regroup x => ⟨[srcOf 1 x.a (isV 1 x.a || isW 1 x.a)], guardAlways x.g && resv x.d && resv x.b && x.c == 0 &&
      1 ≤ x.m.toNat && x.m.toNat ≤ 32⟩
  | .regroupb x => ⟨[], guardAlways x.g && allResv x⟩
  | .fxload x => ⟨[vwDst x.d, gbase x.a], resv x.b && x.c == 0 && x.m.toNat ≤ 3⟩
  | .fxrun x => ⟨[], resv x.d && resv x.a && resv x.b && x.c == 0 && x.m.toNat ≤ 3⟩
  | .fxwait x => ⟨[vwDst x.d], resv x.a && resv x.b && x.c == 0 && x.m.toNat ≤ 3⟩
  | .fxparam x => ⟨[srcOf 1 x.a (isV 1 x.a || isW 1 x.a)], resv x.d && resv x.b && x.c == 0 && only x.m 0x7FF⟩
  | .fxdrop x => ⟨[], resv x.d && resv x.a && resv x.b && x.c == 0 && x.m.toNat ≤ 3⟩
  | .damp x =>
      if x.m == 1 then ⟨[vwDst x.d, srcOf 1 x.a (match x.a with | .v _ | .w _ | .k _ | .const _ => true | _ => false)],
        resv x.b && x.c == 0⟩
      else ⟨[vwDst x.d], resv x.a && resv x.b && x.c == 0 && x.m == 0⟩
  -- element words (R63)
  | .elemNop x => ⟨[], slotWordOk 0x00 x⟩
  | .elemMov x => ⟨[], slotWordOk 0x01 x⟩
  | .elemAdd x => ⟨[], slotWordOk 0x02 x⟩
  | .elemSub x => ⟨[], slotWordOk 0x03 x⟩
  | .elemMul x => ⟨[], slotWordOk 0x04 x⟩
  | .elemMulh x => ⟨[], slotWordOk 0x05 x⟩
  | .elemMad x => ⟨[], slotWordOk 0x06 x⟩
  | .elemMin x => ⟨[], slotWordOk 0x07 x⟩
  | .elemMax x => ⟨[], slotWordOk 0x08 x⟩
  | .elemAnd x => ⟨[], slotWordOk 0x09 x⟩
  | .elemOr x => ⟨[], slotWordOk 0x0A x⟩
  | .elemXor x => ⟨[], slotWordOk 0x0B x⟩
  | .elemAndn x => ⟨[], slotWordOk 0x0C x⟩
  | .elemNot x => ⟨[], slotWordOk 0x0D x⟩
  | .elemShl x => ⟨[], slotWordOk 0x0E x⟩
  | .elemShr x => ⟨[], slotWordOk 0x0F x⟩
  | .elemSar x => ⟨[], slotWordOk 0x10 x⟩
  | .elemPopc x => ⟨[], slotWordOk 0x11 x⟩
  | .elemClz x => ⟨[], slotWordOk 0x12 x⟩
  | .elemSel x => ⟨[], slotWordOk 0x13 x⟩
  | .elemFadd x => ⟨[], slotWordOk 0x14 x⟩
  | .elemFsub x => ⟨[], slotWordOk 0x15 x⟩
  | .elemFmul x => ⟨[], slotWordOk 0x16 x⟩
  | .elemFfma x => ⟨[], slotWordOk 0x17 x⟩
  | .elemFmin x => ⟨[], slotWordOk 0x18 x⟩
  | .elemFmax x => ⟨[], slotWordOk 0x19 x⟩
  | .elemFtoi x => ⟨[], slotWordOk 0x1A x⟩
  | .elemItof x => ⟨[], slotWordOk 0x1B x⟩
  | .elemCeq x => ⟨[], slotWordOk 0x1C x⟩
  | .elemCne x => ⟨[], slotWordOk 0x1D x⟩
  | .elemClt x => ⟨[], slotWordOk 0x1E x⟩
  | .elemCle x => ⟨[], slotWordOk 0x1F x⟩
  | .elemCltn x => ⟨[], slotWordOk 0x20 x⟩
  | .elemClen x => ⟨[], slotWordOk 0x21 x⟩
  | .elemFclt x => ⟨[], slotWordOk 0x22 x⟩
  | .elemFcle x => ⟨[], slotWordOk 0x23 x⟩
  | .elemFceq x => ⟨[], slotWordOk 0x24 x⟩
  | .elemFcne x => ⟨[], slotWordOk 0x25 x⟩
  | .elemPset x => ⟨[], slotWordOk 0x26 x⟩
  | .elemPclr x => ⟨[], slotWordOk 0x27 x⟩
  | .elemPand x => ⟨[], slotWordOk 0x28 x⟩
  | .elemPor x => ⟨[], slotWordOk 0x29 x⟩
  | .elemPnot x => ⟨[], slotWordOk 0x2A x⟩
  | .elemSteer x => ⟨[], slotWordOk 0x2B x⟩
  | .elemMerge x => ⟨[], slotWordOk 0x2C x⟩
  | .elemMergeu x => ⟨[], slotWordOk 0x2D x⟩
  | .elemDrop x => ⟨[], slotWordOk 0x2E x⟩
  | .elemEmit x => ⟨[], slotWordOk 0x2F x⟩
  | .elemDeq x => ⟨[], slotWordOk 0x30 x⟩
  | .elemSclatch x => ⟨[], slotWordOk 0x31 x⟩
  | .elemQuant x => ⟨[], slotWordOk 0x32 x⟩
  | .elemAmaxr x => ⟨[], slotWordOk 0x33 x⟩
  | .elemCnt x => ⟨[], slotWordOk 0x34 x⟩
  | .elemAcc x => ⟨[], slotWordOk 0x35 x⟩
  | .elemAccrel x => ⟨[], slotWordOk 0x36 x⟩
  | .elemLsel x => ⟨[], slotWordOk 0x37 x⟩
  -- operations and events of the device have no word
  | .commandFetch => ⟨[], true⟩
  | .launch _ => ⟨[], true⟩
  | .copy _ => ⟨[], true⟩
  | .signalSet _ => ⟨[], true⟩
  | .signalAdd _ => ⟨[], true⟩
  | .wait _ => ⟨[], true⟩
  | .barrierAnd _ => ⟨[], true⟩
  | .placePreload _ => ⟨[], true⟩
  | .queueDestroy _ => ⟨[], true⟩
  | .queueDestroyForce _ => ⟨[], true⟩
  | .journalMark _ => ⟨[], true⟩
  | .waitReread _ => ⟨[], true⟩
  | .waitTimeout _ => ⟨[], true⟩
  | .gridRetire _ => ⟨[], true⟩
  | .copyRetire _ => ⟨[], true⟩
  | .preloadRetire _ => ⟨[], true⟩
  | .doorbell _ _ => ⟨[], true⟩
  | .qctlCreate _ _ => ⟨[], true⟩
  | .qctlReadRidx _ _ => ⟨[], true⟩
  | .qctlDestroy _ _ => ⟨[], true⟩
  | .qctlDestroyForce _ _ => ⟨[], true⟩
  | .asctlCreate _ _ => ⟨[], true⟩
  | .asctlUpdate _ _ => ⟨[], true⟩
  | .asctlDestroy _ _ => ⟨[], true⟩
  | .pooladd _ _ => ⟨[], true⟩
  | .tlbinv _ _ => ⟨[], true⟩
  | .tlbinvComplete _ => ⟨[], true⟩
  | .fresumeReplay _ _ => ⟨[], true⟩
  | .fresumeSkip _ _ _ => ⟨[], true⟩
  | .fresumeKill _ _ => ⟨[], true⟩
  | .preemptGrid _ _ => ⟨[], true⟩
  | .preemptBlock _ _ => ⟨[], true⟩
  | .pwrbudget _ _ => ⟨[], true⟩
  | .csaadd _ _ => ⟨[], true⟩
  | .fqrWrite _ _ => ⟨[], true⟩
  | .fqbaseWrite _ _ => ⟨[], true⟩
  | .dbgctlWrite _ _ => ⟨[], true⟩
  | .dbgbpWrite _ _ _ => ⟨[], true⟩
  | .dbgcmdHalt _ _ _ => ⟨[], true⟩
  | .dbgcmdResume _ _ _ => ⟨[], true⟩
  | .dbgcmdStep _ _ _ => ⟨[], true⟩
  | .registerWrite _ _ _ => ⟨[], true⟩
  | .blockPlace _ _ _ => ⟨[], true⟩
  | .stealMessage _ _ _ => ⟨[], true⟩
  | .stealReply _ => ⟨[], true⟩
  | .blockRetire _ _ => ⟨[], true⟩
  | .loadReturn _ _ => ⟨[], true⟩
  | .writePerform _ => ⟨[], true⟩
  | .translationResponse _ _ _ => ⟨[], true⟩
  | .walkComplete _ _ _ => ⟨[], true⟩
  | .coherenceRead _ _ => ⟨[], true⟩
  | .coherenceReadForWrite _ _ => ⟨[], true⟩
  | .coherenceEvict _ _ => ⟨[], true⟩
  | .homeAtomic _ _ => ⟨[], true⟩
  | .windowNotice _ => ⟨[], true⟩
  | .homeAnswerTimeout _ _ => ⟨[], true⟩
  | .patrolScrub _ => ⟨[], true⟩
  | .eccError _ => ⟨[], true⟩
  | .copyComplete _ _ => ⟨[], true⟩
  | .enginePieceFault _ _ => ⟨[], true⟩
  | .tileComplete _ _ => ⟨[], true⟩
  | .matrixEntryComplete _ _ => ⟨[], true⟩
  | .mmaRoundStart _ => ⟨[], true⟩
  | .drainToken _ => ⟨[], true⟩
  | .regroupShuffle _ _ => ⟨[], true⟩
  | .placerComplete _ => ⟨[], true⟩
  | .handOver _ _ => ⟨[], true⟩
  | .iterationAdmit _ _ => ⟨[], true⟩
  | .iterationCommit _ _ => ⟨[], true⟩
  | .memoryNodeAccess _ _ => ⟨[], true⟩
  | .loopExit _ _ => ⟨[], true⟩
  | .loopDamp _ _ _ => ⟨[], true⟩
  | .liveoutWriteback _ _ => ⟨[], true⟩
  | .channelTokenArrive _ _ => ⟨[], true⟩
  | .streamToken _ _ => ⟨[], true⟩
  | .streamRound _ _ => ⟨[], true⟩
  | .regionDone _ _ => ⟨[], true⟩
  | .carillonStarve _ _ _ => ⟨[], true⟩
  | .probeSend _ _ _ => ⟨[], true⟩
  | .probeForward _ => ⟨[], true⟩
  | .countToken _ _ => ⟨[], true⟩
  | .preemptArrive _ _ => ⟨[], true⟩
  | .preemptDeadline _ _ => ⟨[], true⟩
  | .blockSave _ _ => ⟨[], true⟩
  | .blockRestore _ _ _ => ⟨[], true⟩
  | .dbgbpMatch _ _ => ⟨[], true⟩
  | .groupHalt _ _ => ⟨[], true⟩
  | .codePageVerify _ _ _ => ⟨[], true⟩
  | .reset => ⟨[], true⟩
  | .serviceReduced _ => ⟨[], true⟩
  | .serviceFull _ => ⟨[], true⟩
  | .partitionSetup _ _ => ⟨[], true⟩
  | .linkTrain _ _ _ => ⟨[], true⟩
  | .linkDown _ => ⟨[], true⟩
  | .attestationRequest _ _ => ⟨[], true⟩
  | .unassignedOp _ => ⟨[], true⟩
  | .kitEntersRetention _ => ⟨[], true⟩
  | .codeObjectLoad _ _ _ _ => ⟨[], true⟩
  | .codeObjectUnload _ _ => ⟨[], true⟩
  | .debuggerRegisterWrite _ _ _ _ _ _ => ⟨[], true⟩
  | .fxloadLoadEnd _ _ _ => ⟨[], true⟩
  | .peerOrHostAccess _ => ⟨[], true⟩

/-- Whether an instruction's fields are all legal (R60 check 1, apart from the block's `.regs`). -/
def legal (i : Instr) : Bool := (form i).ok && (form i).uses.all (·.ok)

end Sys2Proof.Machine
end

