-- ==== Sys2Proof/Config.lean ====
section
/-!
DEFINITION. What an implementation fixes and what the spec leaves open. Every opaque constant is a free value:
nothing constrains it, and a statement about it holds whatever it is.
-/

namespace Sys2Proof.Config

/-- Device memory of a die in bytes: 2 stacks of 48 GiB (R6, R9, R211). -/
def dieBytes : Nat := 2 * 48 * 2 ^ 30
/-- Size of the local array of a core (R257). -/
def localArrayBytes : Nat := 393216
/-- Group slots of a core (R9, R23). -/
def groupSlots : Nat := 40
/-- Cores of a die (R9). -/
def coresPerDie : Nat := 256

/-- Whose turn it is (assumption 1). -/
inductive Turn where
  /-- the front end of a core issues one word -/
  | issue (core : Nat)
  /-- an element of a core fires at most one slot -/
  | element (core elem : Nat)
  /-- an operation or event of the device -/
  | event (i : Instr)
deriving DecidableEq, Repr, Inhabited

/-- FREE VALUE. Whose turn is next when the list of turns is empty, by the count of free values taken (R10: no figure of timing
may be relied on; R28 orders only the groups of one core). -/
opaque freeTurn : Nat → Turn

/-- FREE VALUE. Results of the SFU functions that no special case of R143 fixes: function code, input bits, M field
(R144: a fixed function of the input bits and the M field). -/
opaque sfu : Nat → BitVec 32 → BitVec 12 → BitVec 32

/-- FREE VALUE. The image that the placer computes for a loop, as its bytes; none where the body does not fit
(R38, R40: the placer's choice of elements is not given). -/
opaque placerImage : (objid head layhash k : Nat) → List (BitVec 64) → Option (List (BitVec 8))

/-- FREE VALUE. The input channels of a captured-loop image that its loop feeds, as X, Y, channel and what: 0 for the token that enters with
each iteration (R41), n + 1 for the sticky token of uniform register k n (R37). R390 to R396 give the image no field for them. -/
opaque placerEntry : List (BitVec 8) → List (Nat × Nat × Nat × Nat)

/-- How many element slots of a copy fire for one iteration of the loop at a head; the placer's choice of slots decides it (R38, R426). -/
opaque capturedFirings : (head iteration : Nat) → Nat

/-- FREE VALUE. SHA-384 (R386, R387 name the standard and do not give it). -/
opaque sha384 : List (BitVec 8) → List (BitVec 8)

/-- FREE VALUE. Whether a signature verifies on brainpoolP384r1 (R386, R458). -/
opaque ecdsaOk : (digest signature : List (BitVec 8)) → Bool

/-- FREE VALUE. The bytes the security engine signs an attestation report with (R459). -/
opaque attestSign : List (BitVec 8) → List (BitVec 8)

/-- FREE VALUE. Which of several allowed choices a unit makes, at one count of choices. -/
opaque freeChoice : Nat → Nat

/-- FREE VALUE. Whether a translation that the host serves (TGT 01) has its answer at once; tick, PASID and address
(R232, R447: a translation that waits on the host is latency). -/
opaque hostReady : Nat → Nat → Nat → Bool

/-- FREE VALUE. What the FAULTID of a record of KIND 3, 4 or 5 holds beside the die, core and GEN that R338 places in it; by the count of
free values taken. -/
opaque freeFaultId : Nat → BitVec 32

/-- FREE VALUE. What a released frame holds, as a natural of 65,536 bytes (R226: the contents are lost); by the count of free values
taken. -/
opaque lostFrame : Nat → Nat

/-- FREE VALUE. The code of a field of a save area whose codes R441 does not give: field and value. -/
opaque areaCode : (field value : Nat) → BitVec 8

/-- FREE VALUE. A padding byte between two sections of a save area, which R441 gives no value (assumption 16); by the count of free values taken,
section and offset. -/
opaque areaByte : (tick section_ offset : Nat) → BitVec 8

/-- FREE VALUE. Whether the firmware and the manifest pass their check at the end of a reset (R453, R458). -/
opaque bootOk : Nat → Bool

/-- FREE VALUE. How many words, modulo 5, an instruction buffer holds (R438: its places are 4); by the count of free values taken, core and
slot. -/
opaque bufferedWords : (tick core slot : Nat) → Nat

/-- FREE VALUE. One less than the limit of a memory node's outstanding requests (R368 gives no number). -/
opaque nodeLimit : Nat

/-- FREE VALUE. The Gwynryn link that leads to a peer (R455 gives no routes). -/
opaque peerLink : Nat → Nat

/-- The partition to which management assigns virtual function `vf`, if any, and the queues and address spaces of that partition that it
assigns to it: the spec names the assignment and gives it no register (R447, assumption 55). -/
opaque vfPart : (vf : Nat) → Option Nat
opaque vfQueue : (vf queue : Nat) → Bool
opaque vfSpace : (vf asid : Nat) → Bool

/-- FREE VALUE. The VA of the resolver stub that a load writes into linkage entries (R388, R389). -/
opaque resolverStub : Nat → BitVec 64

/-- FREE VALUE. The digests of the firmware and of the manifest (R459). -/
opaque firmwareDigest : List (BitVec 8)
/-- FREE VALUE. The digest of the manifest. -/
opaque manifestDigest : List (BitVec 8)

end Sys2Proof.Config
end

