-- ==== Sys2Proof/Machine/State.lean ====
section
/-!
DEFINITION. State as plain data: every piece of state the spec gives the machine (the inventories R74, R182, R211,
R305, R324, R341, R372, R412, R428), the reasons a step can stop, and the machine right after reset.
-/

namespace Sys2Proof.Machine

/-! ## Groups -/

/-- Why a group is WAITING (R27). -/
inductive WaitWhy where
  | bar (n : Nat)
  | gbar (n : Nat)
  /-- CPYWAIT waits for a set of tags (R352) -/
  | cpywait (tags : Byte)
  | mtwait
  /-- queue entries that MWAIT still awaits, and convergence registers whose rounds it awaits (R322) -/
  | mwait (ids cvs : List Nat)
  /-- FXWAIT waits for a region -/
  | fxwait (rgn : Nat)
  /-- JOIN has issued and the word at its new PC is not yet fetched (R84) -/
  | join
  | regroup
  /-- an access waits on a translation that the host serves: lanes and addresses (R232); lane 32 stands for the fetch -/
  | translation (lanes : List (Nat × Nat))
  /-- a load or atomic of host or peer memory waits for its reply (R293, R339) -/
  | reply
deriving DecidableEq, Repr, Inhabited

/-- STATE of a group table entry (R373). -/
inductive GState where
  | free
  | reserved
  | running
  | waiting (why : WaitWhy)
  | suspended (fid : Word)
  | streaming
  | halted
  | ended
deriving DecidableEq, Repr, Inhabited

/-- An entry of the reconvergence stack: `rcv` marks a reconvergence entry, otherwise a pending entry (R30, R74). -/
structure StackEntry where
  rcv : Bool
  pc : Dword
  mask : Mask
deriving DecidableEq, Repr, Inhabited

/-- A suspension record: the FAULTID, the faulted PC and the cause (R428, R431). -/
structure Susp where
  fid : Word
  pc : Dword
  cause : Nat
  sub : Nat
  addr : Dword
  lmask : Mask
  detail : Dword := 0
  /-- SEQ of the fault record, 0 until the record stands in the ring (R341) -/
  seq : Dword := 0
deriving DecidableEq, Repr, Inhabited

/-- A group table entry with its registers and those of the threads in its lanes (R74, R373). Register files are
sparse: v and w are keyed by 32 × register + lane, p by register, y, AMAX, SRSEED and RKEY by lane. -/
structure Group where
  st : GState := .free
  blk : Nat := 0
  home : Option Nat := none
  age : Nat := 0
  skip : Nat := 0
  pc : Dword := 0
  m : Mask := 0
  exitm : Mask := 0
  /-- top first -/
  stack : List StackEntry := []
  loopH : Dword := 0
  loopCount : Word := 0
  armPoint : Word := 0
  hintT : Byte := 0
  hintValid : Bool := false
  hintHead : Dword := 0
  v : SMap Word := []
  w : SMap Word := []
  p : SMap Mask := []
  k : SMap Word := []
  y0 : SMap Word := []
  y1 : SMap Word := []
  y0v : Bool := false
  y1v : Bool := false
  loopcfg : Word := 0x308
  trapbase : Dword := 0
  trapN : Word := 0
  trapRet : Dword := 0
  /-- FAULTINFO words 0 to 5 -/
  faultinfo : SMap Word := []
  clockhi : Word := 0
  rkmix : Bool := false
  amax : SMap Word := []
  srseed : SMap Half := []
  rkey : SMap Word := []
  tg : SMap Half := []
  mtc : Byte := 0
  /-- fault count of the slot (R428) -/
  faults : Byte := 0
  susp : Option Susp := none
  /-- home thread index plus 1 of the thread in each lane; 0 where the lane is vacant (R19, R375) -/
  tids : SMap Nat := []
  /-- the host has answered the access that its word waits on, and has refused these 64 KiB pages: the word, which has issued already, goes on
  from its checks (R232, R440) -/
  answer : Option (List Nat) := none
  /-- the pages that the host has refused to the word under way -/
  refused : List Nat := []
  /-- FXPARAM waits for space: 1 plus the octet it sends next, or 0 (R402) -/
  fxOct : Nat := 0
  /-- the region that it waits for -/
  fxRgn : Nat := 0
  /-- the wait of an FXWAIT or FXPARAM has ended, with this status of its region (R403, R411) -/
  fxEnd : Option Nat := none
  /-- a halt has been asked for and waits for earlier words (R443) -/
  haltReq : Bool := false
  /-- issue one word and halt again (R443) -/
  stepReq : Bool := false
  /-- the breakpoint at the present PC has been taken and the debugger has resumed past it -/
  bpPast : Bool := false
  /-- the words of a quarantined object that the instruction buffer still holds, each with its PC (R438) -/
  ibuf : List (Nat × Dword) := []
  /-- the loop was barred: its lookup hit an unplaceable mark (R38) -/
  barred : Bool := false
  /-- regions whose load this group has begun, and the operand that holds the load's status: a read of it waits for the end (R400) -/
  loads : List (Nat × Opnd) := []
  /-- the writes of the window flush at its PC are out (R271) -/
  flushing : Bool := false
  /-- tags under which a CPYP has been issued since they were last waited for (R346) -/
  peerTags : Byte := 0
  /-- the damp record that the group's last damp wrote: H, b and the trigger. R46 names the record and gives it no place and no
  number; the model keeps the last one here. MODEL'S CHOICE (assumption 84). -/
  dampRec : Option (Dword × Word × DampWhy) := none
deriving DecidableEq, Repr, Inhabited

/-! ## Blocks -/

/-- The kernel descriptor (R70). -/
structure KDesc where
  va : Dword := 0
  entry : Dword := 0
  regs : Nat := 0
  block : Nat := 0
  gang : Nat := 0
  headroom : Nat := 0
  shares : Nat := 0
  scratch : Nat := 0
  l1slice : Nat := 0
  reducedOk : Bool := false
  lane : Nat := 0
  argsize : Nat := 0
  /-- CRC-32 of the 32 bytes, the register-layout hash (R406) -/
  layhash : Nat := 0
deriving DecidableEq, Repr, Inhabited

/-- An entry of the thread map (R375). -/
structure ThreadPos where
  live : Bool := false
  slot : Nat := 0
  lane : Nat := 0
deriving DecidableEq, Repr, Inhabited

/-- The rendezvous of REGROUP and REGROUPB (R374, R377). -/
structure Rdv where
  pc : Dword
  back : Bool
  key : Opnd
  bits : Nat
  arrived : List Nat
deriving DecidableEq, Repr, Inhabited

/-- A convergence register (R412, R317). -/
structure Cv where
  decl : Nat := 0
  signers : List Nat := []
  sparse : Bool := false
  d : Nat := 0
  a : Nat := 0
  b : Nat := 0
  m : BitVec 12 := 0
deriving DecidableEq, Repr, Inhabited

/-- A gang arrival set of a block (R412, R418): a name and the home threads that have arrived. -/
structure GangSet where
  name : Nat
  arrived : List Nat
  waiters : List Nat
  /-- the block has arrived and waits for a record or for the other blocks -/
  full : Bool
deriving DecidableEq, Repr, Inhabited

/-- A pre-emption that has reached the block (R439, R440): its deadline, the save area taken for the block or its gang, where in it the
block's own area lies, and whether the deadline has expired. -/
structure Preempt where
  deadline : Nat
  area : Nat
  size : Nat
  ofs : Nat
  own : Nat
  expired : Bool
deriving DecidableEq, Repr, Inhabited

/-- A block table entry and the state of the block (R374, R412). -/
structure Block where
  /-- linear block index b -/
  b : Nat := 0
  cmd : Nat := 0
  gridseq : Nat := 0
  part : Nat := 0
  asid : Nat := 0
  kd : KDesc := {}
  arg : Dword := 0
  bx : Nat := 1
  by_ : Nat := 1
  bz : Nat := 1
  gx : Nat := 1
  gy : Nat := 1
  gz : Nat := 1
  /-- blocks of the gang; 1 in an ordinary launch -/
  gangSize : Nat := 1
  gangLaunch : Bool := false
  /-- start order (R28) -/
  order : Nat := 0
  /-- groups at launch N and headroom H -/
  n : Nat := 0
  h : Nat := 0
  hslot : List Nat := []
  slots : List Nat := []
  ngrp : Nat := 0
  regrouped : Bool := false
  rdv : Option Rdv := none
  sbase : Nat := 0
  lbase : Nat := 0
  /-- thread map, keyed by home thread -/
  threads : SMap ThreadPos := []
  bph : BitVec 128 := 0
  gph : BitVec 16 := 0
  gsets : List GangSet := []
  cvs : SMap Cv := []
  satn : Nat := 0
  nann : Nat := 0
  skipn : Nat := 0
  /-- count tokens not yet at their counters: 0 SATN, 1 NANN, 2 SKIPN, and the count (R423) -/
  tokens : List (Nat × Nat) := []
  flushHold : Option Susp := none
  preempt : Option Preempt := none
deriving DecidableEq, Repr, Inhabited

/-! ## Core tables -/

/-- A named barrier record (R412). -/
structure BarRec where
  blk : Nat
  name : Nat
  explicit : Bool
  expect : Nat
  arrived : List Nat
  waiters : List Nat
deriving DecidableEq, Repr, Inhabited

/-- A window table entry (R384). Mode: 0 RO, 1 RW, 2 WO. -/
structure Window where
  blk : Nat
  name : Nat
  mode : Nat
  sb : Nat
  size : Nat
  va : Dword
  e0 : Nat
  e1 : Nat
  e2 : Nat
  lesz : Nat
  s1 : Int
  s2 : Int
  wid : Nat
deriving DecidableEq, Repr, Inhabited

/-- The marks of one scratchpad word, and the key of the global word it was filled from, plus 1 (R267, R268). -/
structure Marks where
  v : Bool := false
  d : Bool := false
  be : BitVec 4 := 0
  src : Nat := 0
  /-- the flushes that have written the word back and have not ended, with no store to it since: slots of groups, or 64 for the flush of a
  leaving block (R271, R274) -/
  f : List Nat := []
deriving DecidableEq, Repr, Inhabited

/-- A reservation of the operand buffer (R305, R306). -/
structure Resv where
  blk : Nat
  name : Nat
  off : Nat
  len : Nat
  fmt : Nat
  scaled : Bool
  sparse : Bool
  rows : Nat
  klen : Nat
  sofs : Nat
  /-- lines that TFETCH has pinned for this handle (R357) -/
  pinned : List Nat
deriving DecidableEq, Repr, Inhabited

/-- Where a range of an engine or matrix operand starts: an offset of the block's scratchpad allocation, one of the allocation of block `b`
of its gang (R259, R310), a global address that is translated when the engine reaches it, a byte of memory by its key, bytes that read as
zero, or a repeated pattern (R344, R350). -/
inductive EAddr where
  | sp (off : Nat)
  | far (b off : Nat)
  | gl (va : Nat)
  | mem (key : Nat)
  | zero
  | fill (w : Word)
deriving DecidableEq, Repr, Inhabited

/-- What a matrix queue entry does (R309). -/
inductive MatWork where
  | obldS (ob addr off n : Nat) (src : EAddr)
  | obldR (ob off : Nat) (lanes : List (Nat × Word))
  | tfetch (ob off n va : Nat) (src : List (EAddr × Nat))
  | tfrel (ob : Nat)
  | accZero (t : Nat)
  | accLd (t : Nat) (src : EAddr)
  | mma (sparse : Bool) (t a b : Nat) (m : BitVec 12)
  | drainS (t : Nat) (dst : EAddr) (clr rel : Bool)
  | drainC (t : Nat) (clr rel : Bool)
deriving DecidableEq, Repr, Inhabited

/-- A matrix queue entry: the groups it is pending for, and whether an MMA round has started, and at which rate
(R309, R13). -/
structure MatEntry where
  id : Nat
  blk : Nat
  signers : List Nat
  work : MatWork
  started : Bool
  half : Bool
deriving DecidableEq, Repr, Inhabited

/-- A shape record (R266, R351). -/
structure Shape where
  va : Dword := 0
  e0 : Nat := 0
  e1 : Nat := 0
  e2 : Nat := 0
  lesz : Nat := 0
  s1 : Int := 0
  s2 : Int := 0
deriving DecidableEq, Repr, Inhabited

/-- A copy engine operation: one lane of a CPY32, or another copy form (R341, R343, R345). Its bytes are the ranges that it reads, in
order, and the ranges that it writes. -/
structure CopyOp where
  id : Nat
  /-- the instruction that issued it: the first id of its lanes -/
  inst : Nat
  blk : Nat
  slot : Nat
  tag : Nat
  pc : Dword
  reads : List (EAddr × Nat)
  writes : List (EAddr × Nat)
  /-- CPYP: peer reach -/
  peer : Bool
  /-- bytes already performed, in ascending pieces of 256 (R345) -/
  done : Nat
  susp : Option Susp
deriving DecidableEq, Repr, Inhabited

/-- What a memory tile does with the bytes it reads (R354, R355): store them, add them one lane at a time, or expand a sparse slot. -/
inductive TileKind where
  | move
  | add (n : Nat) (float : Bool)
  | expand (addr klen n nz : Nat)
deriving DecidableEq, Repr, Inhabited

/-- A memory tile request (R341, R353). -/
structure TileOp where
  id : Nat
  blk : Nat
  slot : Nat
  tile : Nat
  reads : List (EAddr × Nat)
  writes : List (EAddr × Nat)
  kind : TileKind
deriving DecidableEq, Repr, Inhabited

/-- What a request of host or peer memory does. Lanes are paired with the key of memory, or none where the lane receives 0;
an atomic's lanes carry operand and compare value, and its old values once it has performed (R293, R284, R230). -/
inductive ReqWork where
  | load (d : Opnd) (mm : BitVec 12) (lanes : List (Nat × Option Nat)) (status : Mask)
  | call (lnk : Opnd) (lanes : List (Nat × Option Nat))
  | atomic (op : Nat) (signed : Bool) (d : Opnd) (mm : BitVec 12) (lanes : List (Nat × Option Nat × Nat × Nat))
      (olds : Option (List (Nat × Nat)))
deriving DecidableEq, Repr, Inhabited

/-- A load or atomic of host or peer memory that has been sent and whose reply has not arrived (R293, R339): the generation
it carries, the group, and the guard and ACT of its word. -/
structure Request where
  id : Nat
  gen : Byte
  slot : Nat
  blk : Nat
  x : Guard
  act : Mask
  work : ReqWork
deriving DecidableEq, Repr, Inhabited

/-- A placement cache entry: its key, and an image or an unplaceable mark (R38, R406). -/
structure CacheEntry where
  objid : Nat
  headofs : Nat
  layhash : Nat
  k : Nat
  image : Option (List Byte)
  used : Nat
deriving DecidableEq, Repr, Inhabited

/-- A placer request (R38). -/
structure PlaceReq where
  slot : Nat
  objid : Nat
  headofs : Nat
  layhash : Nat
  k : Nat
deriving DecidableEq, Repr, Inhabited

/-! ## Carillon -/

/-- A token: header and eight lanes (R360). -/
structure Token where
  hdr : Word
  pay : List Word
deriving DecidableEq, Repr, Inhabited

/-- An input channel of an element (R182, R184, R362, R369). -/
structure Channel where
  /-- oldest first -/
  q : List Token := []
  depth : Nat := 4
  srl : Nat := 0
  sct : Nat := 0
  timer : Nat := 0
deriving DecidableEq, Repr, Inhabited

/-- A trigger context of an element (R182). d is keyed by 8 × register + lane, ep by predicate, ACCV by lane. -/
structure Ctx where
  d : SMap Word := []
  ep : SMap Byte := []
  hdr : Word := 0
  accmode : Half := 0
  accv : SMap Word := []
  ecnt : Nat := 0
  ardy : Bool := false
  ahdr : Word := 0
  amx : Word := 0
  tcnt : Nat := 0
  ccnt : Word := 0
deriving DecidableEq, Repr, Inhabited

/-- An element (R182). Slot words default to the empty-slot word of R64. -/
structure Element where
  slots : SMap Word := []
  ctxmap : Word := 0
  lits : SMap Word := []
  chans : SMap Channel := []
  routes : SMap Half := []
  ptr : Nat := 3
  mlast : BitVec 16 := 0xFFFF
  /-- watchdog n, or 0 for disabled -/
  wdog : Nat := 0
  wcount : SMap Nat := []
  ctxs : SMap Ctx := []
  commut : BitVec 4 := 0
  /-- index of the placed image that holds the element, plus 1; 0 when free -/
  owner : Nat := 0
deriving DecidableEq, Repr, Inhabited

/-- What a core held at a moment: its scratchpad, its lane slices and its window marks. -/
structure LocalMoment where
  scratch : SMap Byte
  laneMem : SMap Byte
  marks : SMap Marks
deriving DecidableEq, Repr, Inhabited

/-- A moment since a region's start token, at which a streaming node may have read: the bytes of memory, and what each core held (R49, R291). -/
structure Moment where
  mem : SMap Byte
  cores : List (Nat × LocalMoment)
deriving DecidableEq, Repr, Inhabited

/-- A node of a placed image (R395, R410). -/
structure Node where
  kind : Nat := 0
  cls : Nat := 0
  route : Half := 0
  seq : Nat := 0
  opc : Nat := 0
  mm : BitVec 12 := 0
  basesrc : Nat := 0
  shift : Nat := 0
  sx : Bool := false
  signed : Bool := false
  join : Nat := 255
  grp : Nat := 0
  base : Dword := 0
  wired : Half := 0
  scope : Nat := 0
  space : Nat := 0
  ext : List Nat := []
  stride : List Int := []
  in0 : List Token := []
  in1 : List Token := []
  in2 : List Token := []
  /-- stream engine: position, round and whether a round is under way -/
  pos : List Nat := []
  round : Nat := 0
  walking : Bool := false
  /-- stores performed and awaited at a join or end node -/
  completions : Nat := 0
  /-- moments since the start token whose values a streaming read may still return (R291) -/
  past : List Moment := []
  /-- the physical node of its kind that holds the record (R398) -/
  phys : Nat := 0
  ended : Bool := false
deriving DecidableEq, Repr, Inhabited

/-- Where a token on a hop is going: an element channel or a node port of a placed image. -/
inductive Dest where
  | chan (elem n : Nat)
  | port (placed node n : Nat)
deriving DecidableEq, Repr, Inhabited

/-- State of a compiler-placed region (R399). -/
inductive RegionState where
  | loading
  | loaded
  | running
  | done
  | faulted
deriving DecidableEq, Repr, Inhabited

/-- A load of one lane that has performed before its iteration commits (R43): the iteration, the sequence tag, the lane and the value. -/
structure EarlyLoad where
  it : Word
  tag : Nat
  lane : Nat
  val : Word
deriving DecidableEq, Repr, Inhabited

/-- A streaming copy of a captured loop (R40 to R46, R412). Committed values of the live-outs are keyed by 32 × register code + lane,
where a code is that of a v register, 0x100 plus a w register or 0x110 plus a p register. -/
structure Copy where
  slot : Nat := 0
  head : Dword := 0
  exitPc : Dword := 0
  k : Nat := 1
  oldest : Word := 0
  inflight : Nat := 0
  permits : Nat := 0
  entryMask : Mask := 0
  exited : Mask := 0
  committed : SMap Word := []
  /-- boundary and trigger of a damp under way (R46) -/
  damp : Option (Word × DampWhy) := none
  /-- the iteration in which the last octet left (R44) -/
  exitIter : Option Word := none
  /-- the group may become eligible at this PC once the live-outs are written -/
  leaving : Option Dword := none
  cacheKey : Nat × Nat × Nat × Nat := (0, 0, 0, 0)
  /-- the words of the loop body, from H to the backward branch -/
  body : List Dword := []
  /-- the codes of the live-outs -/
  outs : List Nat := []
  /-- the codes of the live-ins, the live-outs among them -/
  ins : List Nat := []
  /-- stream group index (R360) -/
  gidx : Nat := 0
  /-- loads that have performed before their iteration commits (R43) -/
  early : List EarlyLoad := []
  /-- the hand-over injection has ended: an iteration has been admitted (R39, R48) -/
  injected : Bool := false
deriving DecidableEq, Repr, Inhabited

/-- An image loaded into elements and nodes: a region of a block, or a copy that serves a group (R40, R398, R399). -/
structure Placed where
  blk : Nat := 0
  rgn : Nat := 0
  region : Option RegionState := none
  copy : Option Copy := none
  image : List Byte := []
  x0 : Nat := 0
  y0 : Nat := 0
  nodes : SMap Node := []
  ports : List Half := []
  frozen : Bool := false
deriving DecidableEq, Repr, Inhabited

/-- An echo probe (R369): its region, the channel it comes from, where it is, and the path so far with the port that each point waits
on. A point is an element, or 64 plus a node record index; a port is an input channel, or 4 plus an out port. -/
structure Probe where
  placed : Nat
  elem : Nat
  chan : Nat
  place : Nat
  path : List (Nat × Nat)
deriving DecidableEq, Repr, Inhabited

/-! ## Faults and debug records -/

/-- A fault record before its SEQ is given (R338). -/
structure FaultRec where
  kind : Nat
  gen : Byte
  cause : Nat
  sub : Nat
  die : Nat
  core : Nat
  faultid : Word
  lmask : Mask
  pc : Dword
  addr : Dword
  gridseq : Nat
  block : Nat
  detail : Dword
deriving DecidableEq, Repr, Inhabited

/-- A core (R211, R305, R341, R372, R412). -/
structure Core where
  groups : SMap Group := []
  blocks : SMap Block := []
  scratch : SMap Byte := []
  /-- lane private slices, keyed by 2,048 × physical lane + byte -/
  laneMem : SMap Byte := []
  opbuf : SMap Byte := []
  /-- accumulator words, keyed by 4,096 × tile + 64 × row + column -/
  acc : SMap Word := []
  l1kib : Nat := 64
  gen : Byte := 0
  /-- the last block that left: its grid, and whether it was killed or pre-empted (R339) -/
  lastLeft : Option (Nat × Bool) := none
  cycles : Dword := 0
  coreFaults : Byte := 0
  budget : Nat := 12
  bars : List BarRec := []
  windows : List Window := []
  marks : SMap Marks := []
  resv : List Resv := []
  /-- claiming block plus 1 of each tile; 0 when free -/
  claims : SMap Nat := []
  matq : List MatEntry := []
  /-- tokens of an MDRAIN.c under way that have been sent, per tile -/
  drain : SMap Nat := []
  copyq : List CopyOp := []
  tileq : List TileOp := []
  /-- scratchpad destination table: operation id and byte range of the scratchpad (R341, R346) -/
  dests : List (Nat × Nat × Nat) := []
  requests : List Request := []
  cache : List CacheEntry := []
  placerq : List PlaceReq := []
  elems : SMap Element := []
  placed : SMap Placed := []
  hops : List (Dest × Token) := []
  /-- one at most for each region, the next to move first -/
  probes : List Probe := []
  deadlock : List (Nat × Nat) := []
  pmc : SMap Dword := []
  pmctl : Byte := 0
  pmcsel : Dword := 0
  lastIssued : Option Nat := none
  heldFaults : List FaultRec := []
deriving DecidableEq, Repr, Inhabited

/-! ## Memory system -/

/-- A directory entry of a line (R296). St: 0 I, 1 S, 2 E, 3 O, 4 M. -/
structure DirEntry where
  st : Nat := 0
  kits : List Nat := []
  own : Nat := 0
  /-- engine claims, oldest first: core and operation id (R299) -/
  eq : List (Nat × Nat) := []
  /-- window sharers, oldest first: core, window identifier and valid mask (R300) -/
  ws : List (Nat × Nat × Mask) := []
deriving DecidableEq, Repr, Inhabited

/-- A notice to a window that words of a line were written (R268, R300), and the write it belongs to. `seen` holds the groups, as core
and slot, that made the write or have read it: none of them reads an older value through a window any more (R282, R283). -/
structure Notice where
  core : Nat
  wid : Nat
  line : Nat
  words : Mask
  write : Nat
  seen : List (Nat × Nat) := []
deriving DecidableEq, Repr, Inhabited

/-- A write that has been ordered at its home and not yet performed (R276, R298). -/
structure PendingWrite where
  id : Nat
  core : Nat
  slot : Nat
  gen : Byte
  /-- to host or peer memory: awaited at sys scope only -/
  outside : Bool
  /-- peer devices that it writes -/
  peers : List Nat := []
  /-- the lines of device memory that it writes -/
  lines : List Nat := []
deriving DecidableEq, Repr, Inhabited

/-- A TLB entry: level (0 core, 1 kit, 2 die) and its owner, address space, first VA, bytes covered, entry; `ptr` is 0 for a leaf, and for a
COMMITTED pointer entry, which a die TLB caches too, its level in the tables (R219). -/
structure TlbEntry where
  level : Nat
  owner : Nat
  asid : Nat
  va : Nat
  bytes : Nat
  entry : Dword
  ptr : Nat := 0
deriving DecidableEq, Repr, Inhabited

/-! ## Queues and the command processor -/

/-- STATE of a command queue (R324, R335). -/
inductive QState where
  | free
  | active
  | error
deriving DecidableEq, Repr, Inhabited

/-- A host command queue (R324, R325). -/
structure Queue where
  st : QState := .free
  part : Nat := 0
  base : Dword := 0
  logsize : Nat := 4
  prio : Nat := 0
  asid : Nat := 0
  rmirror : Dword := 0
  widx : Dword := 0
  ridx : Dword := 0
deriving DecidableEq, Repr, Inhabited

/-- How far a command has come (R336). -/
inductive CmdState where
  | accepted
  | dispatched
deriving DecidableEq, Repr, Inhabited

/-- A command that the CP has copied and that has neither retired nor faulted (R328, R329). -/
structure Command where
  q : Nat := 0
  part : Nat := 0
  ver : Nat := 2
  typ : Nat := 0
  ridx : Dword := 0
  /-- the 64 bytes, as layout 2 -/
  raw : List Byte := []
  asid : Nat := 0
  st : CmdState := .accepted
  acceptSeq : Nat := 0
  latestSeq : Nat := 0
  kd : KDesc := {}
  /-- blocks of the grid that have retired, been killed, or never will start -/
  finished : Nat := 0
  total : Nat := 0
  started : Nat := 0
  /-- reason and data of a grid that will be journaled FAULTED -/
  failed : Option (Nat × Dword) := none
  /-- bytes that a COPY has copied -/
  copied : Nat := 0
  /-- cores that have still to finish a PLACE_PRELOAD -/
  cores : List Nat := []
deriving DecidableEq, Repr, Inhabited

/-- A unit of a distributor: a chunk or a gang, and the next block of it to start (R21). -/
structure Chunk where
  cmd : Nat
  first : Nat
  count : Nat
  next : Nat
deriving DecidableEq, Repr, Inhabited

/-- A gang barrier record of a cluster (R412, R419). -/
structure GangRec where
  cmd : Nat
  gang : Nat
  name : Nat
  arrived : List Nat
deriving DecidableEq, Repr, Inhabited

/-- A code object table entry (R387). State: 0 UNLOADED, 1 LOADING, 2 LOADED, 3 QUARANTINED. -/
structure CodeObj where
  st : Nat := 0
  objid : Nat := 0
  asid : Nat := 0
  base : Dword := 0
  pages : Nat := 0
  codeofs : Nat := 0
  hashofs : Nat := 0
  placeofs : Nat := 0
  nplace : Nat := 0
  signed : Bool := false
  sigOk : Bool := false
  /-- bytes from the base to the end of the last page -/
  size : Nat := 0
  /-- pages that have been brought in, and those whose hash matched -/
  present : List Nat := []
  verified : List Nat := []
  /-- the VA of the page that failed its hash, plus 1 -/
  badPage : Nat := 0
deriving DecidableEq, Repr, Inhabited

/-- An address space (R450). -/
structure ASpace where
  used : Bool := false
  ptroot : Nat := 0
  pasid : Nat := 0
  pgen : Bool := false
  heapen : Bool := false
  flten : Bool := false
  /-- the PTROOT and PASID of the latest UPDATE, which govern a range after a TLBINV of it (R450) -/
  nextRoot : Option (Nat × Nat) := none
  /-- invalidations of the space that began before that UPDATE and are under way -/
  oldDrains : Nat := 0
  /-- ranges with the PTROOT and PASID that govern them, the latest first: first VA, bytes, PTROOT, PASID -/
  moved : List (Nat × Nat × Nat × Nat) := []
deriving DecidableEq, Repr, Inhabited

/-- A block that pre-emption has saved (R441): the block, its groups by the slots they had, and what it owned on its core. Elements are
kept with the placed image that held them and their place from its origin; addresses of lane private bytes count from LBASE. -/
structure SavedBlock where
  block : Block
  groups : List (Nat × Group)
  scratch : List Byte
  laneMem : SMap Byte
  bars : List BarRec
  windows : List Window
  resv : List (Resv × List Byte)
  tiles : List (Nat × Nat × List Word)
  matq : List MatEntry
  copies : List CopyOp
  placed : List (Nat × Placed)
  elems : List (Nat × Nat × Element)
  /-- where in the save area the block's own area lies, and its bytes -/
  ofs : Nat
  size : Nat
deriving DecidableEq, Repr, Inhabited

/-- A saved block or gang that waits to be placed again (R32, R442), and its save area. -/
structure Saved where
  die : Nat := 0
  cmd : Nat := 0
  area : Nat := 0
  size : Nat := 0
  blocks : List SavedBlock := []
  /-- the gang's barrier records (R427) -/
  gangs : List GangRec := []
deriving DecidableEq, Repr, Inhabited

/-- A partition: its function registers and the tables that management gives it (R448, R449, R454). -/
structure Partition where
  dies : List Nat := []
  qfirst : Nat := 0
  qcount : Nat := 0
  qtbase : Nat := 0
  fqbase : Nat := 0
  fqlog : Nat := 6
  fqw : Dword := 0
  fqr : Dword := 0
  chmbase : Nat := 0
  chmlog : Nat := 6
  chmw : Dword := 0
  chmr : Dword := 0
  poolbase : Nat := 0
  poolLog : Nat := 8
  lowwater : Nat := 0
  /-- frames put into the commit pool's ring and taken from it (R211, R222): the ring holds the addresses from `poolR` to `poolW` - 1 -/
  poolW : Nat := 0
  poolR : Nat := 0
  empties : Word := 0
  poolLow : Bool := false
  heapbase : Nat := 0
  heapsize : Nat := 0
  heaptab : Nat := 0
  /-- live blocks of the heap: address and class -/
  heap : SMap Nat := []
  /-- free blocks that the heap has cut: address and class -/
  heapFree : SMap Nat := []
  heapTop : Nat := 0
  aspaces : SMap ASpace := []
  objects : SMap CodeObj := []
  signedOnly : Bool := false
  qctl : Dword := 0
  poolRefuse : Word := 0
  tlbinvVa : Dword := 0
  tlbinvCtl : Dword := 0
  fresumeId : Word := 0
  fresumeAct : Dword := 0
  fresumeSkip : Dword := 0
  fresumeStatus : Nat := 0
  preemptGrid : Dword := 0
  preemptBlock : Dword := 0
  preemptCtl : Dword := 0
  /-- blocks that a pre-emption names and that have not been saved: core, block, deadline -/
  preemptWait : List (Nat × Nat × Nat) := []
  pwrbudget : Dword := 0
  stalegen : Word := 0
  fqlost : Word := 0
  heapfail : Word := 0
  doorbellign : Word := 0
  chmlost : Word := 0
  csaAddr : Dword := 0
  /-- save areas: address and size -/
  csa : List (Nat × Nat) := []
  asctl : Dword := 0
  asdesc : Dword := 0
  pmccore : Nat := 0
  dbgctl : Dword := 0
  dbgcmd : Dword := 0
  dbgpc : Dword := 0
  dbgring : Nat := 0
  dbgbp : SMap Dword := []
  /-- halt records written to the debug ring -/
  dbgidx : Nat := 0
  report : List Byte := []
  saved : SMap Saved := []
  jmirror : Dword := 0
deriving DecidableEq, Repr, Inhabited

/-- The registers that a function's own page holds, of a virtual function (R447, R448, R449). -/
structure Page where
  qctl : Dword := 0
  tlbinvVa : Dword := 0
  tlbinvCtl : Dword := 0
  fresumeId : Word := 0
  fresumeAct : Dword := 0
  fresumeSkip : Dword := 0
  fresumeStatus : Nat := 0
  preemptGrid : Dword := 0
  preemptBlock : Dword := 0
  preemptCtl : Dword := 0
  pwrbudget : Dword := 0
  csaAddr : Dword := 0
  asctl : Dword := 0
  asdesc : Dword := 0
  pmccore : Nat := 0
deriving DecidableEq, Repr, Inhabited

/-- A Gwynryn link (R455, R456). -/
structure Link where
  up : Bool := false
  ver : Nat := 0
  width : Nat := 0
deriving DecidableEq, Repr, Inhabited

/-! ## The whole machine -/

/-- The device. -/
structure State where
  /-- MODEL: whose turn comes next (assumption 1) -/
  turns : List Config.Turn := []
  /-- MODEL: how many free values have been taken (assumption 1) -/
  tick : Nat := 0
  /-- MODEL: the core, and the group slot or element, and the element slot, that acts now (assumption 1) -/
  curCore : Nat := 0
  curSlot : Nat := 0
  curElem : Nat := 0
  curElemSlot : Nat := 0
  /-- MODEL: the word just tried cannot enter its pipe and waits at issue (R27, assumption 43); false between the steps of a run -/
  stalled : Bool := false
  cores : SMap Core := []
  /-- bytes of device, host and peer memory, keyed by 2^60 × TGT + 2^52 × PEER + PA; device memory by 2^52 × partition + PA, since each
  partition's memory lies in the stacks of its own dies (R6, R454) -/
  mem : SMap Byte := []
  dir : SMap DirEntry := []
  /-- keys of poisoned 32-bit words: of memory, and of scratchpads and lane slices under `spKey` and `laneWordKey` (R304) -/
  poisoned : List Nat := []
  notices : List Notice := []
  writes : List PendingWrite := []
  /-- writes of the hub that wait at a home for a claimed line, oldest first: key and bytes (R299) -/
  hubq : List (Nat × List Byte) := []
  tlb : List TlbEntry := []
  /-- walk requests of each die, oldest first: core, address space, VA. The first 256 are outstanding, the others wait in its walk queue
  (R219, R220, R324). -/
  walks : SMap (List (Nat × Nat × Nat)) := []
  /-- shootdowns that wait for TLBINV to drain: partition, address space, first VA, bytes -/
  drains : List (Nat × Nat × Nat × Nat) := []
  retention : List Nat := []
  /-- errors of one bit that have been corrected (R303) -/
  corrected : Nat := 0
  queues : SMap Queue := []
  commands : SMap Command := []
  nextCmd : Nat := 1
  /-- the queue served last at each priority (R328) -/
  rr : SMap Nat := []
  jhead : Nat := 0
  jbase : Nat := 0
  /-- unit lists of the dies (R21, R324) -/
  units : SMap (List Chunk) := []
  /-- a stolen unit on its way to a die, or an empty reply (R22) -/
  steals : SMap (List Chunk) := []
  gangs : SMap (List GangRec) := []
  overflow : SMap (List FaultRec) := []
  parts : SMap Partition := []
  /-- the register pages of virtual functions (R447) -/
  vfs : SMap Page := []
  /-- doorbell writes that were ignored through a page that has no partition, while in RESET among others (R460) -/
  strayBells : SMap Word := []
  devstate : Nat := 0
  dieok : BitVec 4 := 0
  mfst : Bool := false
  /-- harvested cores, as the manifest lists them (R460) -/
  harvest : List Nat := []
  links : SMap Link := []
  reducedMap : Bool := false
  starts : Nat := 0
deriving DecidableEq, Repr, Inhabited

/-- Reasons the machine stops with a fault. -/
inductive Fault where
  /-- Raised by an access whose translation names a physical address of device memory that no HBM stack holds
  (R9, R211). Safe: the spec gives no such access an effect. -/
  | absentMemory
deriving DecidableEq, Repr, Inhabited

/-- Reasons the machine refuses an instruction. -/
inductive Refusal where
  /-- The instruction has no meaning in the model yet. Safe: nothing is claimed of it. -/
  | notModelled (mnemonic : String)
deriving DecidableEq, Repr, Inhabited

/-- The machine right after reset: DEVSTATE reads RESET (R451), memories are scrubbed (R2, R211), every table and
queue is empty or free (R324, R372, R412, R428). -/
def State.reset : State := {}

end Sys2Proof.Machine
end

