-- ==== Sys2Proof/Machine/Tables.lean ====
section
/-!
DEFINITION. The tables of the state and their entries, and bytes of memories: reading, writing, keys of poisoned words.
-/

namespace Sys2Proof.Machine

/-! ## Tables -/

/-- The core with an identifier, 256 × die + index. -/
def State.core (s : State) (c : Nat) : Core := SMap.get {} s.cores c
/-- Replace a core. -/
def State.setCore (s : State) (c : Nat) (x : Core) : State := { s with cores := SMap.set {} s.cores c x }
/-- Change every core. -/
def State.mapCores (s : State) (f : Nat → Core → Core) : State :=
  s.cores.foldl (fun (t : State) p => t.setCore p.1 (f p.1 (t.core p.1))) s
/-- The group in a slot. -/
def Core.group (c : Core) (i : Nat) : Group := SMap.get {} c.groups i
/-- Replace a group. -/
def Core.setGroup (c : Core) (i : Nat) (g : Group) : Core := { c with groups := SMap.set {} c.groups i g }
/-- A block table entry. -/
def Core.block (c : Core) (i : Nat) : Block := SMap.get {} c.blocks i
/-- Replace a block table entry. -/
def Core.setBlock (c : Core) (i : Nat) (b : Block) : Core := { c with blocks := SMap.set {} c.blocks i b }
/-- Whether a block table entry is in use. -/
def Core.hasBlock (c : Core) (i : Nat) : Bool := c.blocks.any (fun p => p.1 == i)
/-- A group of a core of the state. -/
def State.group (s : State) (c i : Nat) : Group := (s.core c).group i
/-- Replace a group of a core of the state. -/
def State.setGroup (s : State) (c i : Nat) (g : Group) : State := s.setCore c ((s.core c).setGroup i g)
/-- Replace a block of a core of the state. -/
def State.setBlock (s : State) (c i : Nat) (b : Block) : State := s.setCore c ((s.core c).setBlock i b)
/-- A partition. -/
def State.part (s : State) (p : Nat) : Partition := SMap.get {} s.parts p
/-- Replace a partition. -/
def State.setPart (s : State) (p : Nat) (x : Partition) : State := { s with parts := SMap.set {} s.parts p x }
/-- A queue. -/
def State.queue (s : State) (q : Nat) : Queue := SMap.get {} s.queues q
/-- Replace a queue. -/
def State.setQueue (s : State) (q : Nat) (x : Queue) : State := { s with queues := SMap.set {} s.queues q x }
/-- A command that has neither retired nor faulted. -/
def State.command (s : State) (id : Nat) : Command := SMap.get {} s.commands id
/-- Replace a command. -/
def State.setCommand (s : State) (id : Nat) (x : Command) : State := { s with commands := SMap.set {} s.commands id x }
/-- Whether a command is live. -/
def State.hasCommand (s : State) (id : Nat) : Bool := s.commands.any (fun p => p.1 == id)
/-- The die of a core. -/
def dieOf (c : Nat) : Nat := c / Config.coresPerDie
/-- The partition that holds a die, if any (R454). -/
def State.partOfDie (s : State) (d : Nat) : Option Nat := (s.parts.find? (fun p => p.2.dies.contains d)).map (·.1)
/-- The identifiers of the live blocks of a core. -/
def Core.blockIds (c : Core) : List Nat := c.blocks.map (·.1)

/-- Count an event in a hub counter, 32 bits (R412). -/
def bump (w : Word) : Word := w + 1

/-- Replace the elements of a list that meet a condition. -/
def updWhere {α : Type} (p : α → Bool) (f : α → α) (l : List α) : List α := l.map (fun x => if p x then f x else x)

/-- The lanes of a mask, ascending. -/
def lanesOf (m : Mask) : List Nat := (List.range 32).filter (fun l => m.getLsbD l)
/-- The mask of a list of lanes. -/
def maskOf (l : List Nat) : Mask := l.foldl (fun m i => m ||| (1#32 <<< i)) 0
/-- The lowest lane of a mask; 0 where it is empty. -/
def lowest (m : Mask) : Nat := (lanesOf m).headD 0
/-- The number of lanes of a mask. -/
def countLanes (m : Mask) : Nat := (lanesOf m).length

/-! ## Bytes -/

/-- `n` bytes from `k`, little-endian (R3). -/
def readBytes (m : SMap Byte) (k : Nat) : Nat → Nat
  | 0 => 0
  | n + 1 => (SMap.get 0 m k).toNat + 256 * readBytes m (k + 1) n

/-- Write the low `n` bytes of `v` at `k`, little-endian (R3). -/
def writeBytes (m : SMap Byte) (k : Nat) : Nat → Nat → SMap Byte
  | 0, _ => m
  | n + 1, v => writeBytes (SMap.set 0 m k (BitVec.ofNat 8 v)) (k + 1) n (v / 256)

/-- Write a list of bytes at `k`. -/
def writeList (m : SMap Byte) (k : Nat) : List Byte → SMap Byte
  | [] => m
  | b :: r => writeList (SMap.set 0 m k b) (k + 1) r

/-- `n` bytes from `k` as a list. -/
def readList (m : SMap Byte) (k n : Nat) : List Byte := (List.range n).map (fun i => SMap.get 0 m (k + i))

/-- Zero the range of `n` keys from `k`. -/
def clearRange {α : Type} (m : SMap α) (k n : Nat) : SMap α := m.filter (fun p => p.1 < k || k + n ≤ p.1)

/-- Device memory bytes. -/
def State.rd (s : State) (pa n : Nat) : Nat := readBytes s.mem pa n
/-- Write device memory bytes. -/
def State.wr (s : State) (pa n v : Nat) : State := { s with mem := writeBytes s.mem pa n v }

/-- Little-endian bytes of a natural. -/
def bytesOf : Nat → Nat → List Byte
  | 0, _ => []
  | n + 1, v => BitVec.ofNat 8 v :: bytesOf n (v / 256)

/-- The natural of little-endian bytes. -/
def natOf : List Byte → Nat
  | [] => 0
  | b :: r => b.toNat + 256 * natOf r

/-- Field of `n` bytes at offset `o` of a record held as a natural. -/
def field (r o n : Nat) : Nat := r / 2 ^ (8 * o) % 2 ^ (8 * n)

/-- The key that stands for a scratchpad byte of a core among the poisoned words, above every key of memory. -/
def spKey (core k : Nat) : Nat := 2 ^ 80 + 2 ^ 24 * core + k
/-- The key that stands for a lane private byte of a core among the poisoned words. -/
def laneWordKey (core k : Nat) : Nat := 2 ^ 100 + 2 ^ 24 * core + k

/-- A store that covers every byte of a poisoned word clears its poison (R304). -/
def State.cleanse (s : State) (k n : Nat) : State :=
  if s.poisoned.isEmpty then s
  else { s with poisoned := s.poisoned.filter (fun w => !(k ≤ w && w + 4 ≤ k + n)) }

/-- Whether a read of `n` bytes meets a poisoned word. -/
def State.poisonAt (s : State) (k n : Nat) : Bool := s.poisoned.any (fun w => w < k + n && k < w + 4)

end Sys2Proof.Machine
end

