-- ==== Sys2Proof/Machine/Homes.lean ====
section
/-!
DEFINITION. The L2 homes: where device memory lies, lines and their directory entries, window marks and notices, the order of writes, and
the writes of the hub (R6, R9, R267, R268, R276, R284, R293 to R302).
-/

namespace Sys2Proof.Machine

/-! ## Device memory and its homes (R6, R9, R293) -/

/-- TGT of a key. -/
def keyTgt (k : Nat) : Nat := k / 2 ^ 60
/-- The key of a byte of a partition's device memory. -/
def partKey (part pa : Nat) : Nat := 2 ^ 52 * part + pa
/-- The physical address in a key. -/
def keyPa (k : Nat) : Nat := k % 2 ^ 52
/-- Bytes of device memory of a partition: the stacks of its own dies (R6, R9). -/
def State.partBytes (s : State) (part : Nat) : Nat := Config.dieBytes * (s.part part).dies.length
/-- Whether the stacks of a partition hold `n` bytes of device memory from a key. -/
def State.holds (s : State) (k n : Nat) : Bool := keyTgt k == 0 && decide (keyPa k + n ≤ s.partBytes (k / 2 ^ 52))
/-- The dies of a partition, ascending. -/
def State.partDies (s : State) (part : Nat) : List Nat := (List.range 4).filter (s.part part).dies.contains

/-- The line of a key (R293). -/
def lineOf (k : Nat) : Nat := k / 128

/-- The home of a line of device memory: its partition, and of its D dies the one that PA[51:14] mod D names (R6, R293). -/
def State.homeOf (s : State) (line : Nat) : Nat × Nat :=
  let p := 128 * line / 2 ^ 52
  let l := s.partDies p
  (p, l.getD (keyPa (128 * line) / 2 ^ 14 % l.length) 0)

/-- The lines that `n` bytes at a key touch. -/
def linesAt (k n : Nat) : List Nat :=
  if n = 0 then [] else (List.range ((k + n - 1) / 128 - k / 128 + 1)).map (fun i => k / 128 + i)
/-- The same bytes as one range in each line: key and length. -/
def linePieces (k n : Nat) : List (Nat × Nat) :=
  (linesAt k n).map (fun l => (max k (128 * l), min (k + n) (128 * (l + 1)) - max k (128 * l)))

/-! ## Kits and slices (R294, R302) -/

/-- The kit of a core, 16 × die + kit (R296, R492). -/
def kitOf (core : Nat) : Nat := core / 16
/-- The cores of a kit whose L1 slice is not 0 KiB, ascending. -/
def State.slices (s : State) (kit : Nat) : List Nat := ((List.range 16).map (fun i => 16 * kit + i)).filter (fun c => (s.core c).l1kib != 0)
/-- The core of a kit in whose slice a line is held; none in a kit that caches no lines (R7, R294). -/
def State.sliceOf (s : State) (kit line : Nat) : Option Nat :=
  let l := s.slices kit
  l[Nat.xor (line % 16) (line / 16 % 16) % l.length]?
/-- A kit is probed at a home: it wakes (R302). -/
def State.woken (s : State) (kits : List Nat) : State := { s with retention := s.retention.filter (fun k => !kits.contains k) }

/-! ## Directory entries (R296, R297) -/

/-- The directory entry of a line. A line of host or peer memory has no directory (R293): its entry here holds only the windows that have filled
from it, which its target tells of writes as a home would, since R276 and R288 hold for every word. MODEL'S CHOICE (assumption 113). -/
def State.dirEntry (s : State) (line : Nat) : DirEntry := SMap.get {} s.dir line
/-- Replace a directory entry. -/
def State.setDir (s : State) (line : Nat) (d : DirEntry) : State := { s with dir := SMap.set {} s.dir line d }
/-- Change every directory entry, dropping those that become empty. -/
def mapDir (f : DirEntry → DirEntry) (d : SMap DirEntry) : SMap DirEntry :=
  (d.map (fun p => (p.1, f p.2))).filter (fun p => p.2 != {})
/-- Whether an engine operation claims a line that `n` bytes at a key touch (R299). -/
def State.claimed (s : State) (k n : Nat) : Bool := (linesAt k n).any (fun l => !(s.dirEntry l).eq.isEmpty)

/-- A read request by a kit (R297): from the home the kit holds E; from E or M the owner keeps S or O; otherwise S. -/
def DirEntry.read (d : DirEntry) (kit : Nat) : DirEntry :=
  if d.kits.contains kit then d
  else match d.st with
    | 0 => { d with st := 2, kits := [kit], own := kit }
    | 2 => { d with st := 1, kits := d.kits ++ [kit], own := 0 }
    | 4 => { d with st := 3, kits := d.kits ++ [kit] }
    | _ => { d with kits := d.kits ++ [kit] }

/-- A read for write or an upgrade by a kit: every other copy is invalidated and the kit holds M (R297). -/
def DirEntry.write (d : DirEntry) (kit : Nat) : DirEntry := { d with st := 4, kits := [kit], own := kit }

/-- No kit holds the line: an atomic or reduction at the home, or a write that no slice takes (R297). -/
def DirEntry.invalid (d : DirEntry) : DirEntry := { d with st := 0, kits := [], own := 0 }

/-- An eviction by a kit (R297): the owner of M or O leaves the others in S; a line that nobody holds is I. -/
def DirEntry.evict (d : DirEntry) (kit : Nat) : DirEntry :=
  if !d.kits.contains kit then d
  else
    let k := d.kits.filter (fun j => j != kit)
    if k.isEmpty then d.invalid
    else if 2 ≤ d.st && d.own == kit then { d with st := 1, kits := k, own := 0 }
    else { d with kits := k }

/-! ## Performance counters (R425, R426) -/

/-- Add to every counter of a core that is enabled and selects an event code. -/
def Core.count (c : Core) (code n : Nat) : Core :=
  if n = 0 ∨ c.pmctl = 0 then c
  else { c with
    pmc := (List.range 8).foldl (fun m i =>
    if c.pmctl.getLsbD i && c.pmcsel.toNat / 2 ^ (8 * i) % 256 == code then SMap.set 0 m i (SMap.get 0 m i + BitVec.ofNat 64 n)
    else m) c.pmc }

/-- Lines that a kit asks for and does not hold miss in the slices that would hold them, and count there as event 0x08 (R294, R426). -/
def State.countMisses (s : State) (kit : Nat) (lines : List Nat) : State :=
  let missed := lines.eraseDups.filter (fun l => !(s.dirEntry l).kits.contains kit)
  { s with cores := s.cores.map (fun p => (p.1, p.2.count 8 (missed.filter (fun l => s.sliceOf kit l == some p.1)).length)) }

/-- A kit reads lines of device memory: it becomes a holder of each at its home, and it and the kits probed wake (R297, R302). -/
def State.kitReads (s : State) (kit : Nat) (lines : List Nat) : State :=
  { (s.countMisses kit lines).woken (lines.flatMap (fun l => kit :: (s.dirEntry l).kits)) with
    dir := lines.foldl (fun d l => SMap.set {} d l ((SMap.get {} d l).read kit)) s.dir }

/-! ## Window marks and notices (R267, R268, R300) -/

/-- The key of a scratchpad byte of a block on its core. -/
def State.scratchKey (s : State) (core blk off : Nat) : Nat := ((s.core core).block blk).sbase + off
/-- The mark index of a word of a block's allocation. -/
def State.markKey (s : State) (core blk off : Nat) : Nat := s.scratchKey core blk off / 4
/-- The marks of a word. -/
def State.marksAt (s : State) (core blk off : Nat) : Marks := SMap.get {} (s.core core).marks (s.markKey core blk off)
/-- Replace the marks of a word. -/
def State.setMarks (s : State) (core blk off : Nat) (m : Marks) : State :=
  let c := s.core core
  s.setCore core { c with marks := SMap.set {} c.marks (s.markKey core blk off) m }
/-- The offsets of the words of a window. -/
def Window.words (w : Window) : List Nat := (List.range (w.size / 4)).map (fun i => w.sb + 4 * i)

/-- Whether a window word was filled from a touched word of a line. -/
def Marks.hitBy (m : Marks) (line : Nat) (words : Mask) : Bool :=
  m.src != 0 && (m.src - 1) / 128 == line && words.getLsbD ((m.src - 1) % 128 / 4)

/-- A window no longer shares some words of a line. -/
def DirEntry.unshare (d : DirEntry) (core wid : Nat) (m : Mask) : DirEntry :=
  { d with ws := updWhere (fun q => q.1 == core && q.2.1 == wid) (fun q => (q.1, q.2.1, q.2.2 &&& ~~~m)) d.ws }

/-- A window learns that words of a line were written: V falls on the words it holds, dirty bytes stay, and the home counts it as a sharer
of those words no more (R268). -/
def State.deliverNotice (s : State) (n : Notice) : State :=
  let s := s.setDir n.line ((s.dirEntry n.line).unshare n.core n.wid n.words)
  match (s.core n.core).windows.find? (fun w => w.wid == n.wid) with
  | none => s
  | some w => w.words.foldl (fun (s : State) o =>
      let m := s.marksAt n.core w.blk o
      if m.v && m.hitBy n.line n.words then s.setMarks n.core w.blk o { m with v := false } else s) s

/-- Deliver every notice of a write at once. -/
def State.deliverAll (s : State) (write : Nat) : State :=
  let s1 := (s.notices.filter (fun n => n.write == write)).foldl State.deliverNotice s
  { s1 with
    notices := s1.notices.filter (fun n => n.write != write)
    writes := s1.writes.filter (fun w => w.id != write) }

/-! ## Writes (R268, R276, R297, R298, R300) -/

/-- The words of its line that `n` bytes at a key touch. -/
def wordMask (k n : Nat) : Mask :=
  maskOf ((List.range 32).filter (fun w => decide (k % 128 / 4 ≤ w) && decide (w ≤ (k % 128 + n - 1) / 4)))

/-- The lines and words that some byte ranges touch. -/
def touchedLines (cells : List (Nat × Nat)) : SMap Mask :=
  cells.foldl (fun m c => SMap.put m (lineOf c.1) (SMap.get 0 m (lineOf c.1) ||| wordMask c.1 c.2)) []

/-- A number that no pending write has. -/
def State.freshWrite (s : State) : Nat := s.writes.foldl (fun a w => max a (w.id + 1)) 1

/-- The notices of a write to lines, made by a group: one for each window sharer whose mask meets the words touched, but for the window
whose own flush the write is (R268, R271, R300). -/
def State.noticesFor (s : State) (id : Nat) (by_ : Nat × Nat) (t : SMap Mask) (self : Option (Nat × Nat)) : List Notice :=
  t.flatMap (fun p => (s.dirEntry p.1).ws.filterMap (fun q =>
    if q.2.2 &&& p.2 != 0 && self != some (q.1, q.2.1) then
      some { core := q.1, wid := q.2.1, line := p.1, words := p.2, write := id, seen := [by_] }
    else none))

/-- The entry of a line after a write, as R297 gives it. A window that holds a word of it stays a sharer until it has lost its copy (R276). -/
def DirEntry.touched (d : DirEntry) (kit : Option Nat) : DirEntry :=
  match kit with
  | some k => d.write k
  | none => d.invalid

/-- A write of a group is ordered at the home: it is pending until every window has acknowledged, or until the target outside
the device has (R276, R298). The kits that lose their copies wake (R302). -/
def State.ordered (s : State) (core slot : Nat) (kit : Option Nat) (cells : List (Nat × Nat))
    (self : Option (Nat × Nat) := none) : State :=
  let t := touchedLines cells
  let id := s.freshWrite
  let ns := s.noticesFor id (core, slot) t self
  let home := t.filter (fun p => keyTgt (128 * p.1) == 0)
  let outside := cells.any (fun c => keyTgt c.1 != 0)
  let peers := ((cells.filter (fun c => keyTgt c.1 == 2)).map (fun c => c.1 / 2 ^ 52 % 256)).eraseDups
  let s1 : State := match kit with
    | some k => s.countMisses k (home.map (·.1))
    | none => s
  { s1.woken (home.flatMap (fun p => (s.dirEntry p.1).kits)) with
    dir := home.foldl (fun d p => SMap.set {} d p.1 ((SMap.get {} d p.1).touched kit)) s.dir
    notices := s.notices ++ ns
    writes := if ns.isEmpty && !outside then s.writes
      else s.writes ++ [{ id, core, slot, gen := (s.core core).gen, outside, peers, lines := home.map (·.1) }] }

/-- Write cells of a key, a byte count and a value, in list order. -/
def State.putCells (s : State) (cells : List (Nat × Nat × Nat)) : State :=
  cells.foldl (fun s c => (s.wr c.1 c.2.1 c.2.2).cleanse c.1 c.2.1) s

/-- A write of an agent outside the cores performs at the home: windows learn of it and every kit's copy goes (R293, R297, R300). -/
def State.outsideWrite (s : State) (k : Nat) (l : List Byte) : State :=
  let id := s.freshWrite
  let s1 : State := { s with mem := writeList s.mem k l }
  ((s1.cleanse k l.length).ordered 0 63 none (linePieces k l.length)).deliverAll id

/-! ## Writes of the hub (R299, R300) -/

/-- Whether a write of the hub waits at a home: an engine operation claims a line of it, or an earlier write of the hub waits for one. -/
def State.hubWaits (s : State) (k n : Nat) : Bool :=
  s.claimed k n || s.hubq.any (fun q => (linesAt q.1 q.2.length).any (fun l => (linesAt k n).contains l))

/-- The hub writes bytes of device or host memory: at once, or when no engine claims their lines any more. -/
def State.hubWrite (s : State) (k : Nat) (l : List Byte) : State :=
  if s.hubWaits k l.length then { s with hubq := s.hubq ++ [(k, l)] } else s.outsideWrite k l

/-- Try waiting writes of the hub in order. -/
def State.retryHub : List (Nat × List Byte) → State → State
  | [], s => s
  | (k, l) :: r, s => State.retryHub r (s.hubWrite k l)

/-- Release the engine claims of operations of a core, unwritten or written; the hub's writes that waited for them go on (R299, R436). -/
def State.releaseClaims (s : State) (core : Nat) (ops : List Nat) : State :=
  let s1 : State := { s with dir := mapDir (fun d => { d with eq := d.eq.filter (fun q => !(q.1 == core && ops.contains q.2)) }) s.dir }
  State.retryHub s1.hubq { s1 with hubq := [] }

/-- Unregister windows of a core at every home: they lose their sharer entries and their notices count as acknowledged
(R272, R273). -/
def State.unregister (s : State) (core : Nat) (wids : List Nat) : State :=
  { s with
    dir := mapDir (fun d => { d with ws := d.ws.filter (fun q => !(q.1 == core && wids.contains q.2.1)) }) s.dir
    notices := s.notices.filter (fun n => !(n.core == core && wids.contains n.wid)) }

/-! ## Reads (R282, R283, R297) -/

/-- Whether a notice tells of a write to bytes of some ranges. -/
def Notice.about (n : Notice) (cells : List (Nat × Nat)) : Bool := cells.any (fun c => lineOf c.1 == n.line && (wordMask c.1 c.2 &&& n.words) != 0)

/-- A group reads some bytes of memory through a window that holds copies of them: it learns of each write that the copies hold, those of which
the window itself has had its notice (R283). -/
def State.observeThrough (s : State) (core slot wid : Nat) (cells : List (Nat × Nat)) : State :=
  let owed := fun (n : Notice) (c : Nat × Nat) => s.notices.any (fun m => m.core == core && m.wid == wid && decide (m.write ≤ n.write) && m.about [c])
  let learns := fun (n : Notice) => !n.seen.contains (core, slot) && cells.any (fun c => n.about [c] && !owed n c)
  { s with
    notices := updWhere learns (fun n => { n with seen := n.seen ++ [(core, slot)] }) s.notices }

/-- A group has read some bytes of memory: the writes of which it has read are known to it (R283). -/
def State.observe (s : State) (core slot : Nat) (cells : List (Nat × Nat)) : State :=
  { s with notices := updWhere (fun n => n.about cells && !n.seen.contains (core, slot)) (fun n => { n with seen := n.seen ++ [(core, slot)] }) s.notices }

/-- The slices of a kit take part in an access of a core to a line: it allocates in L1 and the kit has slices (R235, R294). -/
def State.kitFor (s : State) (core ch : Nat) : Option Nat :=
  if ch != 3 && !(s.slices (kitOf core)).isEmpty then some (kitOf core) else none

/-- The loads of a group reach the homes of their lines: the kit becomes a holder of each, and the kits probed wake (R297, R302). -/
def State.loadLines (s : State) (core slot ch : Nat) (cells : List (Nat × Nat)) : State :=
  let home := (cells.filter (fun c => keyTgt c.1 == 0)).map (fun c => lineOf c.1)
  match s.kitFor core ch with
  | none => s.observe core slot cells
  | some k => (s.observe core slot cells).kitReads k home

end Sys2Proof.Machine
end

