-- ==== Sys2Proof/Machine/Ops.lean ====
section
/-!
DEFINITION. The named operations over the state: page tables and TLBs, fault records, taking a group-precise fault and returning from one,
and the journal.
-/

namespace Sys2Proof.Machine

/-! ## Page tables and TLBs (R213 to R221) -/

/-- What an access needs of its leaf (R216). -/
inductive Need where
  | read | write | atomic | fetch
deriving DecidableEq, Repr

/-- What a walk meets first: a format error, an INVALID entry, a RESERVED pointer entry, or a leaf; a table outside device memory; or an
entry whose line an engine operation claims, for which the walk waits at the home (R299). -/
inductive WalkKind where
  | format | invalid | reservedPtr | leaf | absent | held
deriving DecidableEq, Repr

/-- The end of a walk: what was met, at which level, the entry and the key of its address (R214, R228). -/
structure WalkEnd where
  kind : WalkKind
  level : Nat
  entry : Nat
  addr : Nat
deriving DecidableEq, Repr

/-- Bits `lo` to `lo + n - 1` of an entry. -/
def bits (e lo n : Nat) : Nat := e / 2 ^ lo % 2 ^ n

/-- ST of an entry (R215). -/
def pteSt (e : Nat) : Nat := bits e 0 2
/-- LEAF. -/
def pteLeaf (e : Nat) : Bool := bits e 2 1 == 1
/-- CONTIG. -/
def pteContig (e : Nat) : Bool := bits e 3 1 == 1
/-- ZEROREAD. -/
def pteZero (e : Nat) : Bool := bits e 4 1 == 1
/-- R. -/
def pteR (e : Nat) : Bool := bits e 5 1 == 1
/-- W. -/
def pteW (e : Nat) : Bool := bits e 6 1 == 1
/-- X. -/
def pteX (e : Nat) : Bool := bits e 7 1 == 1
/-- TGT. -/
def pteTgt (e : Nat) : Nat := bits e 9 2
/-- PEER. -/
def ptePeer (e : Nat) : Nat := bits e 52 8
/-- The address field as an address. -/
def ptePa (e : Nat) : Nat := bits e 16 36 * 65536

/-- The constraints of R215 on an entry read at a level. -/
def pteFormatOk (level e : Nat) : Bool :=
  bits e 60 4 == 0 && bits e 11 5 == 0 && bits e 8 1 == 0 && pteTgt e != 3 && pteSt e != 3 &&
  (pteTgt e == 2 || ptePeer e == 0) &&
  (level == 2 || !pteLeaf e) && (level == 3 || !pteContig e) &&
  (if level == 3 then true
   else if pteLeaf e then bits e 16 13 == 0
   else if pteSt e == 2 then bits e 3 8 == 0
   else if pteSt e == 1 then ptePa e == 0 && ptePeer e == 0 && pteTgt e == 0
   else true)

/-- One level of the walk: the entry of `va` in the table of a partition at `base`. -/
def walkLevel (s : State) (part level base va : Nat) : WalkEnd :=
  let idx := match level with
    | 1 => bits va 42 14
    | 2 => bits va 29 13
    | _ => bits va 16 13
  let a := partKey part (base + 8 * idx)
  if !s.holds (partKey part 0) (base + 8 * idx + 8) then ⟨.absent, level, 0, a⟩
  else if s.claimed a 8 then ⟨.held, level, 0, a⟩
  else
    let e := s.rd a 8
    if !pteFormatOk level e then ⟨.format, level, e, a⟩
    else if pteSt e == 0 then ⟨.invalid, level, e, a⟩
    else if level == 3 || pteLeaf e then ⟨.leaf, level, e, a⟩
    else if pteSt e == 1 then ⟨.reservedPtr, level, e, a⟩
    else ⟨.leaf, level, e, a⟩

/-- Whether the entry that ends a walk is a COMMITTED pointer entry: the walk goes on (R216). -/
def WalkEnd.pointer (w : WalkEnd) : Bool := w.kind == .leaf && w.level != 3 && !pteLeaf w.entry

/-- The walk from level 2 on, through the table at `base`. -/
def walkFrom2 (s : State) (part base va : Nat) : WalkEnd :=
  let w := walkLevel s part 2 base va
  if w.pointer then walkLevel s part 3 (ptePa w.entry) va else w

/-- The walk of three levels over the tables in memory (R214). -/
def walk (s : State) (part root va : Nat) : WalkEnd :=
  let w := walkLevel s part 1 root va
  if w.pointer then walkFrom2 s part (ptePa w.entry) va else w

/-- The key of a byte of memory that a leaf gives an address: TGT, and with it the partition or PEER, and the physical address (R6, R214,
R215). `bytes` is what the leaf maps: under CONTIG the frame's bits [20:16] are those of the address (R217). -/
def physKey (part bytes e va : Nat) : Nat :=
  let pa := if bytes = 2 ^ 29 then bits e 29 23 * 2 ^ 29 + va % 2 ^ 29
    else if bytes = 2 ^ 21 then ptePa e / 2 ^ 21 * 2 ^ 21 + va % 2 ^ 21
    else ptePa e + va % 65536
  2 ^ 60 * pteTgt e + 2 ^ 52 * (if pteTgt e = 0 then part else ptePeer e) + pa

/-- The outcome of a translation for an access. -/
inductive Xlat where
  /-- perform at this key -/
  | at (key : Nat)
  /-- a read that returns zero (R218) -/
  | zero
  /-- a fault cause and sub-cause -/
  | bad (cause sub : Nat)
  /-- the answer of the host is outstanding (R232) -/
  | wait
  /-- the walk waits, in the die's walk queue (R220) or at the home of an entry whose line an engine claims (R299); or the link to the peer is
  not up (R436, R456) -/
  | held
  /-- no HBM stack holds the address -/
  | absent
deriving DecidableEq, Repr

/-- Whether the link to a peer is down: it carries nothing until it is trained (R436, R456). -/
def State.linkDown (s : State) (peer : Nat) : Bool := !(SMap.get {} s.links (Config.peerLink peer)).up

/-- The decision of R216 and R218 on the permissions and state of an entry that decides an address. An access of a peer whose link is down
waits. MODEL'S CHOICE (assumption 102): R436 says that the link carries nothing more, and not what becomes of an access made meanwhile. -/
def entryDecision (s : State) (part : Nat) (need : Need) (bytes e va : Nat) : Xlat :=
  let perm := match need with
    | .read => pteR e
    | .write => pteW e
    | .atomic => pteR e && pteW e
    | .fetch => pteX e
  if !perm then .bad 5 0
  else if pteSt e == 1 then (if need = .read && pteZero e then .zero else .bad 6 0)
  else
    let k := physKey part bytes e va
    if pteTgt e == 0 && !s.holds k 1 then .absent
    else if pteTgt e == 2 && s.linkDown (ptePeer e) then .held
    else .at k

/-- The decision on the end of a walk. -/
def WalkEnd.decision (w : WalkEnd) (s : State) (part : Nat) (need : Need) (va : Nat) : Xlat :=
  match w.kind with
  | .absent => .absent
  | .held => .held
  | .format => .bad 4 1
  | .invalid => .bad 4 0
  | _ => entryDecision s part need (if w.level = 2 then 2 ^ 29 else 65536) w.entry va

/-- The TLB entry for an address that meets a condition, in a TLB of a core: its own, its kit's or its die's (R219). -/
def State.tlbFind (s : State) (core asid va : Nat) (p : TlbEntry → Bool) : Option TlbEntry :=
  s.tlb.find? (fun t => t.asid == asid && decide (t.va ≤ va) && decide (va < t.va + t.bytes) && p t &&
    ((t.level == 0 && t.owner == core) || (t.level == 1 && t.owner == core / 16) || (t.level == 2 && t.owner == dieOf core)))

/-- The leaf that a TLB holds for an address. -/
def State.tlbHit (s : State) (core asid va : Nat) : Option TlbEntry := s.tlbFind core asid va (fun t => t.ptr == 0)

/-- The PTROOT and PASID that govern an address of a space: those of an UPDATE where a TLBINV of its range has drained since (R450). -/
def ASpace.governs (x : ASpace) (va : Nat) : Nat × Nat :=
  match x.moved.find? (fun q => decide (q.1 ≤ va) && decide (va < q.1 + q.2.1)) with
  | some q => q.2.2
  | none => (x.ptroot, x.pasid)
/-- The level-1 table from which an address of a space is walked. -/
def State.rootOf (s : State) (part asid va : Nat) : Nat := ((SMap.get {} (s.part part).aspaces asid).governs va).1

/-- The walk of an access of a core, which goes on from the lowest pointer entry that its die's TLB holds (R219, R221). -/
def State.walkFor (s : State) (part core asid va : Nat) : WalkEnd :=
  match s.tlbFind core asid va (fun t => t.ptr == 2) with
  | some t => walkLevel s part 3 (ptePa t.entry.toNat) va
  | none => match s.tlbFind core asid va (fun t => t.ptr == 1) with
    | some t => walkFrom2 s part (ptePa t.entry.toNat) va
    | none => walk s part (s.rootOf part asid va) va

/-- Whether 256 walks of a core's die are outstanding: another waits in the walk queue (R219, R220). -/
def State.walksFull (s : State) (core : Nat) : Bool := decide (256 ≤ (SMap.get [] s.walks (dieOf core)).length)

/-- Translation of a global address for an access of a core in an address space: a TLB that holds the page decides, otherwise a
walk (R213, R216, R218 to R221). -/
def State.translate (s : State) (part core asid : Nat) (va : Nat) (need : Need) : Xlat :=
  if 2 ^ 56 ≤ va then .bad 4 2
  else
    match s.tlbHit core asid va with
    | some t => entryDecision s part need t.bytes t.entry.toNat va
    | none => if s.walksFull core then .held else (s.walkFor part core asid va).decision s part need va

/-- Translation by the CP and the hub's agents, which hold no TLB of a core. -/
def State.translateHub (s : State) (part asid : Nat) (va : Nat) (need : Need) : Xlat :=
  if 2 ^ 56 ≤ va then .bad 4 2
  else (walk s part (s.rootOf part asid va) va).decision s part need va

/-- Remove the entries of a partition's TLBs that meet an address range of an address space: its leaves, and where `ptrs` says so, pointer
entries too (R221, R225). -/
def State.shootdown (s : State) (part asid va n : Nat) (ptrs : Bool) : State :=
  { s with tlb := s.tlb.filter (fun t =>
      !(t.asid == asid && t.va < va + n && va < t.va + t.bytes && (t.ptr == 0 || ptrs) &&
        (s.part part).dies.contains (match t.level with | 1 => t.owner / 16 | 2 => t.owner | _ => dieOf t.owner))) }

/-! ## Fault records (R338, R339) -/

/-- A FAULTID (R338). -/
def faultId (core slot : Nat) (gen count : Byte) : Word :=
  BitVec.ofNat 32 (dieOf core % 4 * 2 ^ 30 + core % 256 * 2 ^ 22 + slot % 64 * 2 ^ 16 + gen.toNat * 256 + count.toNat)

/-- The FAULTID of a record that no slot's group raises: the die, core and GEN that R338 places in it; the slot and the count of faults are
free values (assumption 97). -/
def freeFaultId (core : Nat) (gen : Byte) (tick : Nat) : Word :=
  let r := (Config.freeFaultId tick).toNat
  faultId core (r / 2 ^ 16 % 64) gen (BitVec.ofNat 8 r)

/-- The 64 bytes of a fault record, as a natural (R338). -/
def FaultRec.bytes (r : FaultRec) (seq : Nat) : Nat :=
  seq + r.kind * 2 ^ 64 + r.gen.toNat * 2 ^ 72 + r.cause * 2 ^ 80 + r.sub % 2 ^ 16 * 2 ^ 96 + r.die * 2 ^ 112 +
  r.core * 2 ^ 120 + r.faultid.toNat * 2 ^ 128 + r.lmask.toNat * 2 ^ 160 + r.pc.toNat * 2 ^ 192 + r.addr.toNat * 2 ^ 256 +
  r.gridseq * 2 ^ 320 + r.block * 2 ^ 384 + r.detail.toNat * 2 ^ 448

/-- Whether a partition's ring can take a record (R338). -/
def Partition.ringFree (p : Partition) : Bool := p.fqbase != 0 && (p.fqw - p.fqr).toNat < 2 ^ p.fqlog

/-- The key of the place in a partition's ring for the record that FQW counts. -/
def State.ringKey (s : State) (part : Nat) : Nat :=
  let p := s.part part
  partKey part (p.fqbase + 64 * (p.fqw.toNat % 2 ^ p.fqlog))

/-- The suspended operation record of the copy operation that a fault record names gets the record's SEQ (R341). -/
def State.giveSeq (s : State) (r : FaultRec) (seq : Dword) : State :=
  let k := 256 * r.die + r.core
  let c := s.core k
  let mine := fun (o : CopyOp) => r.kind == 1 && o.susp.any (fun u => u.fid == r.faultid)
  let give := fun (o : CopyOp) => { o with susp := o.susp.map (fun (u : Susp) => { u with seq := seq }) }
  if c.copyq.any mine then s.setCore k { c with copyq := updWhere mine give c.copyq } else s

/-- Write a record at FQW and advance it; its SEQ is the index plus 1. -/
def State.ringWrite (s : State) (part : Nat) (r : FaultRec) : State :=
  let n := (s.part part).fqw
  let s1 := s.hubWrite (s.ringKey part) (bytesOf 64 (r.bytes (n.toNat + 1)))
  (s1.setPart part { (s1.part part) with fqw := n + 1 }).giveSeq r (n + 1)

/-- Post a record: the ring, the die's overflow buffer, or the core itself, in that order; a POOL_LOW record that does not fit
is counted and dropped (R338). -/
def State.postFault (s : State) (part core : Nat) (r : FaultRec) : State :=
  let p := s.part part
  if p.ringFree then s.ringWrite part r
  else if r.kind = 5 then s.setPart part { p with fqlost := bump p.fqlost }
  else
    let o := SMap.get [] s.overflow (dieOf core)
    if o.length < 64 then { s with overflow := SMap.set [] s.overflow (dieOf core) (o ++ [r]) }
    else
      let c := s.core core
      s.setCore core { c with heldFaults := c.heldFaults ++ [r] }

/-- Write waiting records of a partition while the ring has room: the overflow buffers of its dies first, then the records kept
at cores, which move up (R338). -/
def State.drainFaults (s : State) (part : Nat) : Nat → State
  | 0 => s
  | n + 1 =>
    if !(s.part part).ringFree then s
    else
      match (s.part part).dies.find? (fun d => !(SMap.get [] s.overflow d).isEmpty) with
      | none => s
      | some d =>
        match SMap.get [] s.overflow d with
        | [] => s
        | r :: rest =>
          let s1 := ({ s with overflow := SMap.set [] s.overflow d rest }).ringWrite part r
          let s2 := match s1.cores.find? (fun p => dieOf p.1 == d && !p.2.heldFaults.isEmpty) with
            | some (k, c) =>
              match c.heldFaults with
              | [] => s1
              | h :: t => { (s1.setCore k { c with heldFaults := t }) with overflow := SMap.set [] s1.overflow d (rest ++ [h]) }
            | none => s1
          State.drainFaults s2 part n

/-- A group-precise fault: its cause, address, lanes and DETAIL. -/
structure GFault where
  cause : Nat
  sub : Nat := 0
  addr : Nat := 0
  lanes : Mask := 0
  detail : Nat := 0
deriving DecidableEq, Repr

/-- TAKING A GROUP-PRECISE FAULT (R431): the group is SUSPENDED under a new FAULTID, its fault count rises, FAULTINFO names the
cause, PC, address and lanes, and a KIND 1 record is posted. Nothing else of the group changes. -/
def State.raise (s : State) (core slot : Nat) (f : GFault) : State :=
  let c := s.core core
  let g := c.group slot
  let b := c.block g.blk
  let n := g.faults + 1
  let fid := faultId core slot c.gen n
  let info := SMap.set 0 (SMap.set 0 (SMap.set 0 (SMap.set 0 (SMap.set 0 (SMap.set 0 []
      0 (BitVec.ofNat 32 (f.cause + f.sub * 65536)))
      1 (g.pc.setWidth 32)) 2 (g.pc.extractLsb' 32 32))
      3 (BitVec.ofNat 32 f.addr)) 4 (BitVec.ofNat 32 (f.addr / 2 ^ 32))) 5 f.lanes
  let g' := { g with
    st := .suspended fid, faults := n, faultinfo := info,
    susp := some { fid, pc := g.pc, cause := f.cause, sub := f.sub, addr := BitVec.ofNat 64 f.addr, lmask := f.lanes,
                   detail := BitVec.ofNat 64 f.detail } }
  (s.setGroup core slot g').postFault b.part core
    { kind := 1, gen := c.gen, cause := f.cause, sub := f.sub, die := dieOf core, core := core % 256, faultid := fid,
      lmask := f.lanes, pc := g.pc, addr := BitVec.ofNat 64 f.addr, gridseq := b.gridseq, block := b.b,
      detail := BitVec.ofNat 64 f.detail }

/-- THE RETURN FROM A GROUP-PRECISE FAULT (R434): the group becomes RUNNING at a PC, with y invalid (R76). -/
def Group.resumeAt (g : Group) (pc : Dword) : Group :=
  { g with st := .running, susp := none, pc := pc, y0v := false, y1v := false }

/-- A core-level fault (R435): the core's count rises and a KIND 2 record with slot field 63 is posted. -/
def State.coreFault (s : State) (core blk cause sub addr : Nat) (detail : Nat) : State :=
  let c := s.core core
  let b := c.block blk
  let n := c.coreFaults + 1
  (s.setCore core { c with coreFaults := n }).postFault b.part core
    { kind := 2, gen := c.gen, cause, sub, die := dieOf core, core := core % 256, faultid := faultId core 63 c.gen n,
      lmask := 0, pc := 0, addr := BitVec.ofNat 64 addr, gridseq := b.gridseq, block := b.b, detail := BitVec.ofNat 64 detail }

/-- DETAIL of a core-level fault that names nothing (R338). -/
def detailNone : Nat := 0xFFFFFFFFFFFF

/-! ## The journal (R336, R337) -/

/-- Journal states. -/
inductive JState where
  | accepted | dispatched | retired | faulted
deriving DecidableEq, Repr

/-- The code of a journal state (R336). -/
def JState.code : JState → Nat
  | .accepted => 1
  | .dispatched => 2
  | .retired => 3
  | .faulted => 4

/-- Write one record at the head, to device memory and to the host mirror (R336). -/
def State.journalRaw (s : State) (q ver st typ reason flags part : Nat) (ridx : Dword) (data : Nat) : State :=
  let seq := s.jhead + 1
  let r := seq + q * 2 ^ 64 + ver * 2 ^ 80 + st * 2 ^ 88 + typ * 2 ^ 96 + reason * 2 ^ 104 + flags * 2 ^ 112 + part * 2 ^ 120 +
    ridx.toNat * 2 ^ 128 + data % 2 ^ 64 * 2 ^ 192
  let o := 32 * ((seq - 1) % 65536)
  let s1 := s.hubWrite (s.jbase + o) (bytesOf 32 r)
  let m := (s.part part).jmirror.toNat
  let s2 := if m = 0 then s1 else s1.hubWrite (2 ^ 60 + m + o) (bytesOf 32 r)
  { s2 with jhead := seq }

/-- R337: while the slot about to be overwritten holds the latest record of an unfinished command, that record is written again
at the head with CARRY set. Only a LAUNCH and a COPY have been journaled DISPATCHED (R336). -/
def State.carry (s : State) : Nat → State
  | 0 => s
  | n + 1 =>
    match s.commands.find? (fun p => p.2.latestSeq != 0 && p.2.latestSeq % 65536 == (s.jhead + 1) % 65536) with
    | some (id, _) =>
      let c := s.command id
      let st := if c.st = .dispatched ∧ (c.typ = 1 ∨ c.typ = 2) then 2 else 1
      let s1 := s.journalRaw c.q c.ver st c.typ 0 1 c.part c.ridx (if c.typ = 8 then natOf ((c.raw.drop 8).take 8) else 0)
      State.carry (s1.setCommand id { c with latestSeq := s1.jhead }) n
    | none => s

/-- Write the record of a state that a command enters (R336), after a carry record where R337 asks for one. -/
def State.journal (s : State) (id : Nat) (st : JState) (reason data : Nat) : State :=
  let s0 := s.carry (s.commands.length + 1)
  let c := s0.command id
  let s1 := s0.journalRaw c.q c.ver st.code c.typ reason 0 c.part c.ridx data
  s1.setCommand id { c with latestSeq := s1.jhead, acceptSeq := if st = .accepted then s1.jhead else c.acceptSeq }

/-- A command leaves the set of unfinished commands (R328). -/
def State.finish (s : State) (id : Nat) : State := { s with commands := SMap.del s.commands id }

end Sys2Proof.Machine
end

