-- ==== Sys2Proof/Machine/Operands.lean ====
section
/-!
DEFINITION. Every operand form: lanes and guards (R18, R19, R51), sources with constants and cross-lane reads (R53 to R55), the
last-result slots (R75, R76), destinations, and the front end's checks of a word and the common end of a register form
(R60, R94, R130).
-/

namespace Sys2Proof.Machine

/-! ## Lanes and guards -/

/-- The predicate of every lane; p7 always reads 1 (R51, R74). -/
def Group.predMask (g : Group) (n : Nat) : Mask := if n = 7 then 0xFFFFFFFF else SMap.get 0 g.p n
/-- ACT: the active mask with the lanes where the guard holds (R51). -/
def Group.act (g : Group) (x : Guard) : Mask :=
  if x.neg then g.m &&& ~~~(g.predMask x.pred.toNat) else g.m &&& g.predMask x.pred.toNat
/-- Whether a lane holds a thread (R19). -/
def Group.occupied (g : Group) (l : Nat) : Bool := SMap.get 0 g.tids l != 0
/-- The R16 index of the thread in a lane; 0 in a vacant lane. -/
def Group.tid (g : Group) (l : Nat) : Nat := SMap.get 0 g.tids l - 1
/-- Threads of a block, helpers apart. -/
def Block.nthreads (b : Block) : Nat := b.bx * b.by_ * b.bz
/-- The lanes that hold helper threads: t at or above the thread count (R18). -/
def Group.helpers (g : Group) (b : Block) : Mask :=
  maskOf ((List.range 32).filter (fun l => g.occupied l && decide (b.nthreads ≤ g.tid l)))

/-! ## Constants (R54) -/

/-- The 32-bit pattern of a constant code. -/
def const32 (n : BitVec 4) : Word :=
  match n.toNat with
  | 0 => 0
  | 1 => 1
  | 2 => 0xFFFFFFFF
  | 3 => 0x3F800000
  | 4 => 0x3F000000
  | 5 => 0x40000000
  | 6 => 0xBF800000
  | 7 => 0xBF000000
  | 8 => 0xC0000000
  | 9 => 0x40800000
  | 10 => 0x3E800000
  | 11 => 0x7F800000
  | 12 => 2
  | 13 => 16
  | 14 => 31
  | _ => 0x80000000

/-- A constant in an element of `w` bits: the value in the element's floating format for a floating constant, otherwise the low
bits of the pattern. -/
def constElem (f : Option FFmt) (w : Nat) (n : BitVec 4) : Nat :=
  match floatConst n, f with
  | true, some fmt => fmt.narrow .rne false (f32.value (const32 n).toNat)
  | _, _ => (const32 n).toNat % 2 ^ w

/-- A constant read by a 64-bit operation: the same value in f64, or the pattern sign-extended. -/
def const64 (n : BitVec 4) : Dword :=
  if floatConst n then BitVec.ofNat 64 (f64.narrow .rne false (f32.value (const32 n).toNat)) else (const32 n).signExtend 64

/-- A constant read by a packed 16-bit operation. -/
def constHalves (f : FFmt) (n : BitVec 4) : Word :=
  let h := constElem (some f) 16 n
  BitVec.ofNat 32 (h + 65536 * h)

/-! ## Reading registers -/

/-- Key of a v or w register of a lane. -/
def vkey (r l : Nat) : Nat := 32 * r + l

/-- A v register of a lane; a vacant lane reads 0 (R19). -/
def Group.vreg (g : Group) (r l : Nat) : Word := if g.occupied l then SMap.get 0 g.v (vkey r l) else 0
/-- A w register of a lane. -/
def Group.wreg (g : Group) (r l : Nat) : Word := if g.occupied l then SMap.get 0 g.w (vkey r l) else 0
/-- A k register. -/
def Group.kreg (g : Group) (r : Nat) : Word := SMap.get 0 g.k r
/-- A predicate bit of a lane as 0 or 1. -/
def Group.preg (g : Group) (r l : Nat) : Word := boolWord ((g.predMask r).getLsbD l)

/-- A 32-bit source in a lane, other than a register of another lane (R53). -/
def Group.rd (g : Group) (o : Opnd) (l : Nat) : Word :=
  match o with
  | .v n => g.vreg n.toNat l
  | .w n => g.wreg n.toNat l
  | .y hi => if hi then SMap.get 0 g.y1 l else SMap.get 0 g.y0 l
  | .p n => g.preg n.toNat l
  | .k n => g.kreg n.toNat
  | .const n => const32 n
  | .discard => 0
  | .hnd _ => 0
  | .xl n => g.vreg n.toNat l

/-- The source lane that a cross-lane control gives a lane; none where the bound delivers 0 (R55). -/
def xlLane (c : BitVec 10) (l : Nat) : Option Nat :=
  let n := fldC c 2 5
  match fldC c 7 3 with
  | 1 => some (l ^^^ 1)
  | 2 => some (l ^^^ 2)
  | 3 => some (l ^^^ 3)
  | 4 => some (4 * (l / 4) + n)
  | 5 =>
    let s : Int := (l : Int) + (if 16 ≤ n then (n : Int) - 32 else n)
    if 0 ≤ s ∧ s < 32 then some s.toNat
    else match fldC c 0 2 with
      | 0 => some (s % 32).toNat
      | 1 => if s < 0 then some 0 else some 31
      | 2 => none
      | _ => some l
  | 6 => some n
  | _ => some (l ^^^ n)

/-- A 32-bit source of a two-source form with control `c` (R55). -/
def Group.rdX (g : Group) (c : BitVec 10) (o : Opnd) (l : Nat) : Word :=
  match o with
  | .xl n => match xlLane c l with
    | some s => g.vreg n.toNat s
    | none => 0
  | o => g.rd o l

/-- A packed 16-bit source with control `c`: a constant stands in each half in the half's format (R54). -/
def Group.rdH (g : Group) (f : FFmt) (c : BitVec 10) (o : Opnd) (l : Nat) : Word :=
  match o with
  | .const n => constHalves f n
  | o => g.rdX c o l

/-- A register pair of a lane, the lower register in the low half (R122). -/
def Group.rd64 (g : Group) (o : Opnd) (l : Nat) : Dword :=
  match o with
  | .v n => g.vreg (n.toNat + 1) l ++ g.vreg n.toNat l
  | .w n => g.wreg (n.toNat + 1) l ++ g.wreg n.toNat l
  | .k n => g.kreg (n.toNat + 1) ++ g.kreg n.toNat
  | .const n => const64 n
  | _ => 0

/-- Word `i` of a pair or quad source; a constant gives every element the same value (R54). -/
def Group.rdSpan (g : Group) (o : Opnd) (i l : Nat) : Word :=
  match o with
  | .v n => g.vreg (n.toNat + i) l
  | .w n => g.wreg (n.toNat + i) l
  | .k n => g.kreg (n.toNat + i)
  | .const n => const32 n
  | o => g.rd o l

/-- Store or atomic data of `n` registers as a natural (R230). -/
def Group.rdData (g : Group) (o : Opnd) (n l : Nat) : Nat :=
  match n with
  | 1 => (g.rd o l).toNat
  | 2 => (g.rd64 o l).toNat
  | _ => (g.rdSpan o 0 l).toNat + (g.rdSpan o 1 l).toNat * 2 ^ 32 + (g.rdSpan o 2 l).toNat * 2 ^ 64 +
      (g.rdSpan o 3 l).toNat * 2 ^ 96

/-! ## Writing registers -/

/-- Write one register in the lanes of a mask, in ascending order. -/
def writeLanes (m : SMap Word) (r : Nat) (act : Mask) (f : Nat → Word) : SMap Word :=
  (lanesOf act).foldl (fun m l => SMap.set 0 m (vkey r l) (f l)) m

/-- The mask that holds bit 0 of `f` in the lanes of `act` and the old bits elsewhere. -/
def mergeBits (old act : Mask) (f : Nat → Word) : Mask :=
  (old &&& ~~~act) ||| maskOf ((lanesOf act).filter (fun l => (f l).getLsbD 0))

/-- Write a predicate in the lanes of a mask; a write to p7 is discarded (R53). -/
def Group.setPred (g : Group) (n : Nat) (act : Mask) (f : Nat → Word) : Group :=
  if n = 7 then g else { g with p := SMap.set 0 g.p n (mergeBits (SMap.get 0 g.p n) act f) }

/-- Write a 32-bit result in the lanes of a mask (R53, R92). -/
def Group.write (g : Group) (o : Opnd) (act : Mask) (f : Nat → Word) : Group :=
  match o with
  | .v n => { g with v := writeLanes g.v n.toNat act f }
  | .w n => { g with w := writeLanes g.w n.toNat act f }
  | .p n => g.setPred n.toNat act f
  | _ => g

/-- Write word `i` of a pair or quad. -/
def Group.writeWord (g : Group) (o : Opnd) (i : Nat) (act : Mask) (f : Nat → Word) : Group :=
  match o with
  | .v n => { g with v := writeLanes g.v (n.toNat + i) act f }
  | .w n => { g with w := writeLanes g.w (n.toNat + i) act f }
  | _ => g

/-- Write a 64-bit result in the lanes of a mask. -/
def Group.write64 (g : Group) (o : Opnd) (act : Mask) (f : Nat → Dword) : Group :=
  (g.writeWord o 0 act (fun l => (f l).setWidth 32)).writeWord o 1 act (fun l => (f l).extractLsb' 32 32)

/-- Write a quad in the lanes of a mask. -/
def Group.write128 (g : Group) (o : Opnd) (act : Mask) (f : Nat → Nat → Word) : Group :=
  (((g.writeWord o 0 act (f 0)).writeWord o 1 act (f 1)).writeWord o 2 act (f 2)).writeWord o 3 act (f 3)

/-- Write a k register once. -/
def Group.writeK (g : Group) (n : Nat) (x : Word) : Group := { g with k := SMap.set 0 g.k n x }

/-! ## The last-result slots (R75, R76) -/

/-- Invalidate y0 and y1 (R76). -/
def Group.yInvalid (g : Group) : Group := { g with y0v := false, y1v := false }

/-- G = 0b1111: the guard that holds in no lane; such a word pushes nothing (R51, R75). -/
def guardNever (x : Guard) : Bool := x.neg && x.pred == 7

/-- What a destination holds after the instruction, for the lanes outside ACT: 0 for discard, 0 or 1 for p (R75). -/
def Group.holds (g : Group) (o : Opnd) (l : Nat) : Word :=
  match o with
  | .v n => SMap.get 0 g.v (vkey n.toNat l)
  | .w n => SMap.get 0 g.w (vkey n.toNat l)
  | .p n => g.preg n.toNat l
  | .k n => g.kreg n.toNat
  | _ => 0

/-- A y slot of 32 lanes. -/
def ySlot (f : Nat → Word) : SMap Word := (List.range 32).foldl (fun m l => SMap.set 0 m l (f l)) []

/-- Push a 32-bit result; `g` already holds the destination's new value (R75). -/
def Group.push32 (g : Group) (x : Guard) (o : Opnd) (act : Mask) (f : Nat → Word) : Group :=
  if guardNever x then g
  else { g with
    y1 := g.y0, y1v := g.y0v,
    y0 := ySlot (fun l => if act.getLsbD l then f l else g.holds o l), y0v := true }

/-- The destination word `i` of a pair after the instruction. -/
def Group.holdsWord (g : Group) (o : Opnd) (i l : Nat) : Word :=
  match o with
  | .v n => SMap.get 0 g.v (vkey (n.toNat + i) l)
  | .w n => SMap.get 0 g.w (vkey (n.toNat + i) l)
  | .k n => g.kreg (n.toNat + i)
  | _ => 0

/-- Push a 64-bit result: y1 the low half, y0 the high half (R75). -/
def Group.push64 (g : Group) (x : Guard) (o : Opnd) (act : Mask) (f : Nat → Dword) : Group :=
  if guardNever x then g
  else { g with
    y1 := ySlot (fun l => if act.getLsbD l then (f l).setWidth 32 else g.holdsWord o 0 l), y1v := true,
    y0 := ySlot (fun l => if act.getLsbD l then (f l).extractLsb' 32 32 else g.holdsWord o 1 l), y0v := true }

/-! ## The front end's checks of a word (R60) -/

/-- Whether an operand names a v register at or above `.regs` (R53). -/
def aboveRegs (regs : Nat) (u : Use) : Bool :=
  match u.o with
  | .v n => decide (regs < n.toNat + u.regs)
  | .xl n => decide (regs ≤ n.toNat)
  | _ => false

/-- Whether a source names an invalid y slot, and which: 0 for y0, 1 for y1 (R53, R60 check 2). -/
def yFault (g : Group) (uses : List Use) : Option Nat :=
  if uses.any (fun u => u.o == .y false && !u.dst && !g.y0v) then some 0
  else if uses.any (fun u => u.o == .y true && !u.dst && !g.y1v) then some 1
  else none

/-- What a front-end word finds when it issues: the state, the core and slot, the core, the group, its block, the guard and
ACT (R51). -/
structure Fe where
  s : State
  core : Nat
  slot : Nat
  c : Core
  g : Group
  b : Block
  x : Guard
  act : Mask

/-- V: the lanes of ACT that are not helper lanes (R167, R342). -/
def Fe.v (e : Fe) : Mask := e.act &&& ~~~(e.g.helpers e.b)

/-- The state with the issuing group replaced. -/
def Fe.put (e : Fe) (g : Group) : State := e.s.setGroup e.core e.slot g

/-- The issuing group moves to PC + 8 (R50). -/
def Group.next (g : Group) : Group := { g with pc := g.pc + 8 }

/-- A group-precise fault of the issuing group, as the next state (R431). -/
def Fe.fault (e : Fe) (f : GFault) : Host.Outcome State Fault Refusal := .next (e.s.raise e.core e.slot f)

/-- The word cannot enter its pipe and waits at issue (R27, R342): nothing changes but the model's mark of it. A group whose word would
wait so is not eligible, so no step of a run issues it (assumption 43). -/
def Fe.waitIssue (e : Fe) : Host.Outcome State Fault Refusal := .next { e.s with stalled := true }

/-- The group waits, not eligible, at this word (R27). -/
def Fe.waitFor (e : Fe) (w : WaitWhy) : Host.Outcome State Fault Refusal := .next (e.put { e.g with st := .waiting w })

/-- A change to the group, then PC + 8. -/
def Fe.done (e : Fe) (g : Group) : Host.Outcome State Fault Refusal := .next (e.put g.next)

/-- What the current cursor names as the issuing group. -/
def State.fe (s : State) (x : Guard) : Fe :=
  let c := s.core s.curCore
  let g := c.group s.curSlot
  { s, core := s.curCore, slot := s.curSlot, c, g, b := c.block g.blk, x, act := g.act x }

/-- Types that reduced service converts: f32, bf16 and the integers (R452). -/
def reducedType (t : Nat) : Bool := t == 0 || t == 3 || 0x10 ≤ t

/-- The forms that reduced service does not have: f64 and h16 forms, conversions that name another floating type, QCVT, QBLK and
DQCVT (R452). MMA is checked in its own meaning. -/
def notReduced : Instr → Bool
  | .dadd _ | .dmul _ | .dfma _ | .dcmp _ | .dmin _ | .dmax _ => true
  | .hadd2 _ | .hsub2 _ | .hmul2 _ | .hfma2 _ | .hmin2 _ | .hmax2 _ | .hcmp2 _ | .ffmah _ | .dot2h _ => true
  | .qcvt _ | .qblk _ | .dqcvt _ => true
  | .cvt x | .cvt64 x => !(reducedType (fldC x.c 5 5) && reducedType (fldC x.c 0 5))
  | _ => false

/-- Whether the service state refuses a form: DEVSTATE reads REDUCED and the form is not one of reduced service (R452). -/
def State.refuses (s : State) (i : Instr) : Bool := s.devstate == 1 && notReduced i

/-- The issue of a front-end word: check 1 of R60 with the block's `.regs`, then check 2, then the effect. -/
def frontEnd (i : Instr) (x : Guard) (s : State) (eff : Fe → Host.Outcome State Fault Refusal) :
    Host.Outcome State Fault Refusal :=
  let e := s.fe x
  let f := form i
  if !(f.ok && f.uses.all (·.ok)) || f.uses.any (aboveRegs e.b.kd.regs) || s.refuses i then e.fault { cause := 1 }
  else match yFault e.g f.uses with
    | some n => e.fault { cause := 2, sub := n }
    | none => eff e

/-! ## The common end of register forms (R94, R130) -/

/-- Write a 32-bit result in ACT, push y, and go to PC + 8. Every source has been read before. -/
def Fe.result (e : Fe) (d : Opnd) (f : Nat → Word) : Host.Outcome State Fault Refusal :=
  .next (e.put (((e.g.write d e.act f).push32 e.x d e.act f).next))

/-- Write a 64-bit result in ACT, push y, and go to PC + 8. -/
def Fe.result64 (e : Fe) (d : Opnd) (f : Nat → Dword) : Host.Outcome State Fault Refusal :=
  .next (e.put (((e.g.write64 d e.act f).push64 e.x d e.act f).next))

/-- A k result, written once where ACT is not empty, pushed as a 32-bit result (R90, R178). -/
def Fe.resultK (e : Fe) (n : Nat) (x : Word) : Host.Outcome State Fault Refusal :=
  let g := if e.act = 0 then e.g else e.g.writeK n x
  .next (e.put ((g.push32 e.x (.k (BitVec.ofNat 6 n)) e.act (fun _ => x)).next))

end Sys2Proof.Machine
end

