-- ==== Sys2Proof/Machine/Gangs.lean ====
section
/-!
DEFINITION. The live threads that barriers count (R375), and the gang barriers' arrival sets and records (R417 to R419, R427).
-/

namespace Sys2Proof.Machine

/-! ## Threads (R375) -/

/-- The home threads of a block with LIVE set. -/
def Block.live (b : Block) : List Nat := (b.threads.filter (fun p => p.2.live)).map (·.1)
/-- The home threads in some lanes of a group. -/
def Group.threadsIn (g : Group) (m : Mask) : List Nat := ((lanesOf m).filter g.occupied).map g.tid
/-- Whether a list holds every element of another. -/
def covers (l : List Nat) (r : List Nat) : Bool := r.all (fun t => l.contains t)

/-- A waiting group departs: it becomes eligible past the word it waited at. -/
def Group.depart (g : Group) : Group := { g with st := .running, pc := g.pc + 8 }

/-- Depart the groups in some slots that wait for a reason. -/
def Core.departAll (c : Core) (slots : List Nat) (why : WaitWhy) : Core :=
  slots.foldl (fun c i => if (c.group i).st = .waiting why then c.setGroup i (c.group i).depart else c) c

/-! ## Gang barriers (R417 to R419) -/

/-- The GANGRANK of a block (R16). -/
def Block.rank (b : Block) : Nat := if b.gangLaunch then b.b % b.gangSize else 0
/-- The gang of a block. -/
def Block.gang (b : Block) : Nat := b.b / b.gangSize

/-- A phase completes for one block: GPH toggles, and the groups that waited in this phase depart; groups in an open set of the
same name wait for the next phase (R418). -/
def Core.gbarDepart (c : Core) (blk name : Nat) : Core :=
  let b := c.block blk
  let next := ((b.gsets.filter (fun q => q.name == name)).flatMap (·.waiters))
  let c := c.setBlock blk { b with gph := b.gph ^^^ (1#16 <<< name) }
  c.departAll (b.slots.filter (fun i => !next.contains i)) (.gbar name)

/-- Mark the open sets of a block that every live thread has reached; a block without live threads drops its sets (R418, R419). -/
def Block.gangMarks (b : Block) : Block :=
  if b.live.isEmpty then { b with gsets := [] }
  else { b with gsets := b.gsets.map (fun q => { q with full := covers q.arrived b.live }) }

/-- Free the set of a name: the block has arrived. -/
def State.gangSetFree (s : State) (core blk name : Nat) : State :=
  let b := (s.core core).block blk
  s.setBlock core blk { b with gsets := b.gsets.filter (fun q => q.name != name) }

/-- A complete set of a block: in a gang of one the phase completes at once; otherwise the GANGRANK bit is set in the gang's
record, binding one if the cluster has one free, and else the set stays open (R418, R419). -/
def State.gangBind (s : State) (core blk name : Nat) : State :=
  let b := (s.core core).block blk
  if !b.gangLaunch || b.gangSize == 1 then
    let s := s.gangSetFree core blk name
    s.setCore core ((s.core core).gbarDepart blk name)
  else
    let d := dieOf core
    let l := SMap.get [] s.gangs d
    let mine := fun (r : GangRec) => r.cmd == b.cmd && r.gang == b.gang && r.name == name
    match l.find? mine with
    | some r =>
      if r.arrived.contains b.rank then s
      else { (s.gangSetFree core blk name) with
        gangs := SMap.set [] s.gangs d (updWhere mine (fun r => { r with arrived := r.arrived ++ [b.rank] }) l) }
    | none =>
      if 16 ≤ l.length then s
      else { (s.gangSetFree core blk name) with
        gangs := SMap.set [] s.gangs d (l ++ [{ cmd := b.cmd, gang := b.gang, name, arrived := [b.rank] }]) }

/-- The resident blocks of a gang. -/
def State.membersOf (s : State) (cmd gang : Nat) : List (Nat × Nat) :=
  s.cores.flatMap (fun p => (p.2.blocks.filter (fun q =>
    q.2.cmd == cmd && q.2.gangLaunch && q.2.gang == gang)).map (fun q => (p.1, q.1)))

/-- Complete the phase of a gang's record when every member with live threads has arrived (R418). -/
def State.gangComplete (s : State) (d : Nat) (r : GangRec) : State :=
  let ms := s.membersOf r.cmd r.gang
  if ms.all (fun q => let b := (s.core q.1).block q.2; r.arrived.contains b.rank || b.live.isEmpty) then
    let s := ms.foldl (fun s q => s.setCore q.1 ((s.core q.1).gbarDepart q.2 r.name)) s
    { s with gangs := SMap.set [] s.gangs d ((SMap.get [] s.gangs d).filter (fun q => q != r)) }
  else s

/-- The complete sets of the blocks of a die; those of a block that a pre-emption has reached are saved with it (R427). -/
def State.fullSets (s : State) (d : Nat) : List (Nat × Nat × Nat) :=
  (s.cores.filter (fun p => dieOf p.1 == d)).flatMap (fun p => (p.2.blocks.filter (fun q => q.2.preempt.isNone)).flatMap (fun q =>
    (q.2.gsets.filter (·.full)).map (fun g => (p.1, q.1, g.name))))

/-- Bind the complete sets of a die and complete its records, until nothing is left that a freed record could take. -/
def State.gangSettle (s : State) (d : Nat) : Nat → State
  | 0 => s
  | n + 1 =>
    let s := (s.fullSets d).foldl (fun s q => s.gangBind q.1 q.2.1 q.2.2) s
    let s := (SMap.get [] s.gangs d).foldl (fun s r => s.gangComplete d r) s
    State.gangSettle s d n

/-- What follows an arrival at a gang barrier, an EXIT or a retirement on a die (R415, R418, R419). -/
def State.gangCheck (s : State) (core blk : Nat) : State :=
  let s := s.setBlock core blk ((s.core core).block blk).gangMarks
  s.gangSettle (dieOf core) ((s.fullSets (dieOf core)).length + 1)

end Sys2Proof.Machine
end

