-- ==== Sys2Proof/Machine/Blocks.lean ====
section
/-!
DEFINITION. Freeing what a block holds, chime records, block kills, and the faults that kill (R26, R404, R424, R435, R436,
R304, R339), and a core's power draw (R11, R13).
-/

namespace Sys2Proof.Machine

/-! ## Placed images -/

/-- The elements that a placed image holds. -/
def Core.elemsOf (c : Core) (pi : Nat) : List Nat := (c.elems.filter (fun p => p.2.owner == pi + 1)).map (·.1)

/-- Free a placed image: its tokens are discarded, its elements and nodes become free (R404). -/
def Core.dropPlaced (c : Core) (pi : Nat) : Core :=
  let es := c.elemsOf pi
  { c with
    elems := c.elems.filter (fun p => !es.contains p.1)
    placed := SMap.del c.placed pi
    hops := c.hops.filter (fun h => match h.1 with
      | .chan e _ => !es.contains e
      | .port q _ _ => q != pi)
    probes := c.probes.filter (fun q => q.placed != pi) }

/-- The placed images of a block: its regions and the copies that serve its groups. -/
def Core.placedOf (c : Core) (blk : Nat) : List Nat := (c.placed.filter (fun p => p.2.blk == blk)).map (·.1)

/-- The writer number of a node's writes, above every group slot. -/
def nodeSlot (pi ni : Nat) : Nat := 64 + 32 * pi + ni
/-- The writers of a block on its core: its groups' slots, and the nodes of its placed images. -/
def Core.writersOf (c : Core) (blk : Nat) : List Nat :=
  (c.block blk).slots ++ (c.placedOf blk).flatMap (fun n => (SMap.get {} c.placed n).nodes.map (fun q => nodeSlot n q.1))

/-! ## Resources of a block (R26) -/

/-- `.scratch` rounded up to 256 bytes (R23). -/
def Block.scratchBytes (b : Block) : Nat := (b.kd.scratch + 255) / 256 * 256

/-- Clear the lane private bytes of a block in every physical lane (R211). -/
def Core.clearLanes (c : Core) (b : Block) : Core :=
  { c with laneMem := (List.range 32).foldl (fun m h => clearRange m (2048 * h + b.lbase) (b.n * b.kd.lane)) c.laneMem }

/-- Free everything that a block holds on its core: slots, scratchpad, lane private bytes, barriers, windows, reservations,
tiles, queued operations, regions and copies. The fault count of a slot stays (R428). -/
def Core.freeBlock (c : Core) (blk : Nat) (killed : Bool) : Core :=
  let b := c.block blk
  let c := (c.placedOf blk).foldl Core.dropPlaced c
  let c := b.slots.foldl (fun c i => c.setGroup i { faults := (c.group i).faults }) c
  let tiles := (c.claims.filter (fun p => p.2 == blk + 1)).map (·.1)
  let ops := (c.copyq.filter (fun o => o.blk == blk)).map (·.id) ++ (c.tileq.filter (fun o => o.blk == blk)).map (·.id)
  let c := c.clearLanes b
  { c with
    blocks := SMap.del c.blocks blk
    scratch := clearRange c.scratch b.sbase b.scratchBytes
    marks := clearRange c.marks (b.sbase / 4) (b.scratchBytes / 4)
    bars := c.bars.filter (fun r => r.blk != blk)
    windows := c.windows.filter (fun w => w.blk != blk)
    resv := c.resv.filter (fun r => r.blk != blk)
    claims := c.claims.filter (fun p => p.2 != blk + 1)
    matq := c.matq.filter (fun q => q.blk != blk)
    drain := c.drain.filter (fun p => !tiles.contains p.1)
    copyq := c.copyq.filter (fun o => o.blk != blk)
    tileq := c.tileq.filter (fun o => o.blk != blk)
    dests := c.dests.filter (fun d => !ops.contains d.1)
    requests := updWhere (fun (r : Request) => r.blk == blk && b.slots.contains r.slot) (fun r => { r with slot := 63 }) c.requests
    placerq := c.placerq.filter (fun r => !b.slots.contains r.slot)
    lastLeft := some (b.cmd, killed)
    lastIssued := match c.lastIssued with
      | some i => if b.slots.contains i then none else some i
      | none => none }

/-! ## Chime records (R424) -/

/-- The chime record of a block as a natural. -/
def chimeBytes (b : Block) (killed : Bool) : Nat :=
  b.gridseq + b.b * 2 ^ 64 + (if killed then 1 else 0) * 2 ^ 128 + b.satn * 2 ^ 192 + b.nann * 2 ^ 256 + b.skipn * 2 ^ 320

/-- Write the chime record; one that finds the ring full is dropped and counted. -/
def State.chime (s : State) (b : Block) (killed : Bool) : State :=
  let p := s.part b.part
  if p.chmbase != 0 && (p.chmw - p.chmr).toNat < 2 ^ p.chmlog then
    let s1 := s.hubWrite (partKey b.part (p.chmbase + 64 * (p.chmw.toNat % 2 ^ p.chmlog))) (bytesOf 64 (chimeBytes b killed))
    s1.setPart b.part { (s1.part b.part) with chmw := p.chmw + 1 }
  else s.setPart b.part { p with chmlost := bump p.chmlost }

/-! ## Leaving a core -/

/-- A block leaves the list of blocks that a pre-emption waits for (R439). -/
def State.unawait (s : State) (part core blk : Nat) : State :=
  let p := s.part part
  s.setPart part { p with preemptWait := p.preemptWait.filter (fun (q : Nat × Nat × Nat) => !(q.1 == core && q.2.1 == blk)) }

/-- The poison of the scratchpad and lane private bytes of a block goes with them. -/
def State.unpoison (s : State) (core : Nat) (b : Block) : State :=
  if s.poisoned.isEmpty then s
  else
    let sp := spKey core b.sbase
    { s with poisoned := s.poisoned.filter (fun w => !(sp ≤ w && w < sp + b.scratchBytes) &&
        !((List.range 32).any (fun h =>
          let l := laneWordKey core (2048 * h + b.lbase)
          l ≤ w && w < l + b.n * b.kd.lane))) }

/-- A block that a pre-emption has reached leaves without being saved: its save area returns to the pool, unless another block of its
gang still uses it. -/
def State.returnArea (s : State) (b : Block) : State :=
  match b.preempt with
  | none => s
  | some r =>
    let p := s.part b.part
    let used := s.cores.any (fun c => c.2.blocks.any (fun q => q.2.part == b.part && q.2.preempt.any (fun w => w.area == r.area))) ||
      p.saved.any (fun q => q.2.area == r.area)
    if used then s else s.setPart b.part { p with csa := p.csa ++ [(r.area, r.size)] }

/-- A block leaves its core: a chime record, its resources freed, one more block of its grid finished (R26, R424, R436). -/
def State.leave (s : State) (core blk : Nat) (killed : Bool) : State :=
  let c := s.core core
  let b := c.block blk
  let ops := (c.copyq.filter (fun o => o.blk == blk)).map (·.id) ++ (c.tileq.filter (fun o => o.blk == blk)).map (·.id) ++
    (c.matq.filter (fun q => q.blk == blk)).map (·.id)
  let wids := (c.windows.filter (fun w => w.blk == blk)).map (·.wid)
  let s := ((s.chime b killed).releaseClaims core ops).unregister core wids
  let s := (s.setCore core ((s.core core).freeBlock blk killed)).unpoison core b
  let s := (s.unawait b.part core blk).returnArea b
  if s.hasCommand b.cmd then
    let m := s.command b.cmd
    s.setCommand b.cmd { m with finished := m.finished + 1 }
  else s

/-- The resident blocks of a block's gang, itself among them, as core and block table index. -/
def State.gangBlocks (s : State) (core blk : Nat) : List (Nat × Nat) :=
  let b := (s.core core).block blk
  if !b.gangLaunch then [(core, blk)]
  else s.cores.flatMap (fun p => (p.2.blocks.filter (fun q =>
      q.2.cmd == b.cmd && q.2.gangLaunch && q.2.b / b.gangSize == b.b / b.gangSize)).map (fun q => (p.1, q.1)))

/-- Discard the gang barrier records of a gang (R427). -/
def State.dropGangRecs (s : State) (cmd gang : Nat) : State :=
  let l := s.gangs.map (fun p => (p.1, p.2.filter (fun r => !(r.cmd == cmd && r.gang == gang))))
  { s with gangs := l.filter (fun p => !p.2.isEmpty) }

/-- A block that a pre-emption has saved is killed: its chime record is written (R424, R436). -/
def State.killSaved (s : State) (part n reason : Nat) : State :=
  let p := s.part part
  let x := SMap.get {} p.saved n
  let s1 := s.setPart part { p with
    saved := SMap.del p.saved n
    csa := p.csa ++ [(x.area, x.size)] }
  let s2 := x.blocks.foldl (fun s b => s.chime b.block true) s1
  if s2.hasCommand x.cmd then
    let m := s2.command x.cmd
    s2.setCommand x.cmd { m with
      finished := m.finished + x.blocks.length
      failed := m.failed.or (x.blocks.head?.map (fun b => (reason, BitVec.ofNat 64 b.block.b))) }
  else s2

/-- The saved blocks of a gang, by their number among a partition's saved blocks. -/
def Partition.savedGang (p : Partition) (cmd gang : Nat) : List Nat :=
  (p.saved.filter (fun q => q.2.cmd == cmd && q.2.blocks.any (fun x => x.block.gangLaunch && x.block.b / x.block.gangSize == gang))).map (·.1)

/-- A BLOCK KILL (R436): the block and its whole gang leave, a held arrival of another gang binds a record that they free (R419), and the grid
will be journaled FAULTED with the reason and the block index. -/
def State.killBlock (s : State) (core blk reason : Nat) : State :=
  let b := (s.core core).block blk
  let s1 := (s.gangBlocks core blk).foldl (fun s q => s.leave q.1 q.2 true) s
  let s2 := (s1.dropGangRecs b.cmd (b.b / b.gangSize)).gangSettle (dieOf core) 64
  let s2 := ((s2.part b.part).savedGang b.cmd (b.b / b.gangSize)).foldl (fun s n => s.killSaved b.part n reason) s2
  if s2.hasCommand b.cmd then
    let m := s2.command b.cmd
    s2.setCommand b.cmd { m with failed := m.failed.or (some (reason, BitVec.ofNat 64 b.b)) }
  else s2

/-- A block-fatal fault: a KIND 3 record, then the kill with REASON 9 (R435, R436, R304). -/
def State.blockFatal (s : State) (core blk cause sub addr : Nat) : State :=
  let b := (s.core core).block blk
  let fid := freeFaultId core (s.core core).gen s.tick
  let s1 := ({ s with tick := s.tick + 1 }).postFault b.part core
    { kind := 3, gen := (s.core core).gen, cause, sub, die := dieOf core, core := core % 256, faultid := fid, lmask := 0, pc := 0,
      addr := BitVec.ofNat 64 addr, gridseq := b.gridseq, block := b.b, detail := 0 }
  s1.killBlock core blk 9

/-- A device-level fault record, KIND 4, posted to a partition, which names an agent by its core (R338, R435). -/
def State.deviceFault (s : State) (part core cause sub addr : Nat) : State :=
  ({ s with tick := s.tick + 1 }).postFault part core
    { kind := 4, gen := 0, cause, sub, die := dieOf core, core := core % 256, faultid := freeFaultId core 0 s.tick, lmask := 0, pc := 0,
      addr := BitVec.ofNat 64 addr, gridseq := 0, block := 0, detail := 0 }

/-- A core of a die for a KIND 4 record that concerns none: R338 gives it no core, so it is a free value (assumption 97). -/
def State.anyCore (s : State) (die : Nat) : Nat := 256 * die + (Config.freeFaultId s.tick).toNat / 2 ^ 22 % 256

/-! ## Power draw (R11, R13) -/

/-- The limit of R13: the smaller of the budget and the declarations of the resident blocks. -/
def Core.limit (c : Core) : Nat := min c.budget ((c.blocks.map (fun p => p.2.kd.shares)).foldl (· + ·) 0)
/-- Whether any copy streams or any region is RUNNING. -/
def Core.carillonActive (c : Core) : Bool := c.placed.any (fun p => !p.2.frozen && (p.2.copy.isSome || p.2.region == some .running))
/-- The round that the matrix node executes, if any. -/
def Core.round (c : Core) : Option MatEntry :=
  c.matq.find? (fun q => q.started && (match q.work with | .mma .. => true | _ => false))
/-- The draw of the matrix node (R11). -/
def Core.roundDraw (c : Core) : Nat :=
  match c.round with
  | some q => if q.half then 5 else 9
  | none => 0

/-- The rate of a round that starts now: whether at half rate; none where MMA issue is held (R13, R309). The carillon is throttled
first, then the round runs at half rate. -/
def Core.roundRate (c : Core) (q : MatEntry) : Option Bool :=
  let base := 1 + if c.carillonActive then 3 else 0
  if base + 9 ≤ c.limit ∧ 10 ≤ (c.block q.blk).kd.shares then some false
  else if base + 5 ≤ c.limit then some true
  else none

/-- Whether an entry is a round. -/
def MatWork.isMma : MatWork → Bool
  | .mma .. => true
  | _ => false
/-- Whether an entry is a TFETCH. -/
def MatWork.isTfetch : MatWork → Bool
  | .tfetch .. => true
  | _ => false
/-- Whether an entry is an MDRAIN.c. -/
def MatWork.isDrainC : MatWork → Bool
  | .drainC .. => true
  | _ => false

/-- Whether the next round of the queue is held for power (R13). -/
def Core.mmaHeld (c : Core) : Bool :=
  match c.matq.find? (fun q => q.work.isMma && !q.started) with
  | some q => c.round.isNone && (c.roundRate q).isNone
  | none => false

/-- The shares that a round asks for: those of full rate, but of half rate where its block's declaration fixes that for it (R309). -/
def Core.roundDemand (c : Core) (q : MatEntry) : Nat := if 10 ≤ (c.block q.blk).kd.shares then 9 else 5

/-- Whether the carillon is throttled to half rate: the limit does not cover it at full rate beside the front end, or beside the round that
executes or is held, at the rate that the round asks for (R13). -/
def Core.throttled (c : Core) : Bool :=
  c.carillonActive && (c.limit < 7 || c.mmaHeld || (match c.round with
    | some q => decide (c.limit < 7 + c.roundDemand q)
    | none => false))
/-- The draw of R11. -/
def Core.draw (c : Core) : Nat :=
  (if c.blocks.isEmpty then 0 else 1) + (if c.carillonActive then (if c.throttled then 3 else 6) else 0) + c.roundDraw

/-- Whether the carillon may not begin to draw yet: the round that executes holds its rate, and leaves no room even for half rate (R13). -/
def Core.carillonHeld (c : Core) : Bool := !c.carillonActive && decide (4 ≤ c.limit) && decide (c.limit < 4 + c.roundDraw)
/-- Whether the carillon draws above a limit that the steps of R13 cannot meet: the front end and the carillon at half rate exceed it. -/
def Core.overdrawn (c : Core) : Bool := c.carillonActive && decide (c.limit < 4)

end Sys2Proof.Machine
end

