-- ==== Sys2Proof/Machine/Integer.lean ====
section
/-!
DEFINITION. Integer, bit and address instructions, OP 0x10 to 0x3C (R92 to R115).
-/

namespace Sys2Proof.Machine

/-- The outcome of a meaning. -/
abbrev Out := Host.Outcome State Fault Refusal

/-- S, bit 11 of M (R93). -/
def mS (m : BitVec 12) : Bool := m.getLsbD 11
/-- SAT, bit 10 of M (R93). -/
def mSat (m : BitVec 12) : Bool := m.getLsbD 10

/-- A two-source form: the result of A and B in each lane (R94, R95). -/
def lanes2 (x : FmtR) (f : Word → Word → Word) (e : Fe) : Out :=
  e.result x.d (fun l => f (e.g.rdX x.c x.a l) (e.g.rdX x.c x.b l))
/-- A one-source form. -/
def lanes1 (x : FmtR) (f : Word → Word) (e : Fe) : Out := e.result x.d (fun l => f (e.g.rd x.a l))
/-- A three-source form. -/
def lanes3 (x : FmtR3) (f : Word → Word → Word → Word) (e : Fe) : Out :=
  e.result x.d (fun l => f (e.g.rd x.a l) (e.g.rd x.b l) (e.g.rd x.c l))

/-! ## Results -/

/-- EXT to an exact integer, as S gives (R94). -/
def extInt {w : Nat} (s : Bool) (a : BitVec w) : Int := if s then a.toInt else (a.toNat : Int)

/-- The exact sum or difference, clamped under SAT, truncated (R98). -/
def addSub (w : Nat) (s sat sub : Bool) (a b : BitVec w) : BitVec w :=
  let x := if sub then extInt s a - extInt s b else extInt s a + extInt s b
  BitVec.ofInt w (if sat then clampInt (intRange s w).1 (intRange s w).2 x else x)

/-- IMULH (R99). -/
def mulHigh (s : Bool) (a b : Word) : Word :=
  (BitVec.ofInt 64 (extInt s a * extInt s b)).extractLsb' 32 32

/-- IMAD64 (R99). -/
def mulAdd64 (s : Bool) (a b : Word) (c : Dword) : Dword := BitVec.ofInt 64 (extInt s a * extInt s b) + c

/-- IDIV with its defined cases (R100). -/
def divWord (s : Bool) (a b : Word) : Word :=
  if b = 0 then 0xFFFFFFFF
  else if s then BitVec.ofInt 32 (a.toInt.tdiv b.toInt)
  else BitVec.ofNat 32 (a.toNat / b.toNat)

/-- IREM: the sign of the dividend (R100). -/
def remWord (s : Bool) (a b : Word) : Word :=
  if b = 0 then a
  else if s then BitVec.ofInt 32 (a.toInt.tmod b.toInt)
  else BitVec.ofNat 32 (a.toNat % b.toNat)

/-- IMIN (R101). -/
def minWord (s : Bool) (a b : Word) : Word := if extInt s b < extInt s a then b else a
/-- IMAX (R101). -/
def maxWord (s : Bool) (a b : Word) : Word := if extInt s a < extInt s b then b else a
/-- The clamp of IABS and INEG under SAT, for the one value that does not fit (R101). -/
def satMin (sat : Bool) (x : Int) : Word := BitVec.ofInt 32 (if sat then clampInt (-(2 ^ 31)) (2 ^ 31 - 1) x else x)
/-- ISAD (R101). -/
def sadWord (s : Bool) (a b c : Word) : Word := BitVec.ofInt 32 (((extInt s a - extInt s b).natAbs : Int) + c.toNat)

/-- SHL, the amount B or B mod 32 (R104). -/
def shlWord (mod : Bool) (a b : Word) : Word :=
  let n := if mod then b.toNat % 32 else b.toNat
  if 32 ≤ n then 0 else a <<< n
/-- SHR (R104). -/
def shrWord (mod : Bool) (a b : Word) : Word :=
  let n := if mod then b.toNat % 32 else b.toNat
  if 32 ≤ n then 0 else a >>> n
/-- SAR (R104). -/
def sarWord (mod : Bool) (a b : Word) : Word :=
  let n := if mod then b.toNat % 32 else b.toNat
  a.sshiftRight (min n 31)
/-- ROT (R104). -/
def rotWord (a b : Word) : Word := a.rotateLeft (b.toNat % 32)

/-- The funnel amount (R105). -/
def funnel (clamp : Bool) (c : Word) : Nat := if clamp then min c.toNat 32 else c.toNat % 32
/-- FSHL (R105). -/
def fshlWord (clamp : Bool) (a b c : Word) : Word :=
  ((a ++ b : Dword) <<< funnel clamp c).extractLsb' 32 32
/-- FSHR (R105). -/
def fshrWord (clamp : Bool) (a b c : Word) : Word :=
  ((b ++ a : Dword) >>> funnel clamp c).extractLsb' 0 32

/-- SHL64 (R106). -/
def shl64 (mod : Bool) (a : Dword) (b : Word) : Dword :=
  let n := if mod then b.toNat % 64 else b.toNat
  if 64 ≤ n then 0 else a <<< n
/-- SHR64, zero or sign fill (R106). -/
def shr64 (s mod : Bool) (a : Dword) (b : Word) : Dword :=
  let n := if mod then b.toNat % 64 else b.toNat
  if s then a.sshiftRight (min n 63) else if 64 ≤ n then 0 else a >>> n

/-- POPC (R107). -/
def popcWord (a : Word) : Word := BitVec.ofNat 32 ((List.range 32).filter (fun i => a.getLsbD i)).length
/-- CLZ (R107). -/
def clzWord (a : Word) : Word := BitVec.ofNat 32 (32 - bitLen a.toNat)
/-- CTZ (R107). -/
def ctzWord (a : Word) : Word := BitVec.ofNat 32 (((List.range 32).find? (fun i => a.getLsbD i)).getD 32)
/-- BREV (R107). -/
def brevWord (a : Word) : Word := a.reverse

/-- BFX (R108). -/
def bfxWord (s : Bool) (a ctl : Word) : Word :=
  let p := ctl.toNat % 256
  let n := min (ctl.toNat / 256 % 256) 32
  if n = 0 ∨ 32 ≤ p then 0
  else
    let m := min n (32 - p)
    BitVec.ofInt 32 (intOfBits s m (a.toNat / 2 ^ p % 2 ^ m))
/-- BFI (R108). -/
def bfiWord (a b ctl : Word) : Word :=
  let p := ctl.toNat % 256
  let n := min (ctl.toNat / 256 % 256) 32
  if n = 0 ∨ 32 ≤ p then a
  else
    let m := min n (32 - p)
    let mask : Word := BitVec.ofNat 32 ((2 ^ m - 1) * 2 ^ p)
    (a &&& ~~~mask) ||| ((b <<< p) &&& mask)

/-- One byte of PRMT (R109). -/
def prmtByte (x : Dword) (sel : Nat) : Byte :=
  let b := x.extractLsb' (8 * (sel % 8)) 8
  if 8 ≤ sel then (if b.getLsbD 7 then 0xFF else 0) else b
/-- PRMT (R109). -/
def prmtWord (a b c : Word) : Word :=
  let x : Dword := b ++ a
  prmtByte x (fldW c 12 4) ++ prmtByte x (fldW c 8 4) ++ prmtByte x (fldW c 4 4) ++ prmtByte x (fldW c 0 4)
where
  /-- A field of a word. -/
  fldW (w : Word) (lo n : Nat) : Nat := (w.extractLsb' lo n).toNat

/-! ## The instructions -/

/-- IADD (R98). -/
def execIadd (x : FmtR) (s : State) : Out := frontEnd (.iadd x) x.g s (lanes2 x (addSub 32 (mS x.m) (mSat x.m) false))
/-- ISUB (R98). -/
def execIsub (x : FmtR) (s : State) : Out := frontEnd (.isub x) x.g s (lanes2 x (addSub 32 (mS x.m) (mSat x.m) true))
/-- IMUL (R99). -/
def execImul (x : FmtR) (s : State) : Out := frontEnd (.imul x) x.g s (lanes2 x (fun a b => a * b))
/-- IMULH (R99). -/
def execImulh (x : FmtR) (s : State) : Out := frontEnd (.imulh x) x.g s (lanes2 x (mulHigh (mS x.m)))
/-- IMAD (R99). -/
def execImad (x : FmtR3) (s : State) : Out := frontEnd (.imad x) x.g s (lanes3 x (fun a b c => a * b + c))
/-- IADD64 (R98). -/
def execIadd64 (x : FmtR) (s : State) : Out :=
  frontEnd (.iadd64 x) x.g s (fun e => e.result64 x.d
    (fun l => addSub 64 (mS x.m) (mSat x.m) false (e.g.rd64 x.a l) (e.g.rd64 x.b l)))
/-- ISUB64 (R98). -/
def execIsub64 (x : FmtR) (s : State) : Out :=
  frontEnd (.isub64 x) x.g s (fun e => e.result64 x.d
    (fun l => addSub 64 (mS x.m) (mSat x.m) true (e.g.rd64 x.a l) (e.g.rd64 x.b l)))
/-- IMAD64 (R99). -/
def execImad64 (x : FmtR3) (s : State) : Out :=
  frontEnd (.imad64 x) x.g s (fun e => e.result64 x.d
    (fun l => mulAdd64 (mS x.m) (e.g.rd x.a l) (e.g.rd x.b l) (e.g.rd64 x.c l)))
/-- IDIV (R100). -/
def execIdiv (x : FmtR) (s : State) : Out := frontEnd (.idiv x) x.g s (lanes2 x (divWord (mS x.m)))
/-- IREM (R100). -/
def execIrem (x : FmtR) (s : State) : Out := frontEnd (.irem x) x.g s (lanes2 x (remWord (mS x.m)))
/-- IMIN (R101). -/
def execImin (x : FmtR) (s : State) : Out := frontEnd (.imin x) x.g s (lanes2 x (minWord (mS x.m)))
/-- IMAX (R101). -/
def execImax (x : FmtR) (s : State) : Out := frontEnd (.imax x) x.g s (lanes2 x (maxWord (mS x.m)))
/-- IABS (R101). -/
def execIabs (x : FmtR) (s : State) : Out :=
  frontEnd (.iabs x) x.g s (lanes1 x (fun a => satMin (mSat x.m) a.toInt.natAbs))
/-- INEG (R101). -/
def execIneg (x : FmtR) (s : State) : Out := frontEnd (.ineg x) x.g s (lanes1 x (fun a => satMin (mSat x.m) (-a.toInt)))
/-- ISAD (R101). -/
def execIsad (x : FmtR3) (s : State) : Out := frontEnd (.isad x) x.g s (lanes3 x (sadWord (mS x.m)))
/-- IADDC: the carry predicate is written after D, and only D's result is pushed (R102). -/
def execIaddc (x : FmtR3) (s : State) : Out :=
  frontEnd (.iaddc x) x.g s (fun e =>
    let cin := fun l => (e.g.rd x.c l).getLsbD 0
    let r := fun l => e.g.rd x.a l + e.g.rd x.b l + boolWord (cin l)
    let cp := fun l =>
      if mS x.m then overflowOut (e.g.rd x.a l) (e.g.rd x.b l) (cin l) else carryOut (e.g.rd x.a l) (e.g.rd x.b l) (cin l)
    let g := (e.g.write x.d e.act r).setPred (fldM x.m 7 3) e.act (fun l => boolWord (cp l))
    .next (e.put (g.push32 e.x x.d e.act r).next))
/-- AND (R103). -/
def execAnd (x : FmtR) (s : State) : Out := frontEnd (.and x) x.g s (lanes2 x (fun a b => a &&& b))
/-- OR (R103). -/
def execOr (x : FmtR) (s : State) : Out := frontEnd (.or x) x.g s (lanes2 x (fun a b => a ||| b))
/-- XOR (R103). -/
def execXor (x : FmtR) (s : State) : Out := frontEnd (.xor x) x.g s (lanes2 x (fun a b => a ^^^ b))
/-- ANDN (R103). -/
def execAndn (x : FmtR) (s : State) : Out := frontEnd (.andn x) x.g s (lanes2 x (fun a b => a &&& ~~~b))
/-- NOT (R103). -/
def execNot (x : FmtR) (s : State) : Out := frontEnd (.not x) x.g s (lanes1 x (fun a => ~~~a))
/-- SHL (R104). -/
def execShl (x : FmtR) (s : State) : Out := frontEnd (.shl x) x.g s (lanes2 x (shlWord (x.m.getLsbD 9)))
/-- SHR (R104). -/
def execShr (x : FmtR) (s : State) : Out := frontEnd (.shr x) x.g s (lanes2 x (shrWord (x.m.getLsbD 9)))
/-- SAR (R104). -/
def execSar (x : FmtR) (s : State) : Out := frontEnd (.sar x) x.g s (lanes2 x (sarWord (x.m.getLsbD 9)))
/-- ROT (R104). -/
def execRot (x : FmtR) (s : State) : Out := frontEnd (.rot x) x.g s (lanes2 x rotWord)
/-- FSHL (R105). -/
def execFshl (x : FmtR3) (s : State) : Out := frontEnd (.fshl x) x.g s (lanes3 x (fshlWord (x.m.getLsbD 9)))
/-- FSHR (R105). -/
def execFshr (x : FmtR3) (s : State) : Out := frontEnd (.fshr x) x.g s (lanes3 x (fshrWord (x.m.getLsbD 9)))
/-- SHL64 (R106). -/
def execShl64 (x : FmtR) (s : State) : Out :=
  frontEnd (.shl64 x) x.g s (fun e => e.result64 x.d (fun l => shl64 (x.m.getLsbD 9) (e.g.rd64 x.a l) (e.g.rd x.b l)))
/-- SHR64 (R106). -/
def execShr64 (x : FmtR) (s : State) : Out :=
  frontEnd (.shr64 x) x.g s (fun e => e.result64 x.d
    (fun l => shr64 (mS x.m) (x.m.getLsbD 9) (e.g.rd64 x.a l) (e.g.rd x.b l)))
/-- POPC (R107). -/
def execPopc (x : FmtR) (s : State) : Out := frontEnd (.popc x) x.g s (lanes1 x popcWord)
/-- CLZ (R107). -/
def execClz (x : FmtR) (s : State) : Out := frontEnd (.clz x) x.g s (lanes1 x clzWord)
/-- CTZ (R107). -/
def execCtz (x : FmtR) (s : State) : Out := frontEnd (.ctz x) x.g s (lanes1 x ctzWord)
/-- BREV (R107). -/
def execBrev (x : FmtR) (s : State) : Out := frontEnd (.brev x) x.g s (lanes1 x brevWord)
/-- BFX (R108). -/
def execBfx (x : FmtR) (s : State) : Out := frontEnd (.bfx x) x.g s (lanes2 x (bfxWord (mS x.m)))
/-- BFI (R108). -/
def execBfi (x : FmtR3) (s : State) : Out := frontEnd (.bfi x) x.g s (lanes3 x bfiWord)
/-- PRMT (R109). -/
def execPrmt (x : FmtR3) (s : State) : Out := frontEnd (.prmt x) x.g s (lanes3 x prmtWord)
/-- ICMP, combined with bit 0 of C under COMB (R110). -/
def execIcmp (x : FmtR) (s : State) : Out :=
  frontEnd (.icmp x) x.g s (fun e =>
    let comb := fldM x.m 5 2
    e.result x.d (fun l =>
      let r := intCond (fldM x.m 7 3) (mS x.m) (e.g.rdX x.c x.a l) (e.g.rdX x.c x.b l)
      boolWord (combine comb r (comb != 0 && (e.g.rd (opndC x.c) l).getLsbD 0))))
/-- ISET (R110). -/
def execIset (x : FmtR) (s : State) : Out :=
  frontEnd (.iset x) x.g s (lanes2 x (fun a b => maskWord (intCond (fldM x.m 7 3) (mS x.m) a b)))
/-- ISEL (R111). -/
def execIsel (x : FmtR3) (s : State) : Out := frontEnd (.isel x) x.g s (lanes3 x (fun a b c => if c.getLsbD 0 then a else b))
/-- PSET (R112). -/
def execPset (x : FmtR3) (s : State) : Out :=
  frontEnd (.pset x) x.g s (lanes3 x (fun a b c =>
    boolWord (x.m.getLsbD ((a.getLsbD 0).toNat + 2 * (b.getLsbD 0).toNat + 4 * (c.getLsbD 0).toNat))))
/-- MOV (R113). -/
def execMov (x : FmtR) (s : State) : Out := frontEnd (.mov x) x.g s (lanes1 x (fun a => a))
/-- MOVI (R114). -/
def execMovi (x : FmtI) (s : State) : Out := frontEnd (.movi x) x.g s (fun e => e.result x.d (fun _ => x.imm))
/-- MOVK: written once for the group where ACT is not empty; nothing changes, y included, where it is empty (R114). -/
def execMovk (x : FmtI) (s : State) : Out :=
  frontEnd (.movk x) x.g s (fun e => match x.d with
    | .k n => if e.act = 0 then e.done e.g else e.resultK n.toNat x.imm
    | _ => e.fault { cause := 1 })
/-- LEA (R115). -/
def execLea (x : FmtR) (s : State) : Out := frontEnd (.lea x) x.g s (lanes2 x (fun a b => a + (b <<< fldM x.m 8 2)))
/-- LEA64 (R115). -/
def execLea64 (x : FmtR) (s : State) : Out :=
  frontEnd (.lea64 x) x.g s (fun e => e.result64 x.d (fun l =>
    let b := e.g.rd x.b l
    e.g.rd64 x.a l + ((if mS x.m then b.signExtend 64 else b.setWidth 64) <<< fldM x.m 8 2)))

end Sys2Proof.Machine
end

