-- ==== Sys2Proof/Machine/Access.lean ====
section
/-!
DEFINITION. How a core's accesses reach memory: the checks of every lane before any performs (R231, R232, R247, R430), the home's
order with window sharers, engine claims and kits (R284, R293 to R301), the wait of ordered accesses (R234, R298), poison (R304).
-/

namespace Sys2Proof.Machine

/-! ## Stores and the wait of ordered accesses (R234, R237, R298) -/

/-- A store of a group to memory (R237). -/
def State.storeCells (s : State) (core slot ch : Nat) (cells : List (Nat × Nat × Nat)) : State :=
  (s.putCells cells).ordered core slot (s.kitFor core ch) (cells.map (fun c => (c.1, c.2.1)))

/-- Whether a notice is not acknowledged as far as a scope asks: at grp and blk those of the core's own kit, otherwise every one (R298). -/
def Notice.owed (n : Notice) (core scope : Nat) : Bool := decide (2 ≤ scope) || kitOf n.core == kitOf core

/-- Whether earlier writes of some writers of a core keep an ordered access at a scope waiting (R298): at grp and blk only those with a
notice in the core's own kit, at cls and dev those to device memory, at sys every one. Writes of an earlier generation of the core are not
its writers' (R339). -/
def State.unperformedBy (s : State) (core : Nat) (slots : List Nat) (scope : Nat) : Bool :=
  s.writes.any (fun w => w.core == core && slots.contains w.slot && w.gen == (s.core core).gen &&
    (scope == 4 || decide (2 ≤ scope) && !w.outside || s.notices.any (fun n => n.write == w.id && n.owed core scope)))

/-- Whether earlier writes of a block's groups keep an ordered access at a scope waiting (R298). -/
def State.unperformed (s : State) (core : Nat) (b : Block) (scope : Nat) : Bool := s.unperformedBy core b.slots scope

/-- Whether some groups of a core have read a write that a window may still hold an older copy of (R276, R282): what a later access of
theirs orders behind their reads waits for it (assumption 96). -/
def State.unseen (s : State) (core : Nat) (slots : List Nat) (scope : Nat) : Bool :=
  s.notices.any (fun n => n.owed core scope && n.seen.any (fun q => q.1 == core && slots.contains q.2))

/-- Some groups or nodes of a core take over what others of it know of writes: their own, and those that they have read or that happen before
what they have read. They read nothing older from then on, and their releases stand behind those writes (R276, R279, assumption 96). -/
def State.learn (s : State) (core : Nat) (readers writers : List Nat) : State :=
  let own := (s.writes.filter (fun w => w.core == core && writers.contains w.slot)).map (·.id)
  let known := fun (n : Notice) => own.contains n.write || n.seen.any (fun q => q.1 == core && writers.contains q.2)
  { s with
    notices := updWhere known (fun n => { n with seen := n.seen ++ (readers.map (fun i => (core, i))).filter (fun q => !n.seen.contains q) }) s.notices }

/-! ## Checking lanes -/

/-- Whether the host has already served a page for a core. -/
def State.atsHit (s : State) (core asid va : Nat) : Bool :=
  s.tlb.any (fun t => t.level == 3 && t.owner == core && t.asid == asid && t.va ≤ va && va < t.va + t.bytes)

/-- One access of `n` bytes, aligned to its size, by a block of a core (R231, R430). -/
def State.reach (s : State) (core : Nat) (b : Block) (need : Need) (n va : Nat) : Xlat :=
  if va % n ≠ 0 then .bad 3 0
  else match s.translate b.part core b.asid va need with
    | .at k =>
      if keyTgt k == 1 && !s.atsHit core b.asid va &&
          !Config.hostReady s.tick ((SMap.get {} (s.part b.part).aspaces b.asid).governs va).2 va
      then .wait else .at k
    | x => x

/-- Host memory takes no atomic but FetchAdd, Swap and CAS (R247). -/
def noHost (ok : Bool) : Xlat → Xlat
  | .at k => if keyTgt k = 1 ∧ !ok then .bad 5 3 else .at k
  | x => x

/-- The outcome of a lane's check as its key; a read of zero has none. -/
def Xlat.key : Xlat → Option Nat
  | .at k => some k
  | _ => none

/-- Whether a lane goes on to perform: a failing helper lane does not, and receives 0 (R18, R232). -/
def Xlat.goes : Xlat → Bool
  | .at _ | .zero => true
  | _ => false

/-- Whether a check fails. -/
def Xlat.isBad : Xlat → Bool
  | .bad _ _ => true
  | _ => false

/-- The outcome of a check whose page the host has refused to the word under way: translation not-present (R232, R430). -/
def Fe.answered (e : Fe) (va : Nat) (x : Xlat) : Xlat := if x = .wait ∧ e.g.refused.contains (va / 65536) then .bad 4 0 else x

/-- CHECK EVERY LANE BEFORE ANY PERFORMS (R232). `f` gives each lane of `m` its address and check; `n` is the size in bytes, and
`reads` says that the access consumes what it reaches. No lane goes on before every lane has its translation, helper lanes among them.
On success the lanes that reach something go on with their keys. -/
def Fe.checked (e : Fe) (m : Mask) (n : Nat) (reads : Bool) (f : Nat → Nat × Xlat) (go : List (Nat × Option Nat) → Out) : Out :=
  let h := e.g.helpers e.b
  let rs := (lanesOf m).map (fun l => (l, (f l).1, e.answered (f l).1 (f l).2))
  let waits := rs.filter (fun r => r.2.2 == .wait)
  if !waits.isEmpty then e.waitFor (.translation (waits.map (fun r => (r.1, r.2.1))))
  else if rs.any (fun r => r.2.2 == .held) then e.waitIssue
  else
    let live := rs.filter (fun r => !h.getLsbD r.1)
    let bad := live.filter (fun r => r.2.2.isBad)
    match bad with
    | (_, a, .bad c sub) :: _ => e.fault { cause := c, sub, addr := a, lanes := maskOf (bad.map (·.1)) }
    | _ =>
      if live.any (fun r => r.2.2 == .absent) then .fault .absentMemory
      else
        let keys := rs.filterMap (fun r => r.2.2.key)
        if keys.any lineClaimed then e.waitIssue
        else match rs.find? (fun r => reads && r.2.2.key.any (fun k => e.s.poisonAt k n)) with
          | some r => .next (e.s.blockFatal e.core e.g.blk 0x41 0 r.2.1)
          | none => go ((rs.filter (fun r => r.2.2.goes)).map (fun r => (r.1, r.2.2.key)))
where
  /-- Whether an engine claims the line of a key (R299). -/
  lineClaimed (k : Nat) : Bool := !(e.s.dirEntry (lineOf k)).eq.isEmpty

/-- An ordered access waits at issue for the writes that its ORD orders it behind: those of its block's groups, and those that they have read or
that happen before them (R234, R279, R298, assumption 96). -/
def Fe.inOrder (e : Fe) (ord scope : Nat) (go : Out) : Out :=
  if ord != 0 && (e.s.unperformed e.core e.b scope || e.s.unseen e.core e.b.slots scope) then e.waitIssue else go

/-- An arrival waits at issue until the accesses before it stand before those that its departure lets go on: the group's own writes have
performed, and the writes that it has read (R279, assumption 96). -/
def Fe.arrives (e : Fe) (scope : Nat) (go : Out) : Out :=
  if e.s.unperformedBy e.core [e.slot] scope || e.s.unseen e.core [e.slot] scope then e.waitIssue else go

/-- The bytes that lanes reach. -/
def laneCells (lanes : List (Nat × Option Nat)) (n : Nat) : List (Nat × Nat) := lanes.filterMap (fun p => p.2.map (fun k => (k, n)))

/-- An acquire waits at issue while a window has not learnt of a write that it would read: everything after it reads that write or a later
one (R276, R279, R288, assumption 96). -/
def Fe.acquires (e : Fe) (ord scope : Nat) (cells : List (Nat × Nat)) (go : Out) : Out :=
  if ord % 2 == 1 && e.s.notices.any (fun n => n.owed e.core scope && n.about cells) then e.waitIssue else go

/-! ## MM fields (R57) -/

/-- Bytes of SZ. -/
def mmBytes (m : BitVec 12) : Nat := 2 ^ fldM m 9 3
/-- ORD. -/
def mmOrd (m : BitVec 12) : Nat := fldM m 7 2
/-- SCP. -/
def mmScp (m : BitVec 12) : Nat := fldM m 4 3
/-- CH. -/
def mmCh (m : BitVec 12) : Nat := fldM m 2 2

/-- A loaded value widened by EXT to the destination (R230). -/
def extend (m : BitVec 12) (v : Nat) : Nat :=
  let w := 8 * mmBytes m
  if w < 32 ∧ fldM m 0 2 = 1 then (BitVec.ofInt 32 (intOfBits true w v)).toNat else v

/-- Write a loaded value of each lane by its size and push y (R230, R75). -/
def Fe.loaded (e : Fe) (d : Opnd) (m : BitVec 12) (v : Nat → Nat) : Out :=
  match mmBytes m with
  | 16 => e.done (e.g.write128 d e.act (fun i l => BitVec.ofNat 32 (v l / 2 ^ (32 * i))))
  | 8 => e.result64 d (fun l => BitVec.ofNat 64 (v l))
  | _ => e.result d (fun l => BitVec.ofNat 32 (extend m (v l)))

/-- A number that no outstanding request of a core has. -/
def Core.freshRequest (c : Core) : Nat := c.requests.foldl (fun a r => max a (r.id + 1)) 1

/-- Send a request to host or peer memory: the group waits for the reply (R293, R339). -/
def Fe.request (e : Fe) (w : ReqWork) : Out :=
  let c := e.c.setGroup e.slot { e.g with st := .waiting .reply }
  .next (e.s.setCore e.core { c with requests := c.requests ++
    [{ id := e.c.freshRequest, gen := e.c.gen, slot := e.slot, blk := e.g.blk, x := e.x, act := e.act, work := w }] })

/-- The keys that a request's lanes reach. -/
def ReqWork.keys : ReqWork → List Nat
  | .load _ _ lanes _ => lanes.filterMap (·.2)
  | .call _ lanes => lanes.filterMap (·.2)
  | .atomic _ _ _ _ lanes _ => lanes.filterMap (fun l => l.2.1)

/-- Whether some lane reaches host or peer memory. -/
def anyOutside (lanes : List (Nat × Option Nat)) : Bool :=
  lanes.any (fun p => match p.2 with | some k => keyTgt k != 0 | none => false)

/-- The value a lane reads: 0 where it has no key (R18, R218). -/
def State.laneRead (s : State) (lanes : List (Nat × Option Nat)) (n l : Nat) : Nat :=
  match (lanes.find? (fun p => p.1 == l)).bind (·.2) with
  | some k => s.rd k n
  | none => 0

end Sys2Proof.Machine
end

