-- ==== Sys2Proof/Machine/Barrier.lean ====
section
/-!
DEFINITION. Named barriers, GBAR and CVDECL (R412 to R420, R427).
-/

namespace Sys2Proof.Machine

/-! ## Named barriers (R413 to R416) -/

/-- Whether the phase of a record is complete (R415). -/
def BarRec.done (r : BarRec) (b : Block) : Bool :=
  if r.explicit then r.arrived.length == r.expect else covers r.arrived b.live

/-- Complete a phase in one step: BPH toggles, the waiters depart, the record is freed (R415). -/
def Core.barComplete (c : Core) (r : BarRec) : Core :=
  let b := c.block r.blk
  let c := c.setBlock r.blk { b with bph := b.bph ^^^ (1#128 <<< r.name) }
  let c := c.departAll r.waiters (.bar r.name)
  { c with bars := c.bars.filter (fun q => !(q.blk == r.blk && q.name == r.name)) }

/-- Whether a halted group of the record's block could complete the phase: it holds a live thread that has not arrived. The phase does not
complete until it resumes (R427, R444). -/
def Core.barHeld (c : Core) (r : BarRec) : Bool :=
  let live := (c.block r.blk).live
  (c.block r.blk).slots.any (fun i => (c.group i).st == .halted &&
    ((c.group i).threadsIn 0xFFFFFFFF).any (fun t => live.contains t && !r.arrived.contains t))

/-- CHECKDONE for the records of a block (R415, R427). -/
def Core.checkBars (c : Core) (blk : Nat) : Core :=
  (c.bars.filter (fun r => r.blk == blk && r.done (c.block blk) && !c.barHeld r)).foldl Core.barComplete c

/-- The records that the blocks of a core hold or are promised, 4 for each at least (R416); `but` is a block that is left out. -/
def Core.barsPromised (c : Core) (but : Option Nat) : Nat :=
  ((c.blockIds.filter (fun k => some k != but)).map (fun k => max 4 (c.bars.filter (fun r => r.blk == k)).length)).foldl (· + ·) 0

/-- Whether a block may bind a free record of the core's 128: it is promised 4, and a fifth must leave the other blocks theirs (R412,
R416). -/
def Core.barFree (c : Core) (blk : Nat) : Bool :=
  let opened := (c.bars.filter (fun r => r.blk == blk)).length
  decide (c.bars.length < 128) && (decide (opened < 4) || decide (c.barsPromised (some blk) + opened < 128))

/-- The groups that depart from the phases of a block that are complete take over what the groups that have arrived know of writes: departure
is the acquire side of R279's barrier row. A group whose threads are all exited or gone has no slot to name, and its writes stand under its
block's slots. -/
def State.meetBars (s : State) (core blk : Nat) : State :=
  let c := s.core core
  let b := c.block blk
  (c.bars.filter (fun r => r.blk == blk && r.done b && !c.barHeld r)).foldl (fun (s : State) r =>
    s.learn core r.waiters (b.slots.filter (fun i => r.waiters.contains i || ((c.group i).threadsIn 0xFFFFFFFF).any r.arrived.contains))) s

/-- CHECKDONE, with what its departures make known (R279, R415). -/
def State.checkBars (s : State) (core blk : Nat) : State :=
  let s1 := s.meetBars core blk
  s1.setCore core ((s1.core core).checkBars blk)

/-- The number of a barrier handle. -/
def barIndex : Opnd → Nat
  | .hnd (.bar n) => n.toNat
  | .hnd (.gb n) => n.toNat
  | .hnd (.cv n) => n.toNat
  | _ => 0

/-- The arrival of BAR (R414). -/
def barEffect (x : FmtR) (sync : Bool) (e : Fe) : Out :=
  if e.act = 0 then e.done e.g
  else
    let n := barIndex x.d
    let expl := x.a != .discard
    let cnt := (e.g.rd x.a (lowest e.act)).toNat
    let bad := e.fault { cause := 5, sub := 27, lanes := 1#32 <<< lowest e.act }
    let old := e.c.bars.find? (fun r => r.blk == e.g.blk && r.name == n)
    let r := old.getD { blk := e.g.blk, name := n, explicit := expl, expect := if expl then cnt else 0, arrived := [], waiters := [] }
    let new := (e.g.threadsIn e.act).filter (fun t => !r.arrived.contains t)
    if old.isNone && !e.c.barFree e.g.blk then e.waitIssue
    else if r.explicit != expl || (expl && (r.expect != cnt || cnt == 0 || 1024 < cnt || r.expect < r.arrived.length + new.length)) then
      bad
    else e.arrives 1 <|
      let r' := { r with arrived := r.arrived ++ new, waiters := if sync then r.waiters ++ [e.slot] else r.waiters }
      let g := if sync then { e.g with st := .waiting (.bar n) } else e.g.next
      let c := e.c.setGroup e.slot g
      let c : Core := { c with bars := c.bars.filter (fun (q : BarRec) => !(q.blk == e.g.blk && q.name == n)) ++ [r'] }
      .next ((e.s.setCore e.core c).checkBars e.core e.g.blk)

/-- BAR.SYNC. -/
def execBarSync (x : FmtR) (s : State) : Out := frontEnd (.barSync x) x.g s (barEffect x true)
/-- BAR.ARRIVE. -/
def execBarArrive (x : FmtR) (s : State) : Out := frontEnd (.barArrive x) x.g s (barEffect x false)

/-! ## Gang barriers (R417 to R419) -/

/-- The arrival of GBAR (R418). -/
def gbarEffect (x : FmtR) (sync : Bool) (e : Fe) : Out :=
  if e.act = 0 then e.done e.g
  else
    let n := barIndex x.d
    let old := e.b.gsets.find? (fun q => q.name == n)
    if old.isNone && 2 ≤ e.b.gsets.length then e.waitIssue
    else e.arrives 2 <|
      let q := old.getD { name := n, arrived := [], waiters := [], full := false }
      let new := (e.g.threadsIn e.act).filter (fun t => !q.arrived.contains t)
      let q' := { q with arrived := q.arrived ++ new, waiters := if sync then q.waiters ++ [e.slot] else q.waiters }
      let g := if sync then { e.g with st := .waiting (.gbar n) } else e.g.next
      let b := { e.b with gsets := e.b.gsets.filter (fun q => q.name != n) ++ [q'] }
      let s := (e.put g).setBlock e.core e.g.blk b
      .next (s.gangCheck e.core e.g.blk)

/-- GBAR.SYNC. -/
def execGbarSync (x : FmtR) (s : State) : Out := frontEnd (.gbarSync x) x.g s (gbarEffect x true)
/-- GBAR.ARRIVE. -/
def execGbarArrive (x : FmtR) (s : State) : Out := frontEnd (.gbarArrive x) x.g s (gbarEffect x false)

/-! ## Convergence registers (R420) -/

/-- CVDECL. -/
def execCvdecl (x : FmtR) (s : State) : Out :=
  frontEnd (.cvdecl x) x.g s (fun e =>
    if e.act = 0 then e.done e.g
    else
      let a := (e.g.rd x.a (lowest e.act)).toNat
      let v := SMap.get {} e.b.cvs (barIndex x.d)
      if a = 0 || 40 < a || (!v.signers.isEmpty && a != v.decl) then
        e.fault { cause := 5, sub := 29, lanes := 1#32 <<< lowest e.act }
      else .next ((e.put e.g.next).setBlock e.core e.g.blk
        { e.b with cvs := SMap.set {} e.b.cvs (barIndex x.d) { v with decl := a } }))

end Sys2Proof.Machine
end

