-- ==== Sys2Proof/Machine/Sfu.lean ====
section
/-!
DEFINITION. The SFU functions: special inputs, and results within the bounds of R143 (R143, R144). Exact results that are not rational are
enclosed in fixed point with 128 fraction bits.
-/

namespace Sys2Proof.Machine

/-- The SFU functions whose results have bounds. -/
inductive SfuFn where
  | rcp | rsq | exp2 | log2 | sin | cos | tanh
deriving DecidableEq, Repr

/-- The number of an SFU function in Config.sfu. -/
def SfuFn.num : SfuFn → Nat
  | .rcp => 0
  | .rsq => 1
  | .exp2 => 2
  | .log2 => 3
  | .sin => 4
  | .cos => 5
  | .tanh => 6

/-! ## Fixed point -/

/-- 1.0. -/
def fxOne : Int := 340282366920938463463374607431768211456
/-- ln 2, rounded down. -/
def fxLn2 : Int := 235865763225513294137944142764154484399
/-- π, rounded down. -/
def fxPi : Int := 1069028584064966747859680373161870783300

/-- A finite value in fixed point, cut toward zero. -/
def toFx (neg : Bool) (m : Nat) (e : Int) : Int :=
  let v : Int := (splitAt m e (-128)).1
  if neg then -v else v

/-- A fixed-point value times 2^k. -/
def ofFx (v k : Int) : Num := .fin (decide (v < 0)) v.natAbs (k - 128)

/-- e^r for r from 0 to 1, by 40 terms. -/
def expFx (r : Int) : Int := (List.range 40).foldl (fun (acc : Int) (i : Nat) => fxOne + r * acc / fxOne / (40 - i)) fxOne

/-- 2^a as a fixed-point value from 1 to 2 and an exponent, for |a| at most 1,000. -/
def exp2Fx (a : Int) : Int × Int :=
  let a := clampInt (-1000 * fxOne) (1000 * fxOne) a
  (expFx (a % fxOne * fxLn2 / fxOne), a / fxOne)

/-- log₂ of m × 2^e. -/
def log2Fx (m : Nat) (e : Int) : Int :=
  let l := bitLen m
  let f : Int := (splitAt m (1 - l) (-128)).1
  let z := (f - fxOne) * fxOne / (f + fxOne)
  let s := (List.range 60).foldl (fun (acc : Int) (i : Nat) => fxOne / (2 * (59 - i) + 1) + z * z / fxOne * acc / fxOne) 0
  (e + l - 1) * fxOne + 2 * z * s / fxLn2

/-- An angle within a half turn of 0. -/
def angleFx (a : Int) : Int :=
  let t := a % (2 * fxPi)
  if fxPi < t then t - 2 * fxPi else t

/-- sin t for |t| at most π. -/
def sinFx (t : Int) : Int :=
  t * (List.range 30).foldl (fun (acc : Int) (i : Nat) => let j : Int := 30 - i; fxOne - t * t / fxOne * acc / fxOne / (2 * j * (2 * j + 1))) fxOne / fxOne

/-- cos t for |t| at most π. -/
def cosFx (t : Int) : Int :=
  (List.range 30).foldl (fun (acc : Int) (i : Nat) => let j : Int := 30 - i; fxOne - t * t / fxOne * acc / fxOne / ((2 * j - 1) * (2 * j))) fxOne

/-- 1 ÷ √(m × 2^e) to at least 60 bits with a sticky last bit. -/
def rsqNum (m : Nat) (e : Int) : Num :=
  let n := if e % 2 = 0 then m else 2 * m
  let x := 2 ^ (2 * (64 + bitLen n))
  let r := isqrt (x / n)
  .fin false (2 * r + (if r * r * n = x then 0 else 1)) (-(e / 2) - (64 + bitLen n : Nat) - 1)

/-- 2^A for |A| below 2^-30, between 1 + A ln 2 and 1 + A ln 2 + A²/2. -/
def exp2Small (n : Bool) (m : Nat) (e : Int) : Num × Num :=
  let one := Num.fin false 1 0
  let by_ := fun (c : Int) => Num.add false one (Num.mul (.fin n m e) (.fin false c.natAbs (-128)))
  (by_ (if n then fxLn2 + 1 else fxLn2),
   Num.add false (by_ (if n then fxLn2 else fxLn2 + 1)) (.fin false (m * m) (2 * e - 1)))

/-- tanh A for A below 2^-12, between A − A³/3 and A − A³ (1/3 − 2^-26). -/
def tanhSmall (m : Nat) (e : Int) : Num × Num :=
  let by_ := fun (c : Nat) => Num.add false (.fin false m e) (.fin true (m * m * m * c) (3 * e - 40))
  (by_ (2 ^ 40 / 3 + 1), by_ (2 ^ 40 / 3 - 2 ^ 14))

/-- sin A for A below 2^-30, between A − A³/4 and A − A³/8. -/
def sinSmall (n : Bool) (m : Nat) (e : Int) : Num × Num :=
  let by_ := fun (k : Int) => Num.add false (.fin n m e) (.fin (!n) (m * m * m) (3 * e - k))
  if n then (by_ 3, by_ 2) else (by_ 2, by_ 3)

/-- cos A for A below 2^-30, between 1 − A²/2 and 1 − A²/4. -/
def cosSmall (m : Nat) (e : Int) : Num × Num :=
  let by_ := fun (k : Int) => Num.add false (.fin false 1 0) (.fin true (m * m) (2 * e - k))
  (by_ 1, by_ 2)

/-- tanh v for v above 0. -/
def tanhFx (v : Int) : Int :=
  let (p, k) := exp2Fx (-(2 * v * fxOne / fxLn2))
  let q := p / 2 ^ (-k).toNat
  (fxOne - q) * fxOne / (fxOne + q)

/-! ## Results within bounds -/

/-- f32 codes in the order of their values. -/
def orderKey (c : Nat) : Int := if c < f32.signBit then c else -((c - f32.signBit : Nat) : Int) - 1
/-- The code of a key. -/
def keyCode (k : Int) : Nat := if 0 ≤ k then k.toNat else f32.signBit + (-k - 1).toNat

/-- The code from `lo` to `hi` nearest to a free one; a bound above the largest finite value admits Inf. -/
def between (lo hi : Num) (free : Nat) : Nat :=
  let h := if Num.cmp (f32.value (f32.maxCode false)) hi = -1 then f32.infCode false else f32.narrow .rdn false hi
  keyCode (clampInt (orderKey (f32.narrow .rup false lo)) (orderKey h) (orderKey free))

/-- The spacing of f32 at a magnitude. -/
def ulpOf : Num → Num
  | .fin _ m e => .fin false 1 (f32.quantum m e)
  | x => x

/-- A free result within `b` spacings of a value that lies from `lo` to `hi`; no power of two lies between the value and `lo`, so the
spacing at the value is that at `lo`. -/
def near (lo hi : Num) (b : Nat) (free : Nat) : Nat :=
  let u := Num.mul (.fin false b 0) (ulpOf lo)
  between (Num.add false lo u.neg) (Num.add false hi u) free

/-- The error of the fixed-point values. -/
def fxSlack : Int := 2 ^ 60

/-- A free result within an absolute error of 2^-k of a value that lies from `lo` to `hi`. -/
def within (lo hi : Num) (k : Int) (free : Nat) : Nat :=
  between (Num.add false lo (.fin true 1 (-k))) (Num.add false hi (.fin false 1 (-k))) free

/-- A free result within an absolute error of 2^-k of a fixed-point value. -/
def nearAbs (v : Int) (k : Nat) (free : Nat) : Nat := within (ofFx (v - fxSlack) 0) (ofFx (v + fxSlack) 0) k free

/-- A free result within 2^-21 of a sine or cosine that a fixed-point value gives; at an f32 argument other than 0 neither reaches 1. -/
def nearWave (v : Int) (free : Nat) : Nat :=
  within (ofFx (max (v - fxSlack) (1 - fxOne)) 0) (ofFx (min (v + fxSlack) (fxOne - 1)) 0) 21 free

/-- Flip the sign of a code. -/
def flipSign (neg : Bool) (c : Nat) : Nat := f32.mods neg false c

/-- Whether a mantissa is a power of two. -/
def powerOfTwo (m : Nat) : Bool := m != 0 && m == 2 ^ Nat.log2 m

/-- The special inputs of R143; none for an input the bounds cover. `x` is the value after FTZ. -/
def sfuSpecial (fn : SfuFn) (x : Num) : Option Nat :=
  let nan := f32.nanCode
  let inf := fun b => f32.infCode b
  let zero := fun b => f32.code b 0 0
  let one := fun b => f32.code b 127 0
  match fn, x with
  | _, .nan => some nan
  | .rcp, .inf n => some (zero n)
  | .rcp, .fin n 0 _ => some (inf n)
  | .rcp, .fin n m e =>
    -- exact when A is a power of two and 1/A is normal
    let r := f32.narrow .rz false (Num.div (.fin n 1 0) (.fin n m e))
    if powerOfTwo m && !f32.isSub r && r != 0 && r != f32.maxCode false then some (r + (if n then f32.signBit else 0)) else none
  | .rsq, .inf n => some (if n then nan else zero false)
  | .rsq, .fin n 0 _ => some (inf n)
  | .rsq, .fin n _ _ => if n then some nan else none
  | .exp2, .inf n => some (if n then zero false else inf false)
  | .exp2, .fin _ 0 _ => some (one false)
  | .exp2, .fin n m e =>
    -- exact when A is an integer and 2^A is normal
    let k := splitAt m e 0
    let a : Int := if n then -(k.1 : Int) else k.1
    if k.2.1 = 0 ∧ -126 ≤ a ∧ a ≤ 127 then some (f32.code false (a + 127).toNat 0) else none
  | .log2, .inf n => some (if n then nan else inf false)
  | .log2, .fin _ 0 _ => some (inf true)
  | .log2, .fin n m e => if n then some nan else if Num.cmp (.fin false m e) (.fin false 1 0) = 0 then some (zero false) else none
  | .sin, .inf _ => some nan
  | .sin, .fin n 0 _ => some (zero n)
  | .sin, _ => none
  | .cos, .inf _ => some nan
  | .cos, .fin _ 0 _ => some (one false)
  | .cos, _ => none
  | .tanh, .inf n => some (one n)
  | .tanh, .fin n 0 _ => some (zero n)
  | .tanh, _ => none

/-- A result within the bound of a function at a finite non-zero input. -/
def sfuBounded (fn : SfuFn) (n : Bool) (m : Nat) (e : Int) (free : Nat) : Nat :=
  let ulps := fun (v k : Int) (b : Nat) => near (ofFx (v - fxSlack) k) (ofFx (v + fxSlack) k) b free
  match fn with
  | .rcp =>
    let q := Num.div (.fin false 1 0) (.fin false m e)
    flipSign n (near q q 1 (flipSign n free))
  | .rsq =>
    let q := rsqNum m e
    near q q 2 free
  | .exp2 =>
    let (p, k) := exp2Fx (toFx n m e)
    if Num.cmp (.fin false m e) (.fin false 1 (-30)) = -1 then near (exp2Small n m e).1 (exp2Small n m e).2 2 free
    else if (splitAt m e 0).2.1 = 0 then near (ofFx p k) (ofFx p k) 2 free
    else ulps p k 2
  | .log2 =>
    let v := log2Fx m e
    if v.natAbs ≤ fxOne.natAbs then nearAbs v 22 free
    else if powerOfTwo m then near (ofFx v 0) (ofFx v 0) 2 free
    else ulps v 0 2
  | .sin => if Num.cmp (.fin false 65536 0) (.fin false m e) = -1 then between (.fin true 1 0) (.fin false 1 0) free
      else if Num.cmp (.fin false m e) (.fin false 1 (-30)) = -1 then within (sinSmall n m e).1 (sinSmall n m e).2 21 free
      else nearWave (sinFx (angleFx (toFx n m e))) free
  | .cos => if Num.cmp (.fin false 65536 0) (.fin false m e) = -1 then between (.fin true 1 0) (.fin false 1 0) free
      else if Num.cmp (.fin false m e) (.fin false 1 (-30)) = -1 then within (cosSmall m e).1 (cosSmall m e).2 21 free
      else nearWave (cosFx (angleFx (toFx n m e))) free
  | .tanh =>
    let x := Num.fin false m e
    let f := flipSign n free
    flipSign n (
      if Num.cmp x (.fin false 1 (-12)) = -1 then near (tanhSmall m e).1 (tanhSmall m e).2 2 f
      else
        -- the exact result stays below 1
        let v := tanhFx (min (toFx false m e) (100 * fxOne))
        near (ofFx (v - fxSlack) 0) (ofFx (min (v + fxSlack) (fxOne - 1)) 0) 2 f)

/-- An SFU result at the value of an input; `free` is a function's own choice at the input bits and M (R144). -/
def sfuValue (fn : SfuFn) (x : Num) (free : Nat) : Nat :=
  match sfuSpecial fn x, x with
  | some y, _ => y
  | none, .fin n m e => sfuBounded fn n m e free
  | none, _ => f32.nanCode

end Sys2Proof.Machine
end

