-- ==== Sys2Proof/Machine/Float.lean ====
section
/-!
DEFINITION. Floating-point instructions, OP 0x40 to 0x6B (R129 to R148).
-/

namespace Sys2Proof.Machine

/-- RND, FTZ and SAT of M (R56). -/
def arithOf (m : BitVec 12) : Arith := ⟨rndOf (fldM m 9 3) 0, m.getLsbD 8, m.getLsbD 7⟩
/-- NEG of source 0 (A), 1 (B) or 2 (C) (R56). -/
def mNeg (m : BitVec 12) (i : Nat) : Bool := m.getLsbD (6 - i)
/-- ABS of source 0, 1 or 2 (R56). -/
def mAbs (m : BitVec 12) (i : Nat) : Bool := m.getLsbD (3 - i)
/-- A source code after ABS and NEG (R56, R130). -/
def modIn (f : FFmt) (m : BitVec 12) (i c : Nat) : Nat := f.mods (mNeg m i) (mAbs m i) c

/-- A 32-bit result as a word. -/
def w32 (n : Nat) : Word := BitVec.ofNat 32 n
/-- A 64-bit result. -/
def w64 (n : Nat) : Dword := BitVec.ofNat 64 n

/-- A two-source f32 form on source codes after their modifiers. -/
def float2 (x : FmtR) (f : Nat → Nat → Nat) (e : Fe) : Out :=
  e.result x.d (fun l => w32 (f (modIn f32 x.m 0 (e.g.rdX x.c x.a l).toNat) (modIn f32 x.m 1 (e.g.rdX x.c x.b l).toNat)))
/-- A one-source f32 form. -/
def float1 (x : FmtR) (f : Nat → Nat) (e : Fe) : Out :=
  e.result x.d (fun l => w32 (f (modIn f32 x.m 0 (e.g.rd x.a l).toNat)))
/-- A packed two-source form: each half on its own (R146). -/
def half2 (h : FFmt) (x : FmtR) (f : Nat → Nat → Nat) (e : Fe) : Out :=
  e.result x.d (fun l =>
    let a := (e.g.rdH h x.c x.a l).toNat
    let b := (e.g.rdH h x.c x.b l).toNat
    w32 (packElems 16 ((List.range 2).map (fun i => f (modIn h x.m 0 (elemAt 16 i a)) (modIn h x.m 1 (elemAt 16 i b))))))
/-- A packed fused multiply-add (R146). -/
def half3 (h : FFmt) (x : FmtR3) (e : Fe) : Out :=
  e.result x.d (fun l =>
    let a := (e.g.rdH h 0 x.a l).toNat
    let b := (e.g.rdH h 0 x.b l).toNat
    let c := (e.g.rdH h 0 x.c l).toNat
    w32 (packElems 16 ((List.range 2).map (fun i =>
      h.fmaC (arithOf x.m) (modIn h x.m 0 (elemAt 16 i a)) (modIn h x.m 1 (elemAt 16 i b)) (modIn h x.m 2 (elemAt 16 i c))))))

/-- A compare of two codes under C[9:6] and FTZ (R138). -/
def cmpCodes (f : FFmt) (x : FmtR) (a b : Nat) : Bool :=
  floatCond (fldC x.c 6 4) (f.value (f.flush (x.m.getLsbD 8) (modIn f x.m 0 a))) (f.value (f.flush (x.m.getLsbD 8) (modIn f x.m 1 b)))

/-- The result of FCMP and DCMP: the condition combined with pN (R138). -/
def cmpResult (g : Group) (x : FmtR) (r : Bool) (l : Nat) : Word :=
  boolWord (combine (fldC x.c 4 2) r ((g.predMask (fldC x.c 0 3)).getLsbD l))

/-! ## SFU functions (R143, R144) -/

/-- An SFU result: FREE VALUE Config.sfu within the bound of R143. -/
def sfuCode (fn : SfuFn) (m : BitVec 12) (c : Nat) : Nat :=
  let k := arithOf m
  f32.clamp k.sat (f32.flush k.ftz (sfuValue fn (f32.inp k c) (Config.sfu fn.num (w32 c) m).toNat))

/-! ## The instructions -/

/-- FADD (R135). -/
def execFadd (x : FmtR) (s : State) : Out := frontEnd (.fadd x) x.g s (float2 x (f32.addC (arithOf x.m)))
/-- FSUB (R135). -/
def execFsub (x : FmtR) (s : State) : Out := frontEnd (.fsub x) x.g s (float2 x (f32.subC (arithOf x.m)))
/-- FMUL (R135). -/
def execFmul (x : FmtR) (s : State) : Out := frontEnd (.fmul x) x.g s (float2 x (f32.mulC (arithOf x.m)))
/-- FFMA (R135). -/
def execFfma (x : FmtR3) (s : State) : Out :=
  frontEnd (.ffma x) x.g s (fun e => e.result x.d (fun l => w32 (f32.fmaC (arithOf x.m)
    (modIn f32 x.m 0 (e.g.rd x.a l).toNat) (modIn f32 x.m 1 (e.g.rd x.b l).toNat) (modIn f32 x.m 2 (e.g.rd x.c l).toNat))))
/-- FMIN (R137). -/
def execFmin (x : FmtR) (s : State) : Out := frontEnd (.fmin x) x.g s (float2 x (f32.minMax false (x.m.getLsbD 8)))
/-- FMAX (R137). -/
def execFmax (x : FmtR) (s : State) : Out := frontEnd (.fmax x) x.g s (float2 x (f32.minMax true (x.m.getLsbD 8)))
/-- FCMP (R138). -/
def execFcmp (x : FmtR) (s : State) : Out :=
  frontEnd (.fcmp x) x.g s (fun e => e.result x.d (fun l =>
    cmpResult e.g x (cmpCodes f32 x (e.g.rd x.a l).toNat (e.g.rd x.b l).toNat) l))
/-- FSET (R138). -/
def execFset (x : FmtR) (s : State) : Out :=
  frontEnd (.fset x) x.g s (fun e => e.result x.d (fun l =>
    maskWord (cmpCodes f32 x (e.g.rd x.a l).toNat (e.g.rd x.b l).toNat)))
/-- FSEL: A where C is ordered and at least +0 (R139). -/
def execFsel (x : FmtR3) (s : State) : Out :=
  frontEnd (.fsel x) x.g s (fun e => e.result x.d (fun l =>
    w32 (if floatCond 5 (f32.value (e.g.rd x.c l).toNat) (.fin false 0 0) then modIn f32 x.m 0 (e.g.rd x.a l).toNat
         else modIn f32 x.m 1 (e.g.rd x.b l).toNat)))
/-- FCLASS (R140). -/
def execFclass (x : FmtR) (s : State) : Out :=
  frontEnd (.fclass x) x.g s (float1 x (fun a => if x.c.getLsbD (classOf a) then 1 else 0))
/-- FRND (R141). -/
def execFrnd (x : FmtR) (s : State) : Out := frontEnd (.frnd x) x.g s (float1 x (rndIntegralCode (arithOf x.m)))
/-- FRCP (R143). -/
def execFrcp (x : FmtR) (s : State) : Out := frontEnd (.frcp x) x.g s (float1 x (sfuCode .rcp x.m))
/-- FRSQ (R143). -/
def execFrsq (x : FmtR) (s : State) : Out := frontEnd (.frsq x) x.g s (float1 x (sfuCode .rsq x.m))
/-- FSQRT, correctly rounded (R143). -/
def execFsqrt (x : FmtR) (s : State) : Out := frontEnd (.fsqrt x) x.g s (float1 x (f32.sqrtC (arithOf x.m)))
/-- FEXP2 (R143). -/
def execFexp2 (x : FmtR) (s : State) : Out := frontEnd (.fexp2 x) x.g s (float1 x (sfuCode .exp2 x.m))
/-- FLOG2 (R143). -/
def execFlog2 (x : FmtR) (s : State) : Out := frontEnd (.flog2 x) x.g s (float1 x (sfuCode .log2 x.m))
/-- FSIN (R143). -/
def execFsin (x : FmtR) (s : State) : Out := frontEnd (.fsin x) x.g s (float1 x (sfuCode .sin x.m))
/-- FCOS (R143). -/
def execFcos (x : FmtR) (s : State) : Out := frontEnd (.fcos x) x.g s (float1 x (sfuCode .cos x.m))
/-- FTANH (R143). -/
def execFtanh (x : FmtR) (s : State) : Out := frontEnd (.ftanh x) x.g s (float1 x (sfuCode .tanh x.m))
/-- FDIV, correctly rounded (R145). -/
def execFdiv (x : FmtR) (s : State) : Out := frontEnd (.fdiv x) x.g s (float2 x (f32.divC (arithOf x.m)))
/-- FLDEXP (R142). -/
def execFldexp (x : FmtR) (s : State) : Out :=
  frontEnd (.fldexp x) x.g s (fun e => e.result x.d (fun l =>
    w32 (ldexpCode (arithOf x.m) (modIn f32 x.m 0 (e.g.rdX x.c x.a l).toNat) (e.g.rdX x.c x.b l).toInt)))
/-- FFREXP: the pair of mantissa and exponent (R142). -/
def execFfrexp (x : FmtR) (s : State) : Out :=
  frontEnd (.ffrexp x) x.g s (fun e => e.result64 x.d (fun l =>
    let r := frexpCode (x.m.getLsbD 8) (modIn f32 x.m 0 (e.g.rd x.a l).toNat)
    (BitVec.ofInt 32 r.2 : Word) ++ w32 r.1))
/-- HADD2 (R146). -/
def execHadd2 (x : FmtR) (s : State) : Out := frontEnd (.hadd2 x) x.g s (half2 h16 x (h16.addC (arithOf x.m)))
/-- HSUB2 (R146). -/
def execHsub2 (x : FmtR) (s : State) : Out := frontEnd (.hsub2 x) x.g s (half2 h16 x (h16.subC (arithOf x.m)))
/-- HMUL2 (R146). -/
def execHmul2 (x : FmtR) (s : State) : Out := frontEnd (.hmul2 x) x.g s (half2 h16 x (h16.mulC (arithOf x.m)))
/-- HFMA2 (R146). -/
def execHfma2 (x : FmtR3) (s : State) : Out := frontEnd (.hfma2 x) x.g s (half3 h16 x)
/-- HMIN2 (R146). -/
def execHmin2 (x : FmtR) (s : State) : Out := frontEnd (.hmin2 x) x.g s (half2 h16 x (h16.minMax false (x.m.getLsbD 8)))
/-- HMAX2 (R146). -/
def execHmax2 (x : FmtR) (s : State) : Out := frontEnd (.hmax2 x) x.g s (half2 h16 x (h16.minMax true (x.m.getLsbD 8)))
/-- HCMP2: a mask in each half (R138). -/
def execHcmp2 (x : FmtR) (s : State) : Out :=
  frontEnd (.hcmp2 x) x.g s (fun e => e.result x.d (fun l =>
    let a := (e.g.rdH h16 0 x.a l).toNat
    let b := (e.g.rdH h16 0 x.b l).toNat
    w32 (packElems 16 ((List.range 2).map (fun i => if cmpCodes h16 x (elemAt 16 i a) (elemAt 16 i b) then 0xFFFF else 0)))))
/-- BADD2 (R146). -/
def execBadd2 (x : FmtR) (s : State) : Out := frontEnd (.badd2 x) x.g s (half2 bf16 x (bf16.addC (arithOf x.m)))
/-- BSUB2 (R146). -/
def execBsub2 (x : FmtR) (s : State) : Out := frontEnd (.bsub2 x) x.g s (half2 bf16 x (bf16.subC (arithOf x.m)))
/-- BMUL2 (R146). -/
def execBmul2 (x : FmtR) (s : State) : Out := frontEnd (.bmul2 x) x.g s (half2 bf16 x (bf16.mulC (arithOf x.m)))
/-- BFMA2 (R146). -/
def execBfma2 (x : FmtR3) (s : State) : Out := frontEnd (.bfma2 x) x.g s (half3 bf16 x)
/-- BMIN2 (R146). -/
def execBmin2 (x : FmtR) (s : State) : Out := frontEnd (.bmin2 x) x.g s (half2 bf16 x (bf16.minMax false (x.m.getLsbD 8)))
/-- BMAX2 (R146). -/
def execBmax2 (x : FmtR) (s : State) : Out := frontEnd (.bmax2 x) x.g s (half2 bf16 x (bf16.minMax true (x.m.getLsbD 8)))
/-- BCMP2: a mask in each half (R138). -/
def execBcmp2 (x : FmtR) (s : State) : Out :=
  frontEnd (.bcmp2 x) x.g s (fun e => e.result x.d (fun l =>
    let a := (e.g.rdH bf16 0 x.a l).toNat
    let b := (e.g.rdH bf16 0 x.b l).toNat
    w32 (packElems 16 ((List.range 2).map (fun i => if cmpCodes bf16 x (elemAt 16 i a) (elemAt 16 i b) then 0xFFFF else 0)))))

/-- f32 multiply-add of the low halves of A and B and an f32 C (R147). -/
def halfFma (h : FFmt) (x : FmtR3) (e : Fe) : Out :=
  e.result x.d (fun l =>
    let k := arithOf x.m
    let a := modIn h x.m 0 ((e.g.rdH h 0 x.a l).toNat % 65536)
    let b := modIn h x.m 1 ((e.g.rdH h 0 x.b l).toNat % 65536)
    let c := modIn f32 x.m 2 (e.g.rd x.c l).toNat
    w32 (f32.finish k (Num.add (k.rnd == .rdn) (Num.mul (h.inp k a) (h.inp k b)) (f32.inp k c))))

/-- FFMAH (R147). -/
def execFfmah (x : FmtR3) (s : State) : Out := frontEnd (.ffmah x) x.g s (halfFma h16 x)
/-- FFMAB (R147). -/
def execFfmab (x : FmtR3) (s : State) : Out := frontEnd (.ffmab x) x.g s (halfFma bf16 x)

/-- A two-source f64 form (R148). -/
def double2 (x : FmtR) (f : Nat → Nat → Nat) (e : Fe) : Out :=
  e.result64 x.d (fun l => w64 (f (modIn f64 x.m 0 (e.g.rd64 x.a l).toNat) (modIn f64 x.m 1 (e.g.rd64 x.b l).toNat)))

/-- DADD (R148). -/
def execDadd (x : FmtR) (s : State) : Out := frontEnd (.dadd x) x.g s (double2 x (f64.addC (arithOf x.m)))
/-- DMUL (R148). -/
def execDmul (x : FmtR) (s : State) : Out := frontEnd (.dmul x) x.g s (double2 x (f64.mulC (arithOf x.m)))
/-- DFMA (R148). -/
def execDfma (x : FmtR3) (s : State) : Out :=
  frontEnd (.dfma x) x.g s (fun e => e.result64 x.d (fun l => w64 (f64.fmaC (arithOf x.m)
    (modIn f64 x.m 0 (e.g.rd64 x.a l).toNat) (modIn f64 x.m 1 (e.g.rd64 x.b l).toNat) (modIn f64 x.m 2 (e.g.rd64 x.c l).toNat))))
/-- DCMP (R138, R148). -/
def execDcmp (x : FmtR) (s : State) : Out :=
  frontEnd (.dcmp x) x.g s (fun e => e.result x.d (fun l =>
    cmpResult e.g x (cmpCodes f64 x (e.g.rd64 x.a l).toNat (e.g.rd64 x.b l).toNat) l))
/-- DMIN (R137, R148). -/
def execDmin (x : FmtR) (s : State) : Out := frontEnd (.dmin x) x.g s (double2 x (f64.minMax false (x.m.getLsbD 8)))
/-- DMAX (R137, R148). -/
def execDmax (x : FmtR) (s : State) : Out := frontEnd (.dmax x) x.g s (double2 x (f64.minMax true (x.m.getLsbD 8)))

end Sys2Proof.Machine
end

