-- ==== Sys2Proof/Machine/Convert.lean ====
section
/-!
DEFINITION. Conversion, quantisation and packed-dot instructions, OP 0x70 to 0x85 (R149 to R166), with AMAX (R127, R128), the
stochastic-rounding state (R125) and the count tokens of the chime network (R423).
-/

namespace Sys2Proof.Machine

/-- The stochastic-rounding state of a lane. -/
def Group.seed (g : Group) (l : Nat) : Half := SMap.get 0 g.srseed l
/-- The AMAX register of a lane. -/
def Group.amaxOf (g : Group) (l : Nat) : Word := SMap.get 0 g.amax l

/-- Step the LFSR of each lane of a mask `n` times when the mode is .sr (R125). -/
def Group.stepSeeds (g : Group) (m : BitVec 12) (act : Mask) (n : Nat) : Group :=
  if fldM m 9 3 = 5 then
    { g with srseed := (lanesOf act).foldl (fun t l => SMap.set 0 t l (lfsrSteps n (g.seed l))) g.srseed }
  else g

/-- The rounding mode of element `i` of a lane: .sr uses the state after `i` steps (R125). -/
def rndLane (g : Group) (m : BitVec 12) (l i : Nat) : Rnd := rndOf (fldM m 9 3) (lfsrSteps i (g.seed l)).toNat

/-- Give the issuing block count tokens for SATN (0), NANN (1) or SKIPN (2) (R423). -/
def Block.tokenAdd (b : Block) (which n : Nat) : Block := if n = 0 then b else { b with tokens := b.tokens ++ [(which, n)] }

/-- The end of a form that changes the group's registers and posts count tokens. -/
def Fe.doneCount (e : Fe) (g : Group) (sat nan : Nat) : Out :=
  .next ((e.put g.next).setBlock e.core e.g.blk ((e.b.tokenAdd 0 sat).tokenAdd 1 nan))

/-! ## CVT and CVT64 (R152, R153) -/

/-- The raw source of CVT: the low bits of A. R54 does not say how a floating constant is read by a source narrower than 32 bits: as h16 or
bf16 it delivers its value in that format, and as e5m2 to e2m1 the low bits of its f32 pattern. MODEL'S CHOICE (assumption 87). -/
def cvtSource (g : Group) (st : Nat) (a : Opnd) (l : Nat) : Nat :=
  let raw := if wideType st then (g.rd64 a l).toNat
    else match st with
      | 2 => (g.rdH h16 0 a l).toNat
      | 3 => (g.rdH bf16 0 a l).toNat
      | _ => (g.rd a l).toNat
  raw % 2 ^ typeBits st

/-- The converted code of a lane. -/
def cvtLane (g : Group) (x : FmtR) (l : Nat) : Nat :=
  let dt := fldC x.c 5 5
  let st := fldC x.c 0 5
  let raw := cvtSource g st x.a l
  let raw := match fmtOfType st with
    | some f => modIn f x.m 0 raw
    | none => raw
  convertCode dt st (rndLane g x.m l 0) (x.m.getLsbD 8) (x.m.getLsbD 7) raw

/-- The common effect of CVT and CVT64: a 64-bit destination is a pair. -/
def cvtEffect (x : FmtR) (e : Fe) : Out :=
  let r := cvtLane e.g x
  let g := if wideType (fldC x.c 5 5)
    then (e.g.write64 x.d e.act (fun l => w64 (r l))).push64 e.x x.d e.act (fun l => w64 (r l))
    else (e.g.write x.d e.act (fun l => w32 (r l))).push32 e.x x.d e.act (fun l => w32 (r l))
  e.done (g.stepSeeds x.m e.act 1)

/-- CVT (R152). -/
def execCvt (x : FmtR) (s : State) : Out := frontEnd (.cvt x) x.g s (cvtEffect x)
/-- CVT64 (R152). -/
def execCvt64 (x : FmtR) (s : State) : Out := frontEnd (.cvt64 x) x.g s (cvtEffect x)

/-! ## Quantising -/

/-- The wide formats of QCVT's ST and DQCVT's wide type: 00 f32, 01 h16, 10 bf16 (R155). -/
def wideFmt (st : Nat) : FFmt :=
  match st with
  | 0 => f32
  | 1 => h16
  | _ => bf16

/-- Elements of a quantising conversion: 2 for a 16-bit narrow type, 4 otherwise (R155). -/
def qElems (dt : Nat) : Nat := if dt ≤ 3 then 2 else 4
/-- Spacing of the narrow elements in a register (R122). -/
def qWidth (dt : Nat) : Nat := if dt ≤ 3 then 16 else if dt = 8 then 4 else 8

/-- Element `i` of a span whose elements have format `f` (R54, R122). -/
def spanElem (g : Group) (f : FFmt) (o : Opnd) (i l : Nat) : Nat :=
  match o with
  | .const n => constElem (some f) f.bits n
  | o =>
    if f.bits = 32 then (g.rdSpan o i l).toNat
    else elemAt 16 (i % 2) (g.rdSpan o (i / 2) l).toNat

/-- Whether an element counts to SATN: written as ±largest finite from a finite or infinite input beyond it (R423). -/
def countsSat (dt : Nat) (r : Rnd) (s : Nat) (x : Num) (code : Nat) : Bool :=
  match fmtOfType dt with
  | none => false
  | some f =>
    s != 0xFF && code % f.signBit == f.maxCode false &&
    match x.scale (127 - (s : Int)) with
    | .nan => false
    | .inf _ => true
    | .fin n m e => let p := f.roundMag r n m e; m != 0 && f.beyond p.1 p.2

/-- Whether an element counts to NANN: written as a NaN code, or as +0 from a NaN input (R423). -/
def countsNan (dt : Nat) (s : Nat) (x : Num) (code : Nat) : Bool :=
  match fmtOfType dt with
  | none => false
  | some f => s == 0xFF || x == .nan || f.isNaN code

/-- The inputs of a lane of QCVT, after NEG, ABS and FTZ. -/
def qInputs (g : Group) (x : FmtR) (l : Nat) : List Nat :=
  let f := wideFmt (fldC x.c 3 2)
  (List.range (qElems (fldC x.c 5 5))).map (fun i => f.flush (x.m.getLsbD 8) (modIn f x.m 0 (spanElem g f x.a i l)))

/-- The codes of a lane of QCVT, each with its input value (R155). -/
def qCodes (g : Group) (x : FmtR) (l : Nat) : List (Num × Nat) :=
  let dt := fldC x.c 5 5
  let f := wideFmt (fldC x.c 3 2)
  let sc := (g.rd x.b l).toNat % 256
  (qInputs g x l).mapIdx (fun i c =>
    (f.value c, quantCode dt (rndLane g x.m l i) (x.m.getLsbD 8) (x.m.getLsbD 7) sc (f.value c)))

/-- AMAX after a lane's inputs (R128). -/
def amaxUpdate (old : Word) (f : FFmt) (xs : List Nat) : Word :=
  let mag := xs.foldl (fun a c => if f.isNaN c then a else max a (f32.narrow .rne false (f.value (c % f.signBit)))) 0
  let nan := xs.any f.isNaN
  let m := max (old.toNat % 2 ^ 31) mag
  w32 (m + if nan || old.getLsbD 31 then 2 ^ 31 else 0)

/-- QCVT (R155, R128, R423). -/
def execQcvt (x : FmtR) (s : State) : Out :=
  frontEnd (.qcvt x) x.g s (fun e =>
    let dt := fldC x.c 5 5
    let f := wideFmt (fldC x.c 3 2)
    let half := fldC x.c 2 1
    let r := fun l =>
      let v := packElems (qWidth dt) ((qCodes e.g x l).map (·.2))
      if dt = 8 then
        let old := (e.g.rd x.d l).toNat
        w32 (if half = 1 then old % 65536 + 65536 * v else v + 65536 * (old / 65536))
      else w32 v
    let g := (e.g.write x.d e.act r).push32 e.x x.d e.act r
    let g := { g with
      amax := (lanesOf e.act).foldl (fun t l => SMap.set 0 t l (amaxUpdate (e.g.amaxOf l) f (qInputs e.g x l))) g.amax }
    let g := g.stepSeeds x.m e.act (qElems dt)
    let all := (lanesOf e.v).flatMap (fun l =>
      (qCodes e.g x l).mapIdx (fun i p => (rndLane e.g x.m l i, (e.g.rd x.b l).toNat % 256, p)))
    e.doneCount g (all.filter (fun q => countsSat dt q.1 q.2.1 q.2.2.1 q.2.2.2)).length
      (all.filter (fun q => countsNan dt q.2.1 q.2.2.1 q.2.2.2)).length)

/-- Element `i` of DQCVT's narrow source (R157). -/
def narrowElem (g : Group) (x : FmtR) (nt i l : Nat) : Nat :=
  match fmtOfType nt, x.a with
  | some f, .const n => constElem (some f) f.bits n
  | some f, o =>
    let raw := (g.rd o l).toNat
    let raw := if nt = 8 && fldC x.c 2 1 == 1 then raw / 65536 else raw
    elemAt (qWidth nt) i raw % 2 ^ f.bits
  | none, _ => 0

/-- One element of DQCVT (R157). -/
def dqElem (g : Group) (x : FmtR) (i l : Nat) : Nat :=
  let nt := fldC x.c 5 5
  let f := wideFmt (fldC x.c 3 2)
  let sc := (g.rd x.b l).toNat % 256
  let v := match fmtOfType nt with
    | some n => if sc = 0xFF then Num.nan else (n.value (narrowElem g x nt i l)).scale ((sc : Int) - 127)
    | none => .nan
  f.flush (x.m.getLsbD 8) (f.narrow (rndLane g x.m l i) (x.m.getLsbD 7) v)

/-- DQCVT (R157). -/
def execDqcvt (x : FmtR) (s : State) : Out :=
  frontEnd (.dqcvt x) x.g s (fun e =>
    let nt := fldC x.c 5 5
    let wt := fldC x.c 3 2
    let word := fun i l =>
      if wt = 0 then w32 (dqElem e.g x i l) else w32 (dqElem e.g x (2 * i) l + 65536 * dqElem e.g x (2 * i + 1) l)
    let g := match spanRegs nt wt with
      | 1 => (e.g.write x.d e.act (word 0)).push32 e.x x.d e.act (word 0)
      | 2 =>
        let r := fun l => (word 1 l ++ word 0 l : Dword)
        (e.g.write64 x.d e.act r).push64 e.x x.d e.act r
      | _ => e.g.write128 x.d e.act word
    e.done (g.stepSeeds x.m e.act (qElems nt)))

/-! ## Packing (R162, R163) -/

/-- PACK2. -/
def execPack2 (x : FmtR) (s : State) : Out :=
  frontEnd (.pack2 x) x.g s (lanes2 x (fun a b => (b.setWidth 16 : Half) ++ (a.setWidth 16 : Half)))
/-- PACK4. -/
def execPack4 (x : FmtR) (s : State) : Out :=
  frontEnd (.pack4 x) x.g s (fun e => e.result x.d (fun l =>
    w32 (packElems 8 ((List.range 4).map (fun i => (e.g.rdSpan x.a i l).toNat)))))
/-- PACK8. -/
def execPack8 (x : FmtR) (s : State) : Out :=
  frontEnd (.pack8 x) x.g s (fun e => e.result x.d (fun l =>
    w32 (packElems 4 ((List.range 4).map (fun i => (e.g.rdSpan x.a i l).toNat) ++
      (List.range 4).map (fun i => (e.g.rdSpan x.b i l).toNat)))))

/-- Element `i` of width `w` of A, widened by SX (R163); a constant gives every element its low bits (R54). -/
def unpkElem (g : Group) (x : FmtR) (w i l : Nat) : Word :=
  let c := match x.a with
    | .const n => constElem none w n
    | o => elemAt w i (g.rd o l).toNat
  BitVec.ofInt 32 (intOfBits (x.c.getLsbD 0) w c)

/-- UNPK2. -/
def execUnpk2 (x : FmtR) (s : State) : Out :=
  frontEnd (.unpk2 x) x.g s (fun e => e.result64 x.d (fun l => unpkElem e.g x 16 1 l ++ unpkElem e.g x 16 0 l))
/-- UNPK4; a quad leaves y unchanged. -/
def execUnpk4 (x : FmtR) (s : State) : Out :=
  frontEnd (.unpk4 x) x.g s (fun e => e.done (e.g.write128 x.d e.act (fun i l => unpkElem e.g x 8 i l)))
/-- UNPK8; HI selects the upper four elements. -/
def execUnpk8 (x : FmtR) (s : State) : Out :=
  frontEnd (.unpk8 x) x.g s (fun e =>
    e.done (e.g.write128 x.d e.act (fun i l => unpkElem e.g x 4 (4 * fldC x.c 1 1 + i) l)))

/-! ## Scales and blocks (R154, R158, R159) -/

/-- SCALEX. -/
def execScalex (x : FmtR) (s : State) : Out :=
  frontEnd (.scalex x) x.g s (fun e => e.result x.d (fun l =>
    let a := (e.g.rd x.a l).toNat
    let nan := if x.c.getLsbD 3 then decide (2 ^ 31 ≤ a) else f32.isNaN a
    let m := f32.value (f32.flush (x.m.getLsbD 8) (a % 2 ^ 31))
    w32 (scaleOf nan m (fldC x.c 5 5) (x.c.getLsbD 4))))

/-- QBLK: one block across the group (R158, R423). -/
def execQblk (x : FmtR) (s : State) : Out :=
  frontEnd (.qblk x) x.g s (fun e =>
    let dt := fldC x.c 5 5
    let inp := fun l => f32.flush (x.m.getLsbD 8) (modIn f32 x.m 0 (e.g.rd x.a l).toNat)
    let m := (lanesOf e.v).foldl (fun a l => if f32.isNaN (inp l) then a else max a (inp l % 2 ^ 31)) 0
    let n := (lanesOf e.v).any (fun l => f32.isNaN (inp l))
    let sc := if n && 6 ≤ dt then 0xFF else scaleOf false (f32.value m) dt (x.c.getLsbD 4)
    let q := fun l => quantCode dt (rndLane e.g x.m l 0) (x.m.getLsbD 8) (x.m.getLsbD 7) sc (f32.value (inp l))
    let r := fun l => w32 (sc * 256 + q l)
    let g := (e.g.write x.d e.act r).push32 e.x x.d e.act r
    e.doneCount (g.stepSeeds x.m e.act 1)
      ((lanesOf e.v).filter (fun l => countsSat dt (rndLane e.g x.m l 0) sc (f32.value (inp l)) (q l))).length
      ((lanesOf e.v).filter (fun l => countsNan dt sc (f32.value (inp l)) (q l))).length)

/-- BLKMAX over aligned segments (R159). -/
def execBlkmax (x : FmtR) (s : State) : Out :=
  frontEnd (.blkmax x) x.g s (fun e =>
    let seg := match fldC x.c 7 2 with
      | 0 => 32
      | 1 => 16
      | 2 => 8
      | _ => 4
    let one := fun l =>
      if x.c.getLsbD 9 then (e.g.amaxOf l).toNat
      else
        let a := f32.flush (x.m.getLsbD 8) (e.g.rd x.a l).toNat
        if f32.isNaN a then 2 ^ 31 else a % 2 ^ 31
    e.result x.d (fun l =>
      let ls := (lanesOf e.v).filter (fun j => j / seg == l / seg)
      w32 (ls.foldl (fun a j => max a (one j % 2 ^ 31)) 0 + if ls.any (fun j => decide (2 ^ 31 ≤ one j)) then 2 ^ 31 else 0)))

/-- AMAXCLR: read and clear in one step (R160). -/
def execAmaxclr (x : FmtR) (s : State) : Out :=
  frontEnd (.amaxclr x) x.g s (fun e =>
    let r := fun l => e.g.amaxOf l
    let g := (e.g.write x.d e.act r).push32 e.x x.d e.act r
    e.done { g with amax := (lanesOf e.act).foldl (fun t l => SMap.set 0 t l 0) g.amax })

/-- SRSEED: a state of 0 is replaced by 1; no register result (R161). -/
def execSrseed (x : FmtR) (s : State) : Out :=
  frontEnd (.srseed x) x.g s (fun e =>
    let v := fun l =>
      let a : Half := (e.g.rd x.a l).setWidth 16
      let a := if x.c.getLsbD 0 then a ^^^ BitVec.ofNat 16 (e.g.tid l) else a
      if a = 0 then 1 else a
    e.done { e.g with srseed := (lanesOf e.act).foldl (fun t l => SMap.set 0 t l (v l)) e.g.srseed })

/-! ## Packed dot products (R164 to R166) -/

/-- Element `i` of a packed dot source of `n` elements in format `f`, spaced `w` bits; a constant gives every element its value
in the format (R54). -/
def dotElem (g : Group) (f : FFmt) (w : Nat) (o : Opnd) (i l : Nat) : Nat :=
  match o with
  | .const n => constElem (some f) f.bits n
  | o => elemAt w i (g.rd o l).toNat % 2 ^ f.bits

/-- The floating dot forms: `w` the element spacing, formats of A and B, with NEG and ABS on A and B (R165). FTZ reads subnormal elements
of h16 and bf16 as zeros, as R118 says of those formats, and never narrower ones. MODEL'S CHOICE (assumption 93): R165 names only D and the
result, and exempts "the narrow elements (R118)". -/
def dotFloat (x : FmtR) (w : Nat) (fa fb : FFmt) (e : Fe) : Out :=
  let k := arithOf x.m
  e.result x.d (fun l =>
    let inp := fun (f : FFmt) (i c : Nat) =>
      f.inp k (modIn f x.m i c)
    let prods := (List.range (32 / w)).map (fun i =>
      Num.mul (inp fa 0 (dotElem e.g fa w x.a i l)) (inp fb 1 (dotElem e.g fb w x.b i l)))
    w32 (f32.finish k (exactSum (k.rnd == .rdn) (f32.inp k (e.g.rd x.d l).toNat :: prods))))

/-- The integer dot forms (R166). -/
def dotInt (x : FmtR) (w : Nat) (e : Fe) : Out :=
  e.result x.d (fun l =>
    let el := fun (t : Nat) (o : Opnd) (i : Nat) =>
      intOfBits (intOfType t).1 w (match o with
        | .const n => constElem none w n
        | o => elemAt w i (e.g.rd o l).toNat)
    let sum := (List.range (32 / w)).foldl (fun a i => a + el (fldC x.c 5 5) x.a i * el (fldC x.c 0 5) x.b i) (e.g.rd x.d l).toInt
    BitVec.ofInt 32 (if x.m.getLsbD 7 then clampInt (-(2 ^ 31)) (2 ^ 31 - 1) sum else sum))

/-- The narrow format of a type code; f32 where the code names none. -/
def fmtD (t : Nat) : FFmt := (fmtOfType t).getD f32

/-- DOT2H (R165). -/
def execDot2h (x : FmtR) (s : State) : Out := frontEnd (.dot2h x) x.g s (dotFloat x 16 h16 h16)
/-- DOT2B (R165). -/
def execDot2b (x : FmtR) (s : State) : Out := frontEnd (.dot2b x) x.g s (dotFloat x 16 bf16 bf16)
/-- DOT4I (R166). -/
def execDot4i (x : FmtR) (s : State) : Out := frontEnd (.dot4i x) x.g s (dotInt x 8)
/-- DOT8I (R166). -/
def execDot8i (x : FmtR) (s : State) : Out := frontEnd (.dot8i x) x.g s (dotInt x 4)
/-- DOT4E (R165). -/
def execDot4e (x : FmtR) (s : State) : Out :=
  frontEnd (.dot4e x) x.g s (dotFloat x 8 (fmtD (fldC x.c 5 5)) (fmtD (fldC x.c 0 5)))
/-- DOT8E (R165). -/
def execDot8e (x : FmtR) (s : State) : Out := frontEnd (.dot8e x) x.g s (dotFloat x 4 e2m1 e2m1)
/-- IDP2 (R166). -/
def execIdp2 (x : FmtR) (s : State) : Out := frontEnd (.idp2 x) x.g s (dotInt x 16)

end Sys2Proof.Machine
end

