-- ==== Sys2Proof/Machine/GlobalMem.lean ====
section
/-!
DEFINITION. Global loads, stores, atomics, reductions, fences, prefetch and cache control, OP 0xA0 to 0xBB (R230 to R250).
-/

namespace Sys2Proof.Machine

/-- base + SEXT(OFS, 64) in a lane (R57, R230). -/
def Fe.gaddr (e : Fe) (x : FmtM) (l : Nat) : Nat := (e.g.rd64 x.a l + x.ofs.signExtend 64).toNat
/-- The address of LDV and STV: the lane's element of one run (R238). -/
def Fe.runAddr (e : Fe) (x : FmtM) (l : Nat) : Nat :=
  (e.g.rd64 x.a l + x.ofs.signExtend 64 + BitVec.ofNat 64 (l * mmBytes x.mm)).toNat
/-- The base alone, for format R (R230). -/
def Fe.baseAddr (e : Fe) (a : Opnd) (l : Nat) : Nat := (e.g.rd64 a l).toNat

/-! ## Loads (R237 to R240) -/

/-- The issue after its reads have reached the homes of their lines. -/
def Fe.reads (e : Fe) (ch : Nat) (cells : List (Nat × Nat)) : Fe := { e with s := e.s.loadLines e.core e.slot ch cells }

/-- A load of every lane: checked, then performed, or sent to host or peer memory. -/
def loadEffect (x : FmtM) (addr : Fe → Nat → Nat) (e : Fe) : Out :=
  let n := mmBytes x.mm
  e.inOrder (mmOrd x.mm) (mmScp x.mm)
    (e.checked e.act n true (fun l => (addr e l, e.s.reach e.core e.b .read n (addr e l))) (fun lanes =>
      e.acquires (mmOrd x.mm) (mmScp x.mm) (laneCells lanes n)
        (if anyOutside lanes then e.request (.load x.d x.mm lanes 0)
         else (e.reads (mmCh x.mm) (laneCells lanes n)).loaded x.d x.mm (e.s.laneRead lanes n))))

/-- LD (R237). -/
def execLd (x : FmtM) (s : State) : Out := frontEnd (.ld x) x.g s (loadEffect x (fun e => e.gaddr x))
/-- LDV (R238). -/
def execLdv (x : FmtM) (s : State) : Out := frontEnd (.ldv x) x.g s (loadEffect x (fun e => e.runAddr x))

/-- Write a k register, pair or quad with a loaded value (R239); a quad leaves y unchanged. -/
def Fe.loadedK (e : Fe) (d : Opnd) (m : BitVec 12) (v : Nat) : Out :=
  let n := kIndexOf d
  match mmBytes m with
  | 16 => e.done (((e.g.writeK n (w32 v)).writeK (n + 1) (w32 (v / 2 ^ 32))).writeK (n + 2) (w32 (v / 2 ^ 64)) |>.writeK (n + 3)
      (w32 (v / 2 ^ 96)))
  | 8 =>
    let g := (e.g.writeK n (w32 v)).writeK (n + 1) (w32 (v / 2 ^ 32))
    e.done (g.push64 e.x d e.act (fun _ => BitVec.ofNat 64 v))
  | _ => e.done ((e.g.writeK n (w32 v)).push32 e.x d e.act (fun _ => w32 v))
where
  /-- The number of a k register operand. -/
  kIndexOf : Opnd → Nat
    | .k n => n.toNat
    | _ => 0

/-- LDK: the lowest lane of ACT loads once for the group (R239). -/
def execLdk (x : FmtM) (s : State) : Out :=
  frontEnd (.ldk x) x.g s (fun e =>
    let n := mmBytes x.mm
    if e.act = 0 then e.done e.g
    else e.inOrder (mmOrd x.mm) (mmScp x.mm)
      (e.checked (1#32 <<< lowest e.act) n true (fun l => (e.gaddr x l, e.s.reach e.core e.b .read n (e.gaddr x l))) (fun lanes =>
        e.acquires (mmOrd x.mm) (mmScp x.mm) (laneCells lanes n)
          (if anyOutside lanes then e.request (.load x.d x.mm lanes 0)
           else (e.reads (mmCh x.mm) (laneCells lanes n)).loadedK x.d x.mm (e.s.laneRead lanes n (lowest e.act))))))

/-- The status of LDNF: the guard predicate fails in the suppressed lanes (R240). -/
def Group.ldnfStatus (g : Group) (x : Guard) (m : Mask) : Group := g.setPred x.pred.toNat m (fun _ => boolWord x.neg)

/-- LDNF: a lane that fails translation, permission or a sparse check receives 0; misalignment still faults (R240). A lane that
would need a page request of the host is suppressed too: LDNF sends none. -/
def execLdnf (x : FmtM) (s : State) : Out :=
  frontEnd (.ldnf x) x.g s (fun e =>
    let n := mmBytes x.mm
    let reach : Nat → Xlat := fun l => e.s.reach e.core e.b .read n (e.gaddr x l)
    let soft : Nat → Bool := fun l => match reach l with
      | .bad c _ => c != 3 || (e.g.helpers e.b).getLsbD l
      | .wait => true
      | _ => false
    let fails := maskOf ((lanesOf e.act).filter soft)
    e.checked e.act n true (fun l => (e.gaddr x l, if soft l then .zero else reach l)) (fun lanes =>
      if anyOutside lanes then e.request (.load x.d x.mm lanes fails)
      else ({ e.reads (mmCh x.mm) (laneCells lanes n) with g := e.g.ldnfStatus x.g fails } : Fe).loaded x.d x.mm (e.s.laneRead lanes n)))

/-! ## Stores (R237, R238, R241) -/

/-- The cells of a store: the lanes that have a key, in ascending order. -/
def storeCellsOf (lanes : List (Nat × Option Nat)) (n : Nat) (v : Nat → Nat) : List (Nat × Nat × Nat) :=
  lanes.filterMap (fun p => p.2.map (fun k => (k, n, v p.1)))

/-- A store of every lane that is not a helper lane. -/
def storeEffect (m : BitVec 12) (n : Nat) (addr v : Nat → Nat) (e : Fe) : Out :=
  e.inOrder (mmOrd m) (mmScp m)
    (e.checked e.v n false (fun l => (addr l, e.s.reach e.core e.b .write n (addr l))) (fun lanes =>
      .next ((e.s.storeCells e.core e.slot (mmCh m) (storeCellsOf lanes n v)).setGroup e.core e.slot e.g.next)))

/-- ST (R237). -/
def execSt (x : FmtM) (s : State) : Out :=
  frontEnd (.st x) x.g s (fun e => storeEffect x.mm (mmBytes x.mm) (e.gaddr x) (e.g.rdData x.d (szRegs x.mm)) e)
/-- STV (R238). -/
def execStv (x : FmtM) (s : State) : Out :=
  frontEnd (.stv x) x.g s (fun e => storeEffect x.mm (mmBytes x.mm) (e.runAddr x) (e.g.rdData x.d (szRegs x.mm)) e)
/-- STZ (R241). -/
def execStz (x : FmtM) (s : State) : Out :=
  frontEnd (.stz x) x.g s (fun e => storeEffect x.mm 128 (e.gaddr x) (fun _ => 0) e)

/-! ## Atomics and reductions (R242 to R247) -/

/-- Operations of OPNEW. -/
inductive AtOp where
  | add | min | max | and | or | xor | exch | cas | inc | dec | fadd | fmin | fmax
deriving DecidableEq, Repr

/-- The number of an operation in a request. -/
def AtOp.num : AtOp → Nat
  | .add => 0
  | .min => 1
  | .max => 2
  | .and => 3
  | .or => 4
  | .xor => 5
  | .exch => 6
  | .cas => 7
  | .inc => 8
  | .dec => 9
  | .fadd => 10
  | .fmin => 11
  | .fmax => 12

/-- The operation of a number. -/
def atOpOf : Nat → AtOp
  | 0 => .add
  | 1 => .min
  | 2 => .max
  | 3 => .and
  | 4 => .or
  | 5 => .xor
  | 6 => .exch
  | 7 => .cas
  | 8 => .inc
  | 9 => .dec
  | 10 => .fadd
  | 11 => .fmin
  | _ => .fmax

/-- OPNEW on `n` bytes (R243, R244). -/
def opNew (op : AtOp) (signed : Bool) (n old b c : Nat) : Nat :=
  let w := 8 * n
  let f := if n = 8 then f64 else f32
  let less := fun x y : Nat => if signed then decide (intOfBits true w x < intOfBits true w y) else decide (x < y)
  match op with
  | .add => (old + b) % 2 ^ w
  | .min => if less b old then b else old
  | .max => if less old b then b else old
  | .and => Nat.land old b
  | .or => Nat.lor old b
  | .xor => Nat.xor old b
  | .exch => b
  | .cas => if old = c then b else old
  | .inc => if b ≤ old then 0 else old + 1
  | .dec => if old = 0 ∨ b < old then b else old - 1
  | .fadd => f.addC plainArith old b
  | .fmin => f.minMax false false old b
  | .fmax => f.minMax true false old b

/-- Host memory takes FetchAdd, Swap and CAS (R247). -/
def AtOp.hostOk : AtOp → Bool
  | .add | .exch | .cas => true
  | _ => false

/-- Perform the lanes of an atomic one by one in ascending order; the old values by lane (R233, R242). -/
def State.atomics (s : State) (op : AtOp) (signed : Bool) (n : Nat) :
    List (Nat × Option Nat × Nat × Nat) → State × List (Nat × Nat)
  | [] => (s, [])
  | (l, some k, b, c) :: r =>
    let old := s.rd k n
    let q := State.atomics (s.putCells [(k, n, opNew op signed n old b c)]) op signed n r
    (q.1, (l, old) :: q.2)
  | (_, none, _, _) :: r => State.atomics s op signed n r

/-- The old value of a lane; a suppressed lane receives 0 (R18, R242). -/
def oldOf (olds : List (Nat × Nat)) (l : Nat) : Nat := ((olds.find? (fun p => p.1 == l)).map (·.2)).getD 0

/-- The operand and compare values of the lanes of an atomic. -/
def atLanes (lanes : List (Nat × Option Nat)) (b c : Nat → Nat) : List (Nat × Option Nat × Nat × Nat) :=
  lanes.map (fun p => (p.1, p.2, b p.1, c p.1))

/-- The byte ranges of the lanes of an atomic. -/
def atCells (n : Nat) (ls : List (Nat × Option Nat × Nat × Nat)) : List (Nat × Nat) :=
  ls.filterMap (fun p => p.2.1.map (fun k => (k, n)))

/-- An AT* form: each lane reads, modifies and writes at the location's home, and D receives the old value. -/
def atomicEffect (op : AtOp) (signed : Bool) (a d : Opnd) (m : BitVec 12) (b c : Nat → Nat) (e : Fe) : Out :=
  let n := mmBytes m
  e.inOrder (mmOrd m) (mmScp m)
    (e.checked e.v n true (fun l => (e.baseAddr a l, noHost op.hostOk (e.s.reach e.core e.b .atomic n (e.baseAddr a l))))
      (fun lanes =>
        let ls := atLanes lanes b c
        e.acquires (mmOrd m) (mmScp m) (laneCells lanes n)
          (if anyOutside lanes then e.request (.atomic op.num signed d m ls none)
           else
            let q := e.s.atomics op signed n ls
            ({ e with s := q.1.ordered e.core e.slot none (atCells n ls) } : Fe).loaded d m (oldOf q.2))))

/-- A RED* form: an AT* form that returns nothing and needs W alone (R216); the group does not wait (R246). It performs once for each lane, as
R242 says of the forms that it is, so an unguarded REDADD of 1 in 32 lanes adds 32, where R482 and R484 speak of 1. DEDUCED
(assumption 122). -/
def reduceEffect (op : AtOp) (signed : Bool) (a : Opnd) (m : BitVec 12) (b : Nat → Nat) (e : Fe) : Out :=
  let n := mmBytes m
  e.inOrder (mmOrd m) (mmScp m)
    (e.checked e.v n true (fun l => (e.baseAddr a l, noHost false (e.s.reach e.core e.b .write n (e.baseAddr a l))))
      (fun lanes =>
        let ls := atLanes lanes b (fun _ => 0)
        let q := e.s.atomics op signed n ls
        .next ((q.1.ordered e.core e.slot none (atCells n ls)).setGroup e.core e.slot e.g.next)))

/-- An AT* form of format R: B is the operand, C[0] is S (R242). -/
def atomicR (op : AtOp) (x : FmtR) (e : Fe) : Out :=
  atomicEffect op (x.c.getLsbD 0) x.a x.d x.m (e.g.rdData x.b (szRegs x.m)) (fun _ => 0) e
/-- A compare and swap: C is the compare value (R242, R245). -/
def casR (x : FmtR3) (e : Fe) : Out :=
  atomicEffect .cas false x.a x.d x.m (e.g.rdData x.b (szRegs x.m)) (e.g.rdData x.c (szRegs x.m)) e
/-- A RED* form of format R. -/
def reduceR (op : AtOp) (x : FmtR) (e : Fe) : Out :=
  reduceEffect op (x.c.getLsbD 0) x.a x.m (e.g.rdData x.b (szRegs x.m)) e

/-- ATADD. -/
def execAtadd (x : FmtR) (s : State) : Out := frontEnd (.atadd x) x.g s (atomicR .add x)
/-- ATMIN. -/
def execAtmin (x : FmtR) (s : State) : Out := frontEnd (.atmin x) x.g s (atomicR .min x)
/-- ATMAX. -/
def execAtmax (x : FmtR) (s : State) : Out := frontEnd (.atmax x) x.g s (atomicR .max x)
/-- ATAND. -/
def execAtand (x : FmtR) (s : State) : Out := frontEnd (.atand x) x.g s (atomicR .and x)
/-- ATOR. -/
def execAtor (x : FmtR) (s : State) : Out := frontEnd (.ator x) x.g s (atomicR .or x)
/-- ATXOR. -/
def execAtxor (x : FmtR) (s : State) : Out := frontEnd (.atxor x) x.g s (atomicR .xor x)
/-- ATEXCH. -/
def execAtexch (x : FmtR) (s : State) : Out := frontEnd (.atexch x) x.g s (atomicR .exch x)
/-- ATCAS: always writes (R243). -/
def execAtcas (x : FmtR3) (s : State) : Out := frontEnd (.atcas x) x.g s (casR x)
/-- ATINC. -/
def execAtinc (x : FmtR) (s : State) : Out := frontEnd (.atinc x) x.g s (atomicR .inc x)
/-- ATDEC. -/
def execAtdec (x : FmtR) (s : State) : Out := frontEnd (.atdec x) x.g s (atomicR .dec x)
/-- ATFADD. -/
def execAtfadd (x : FmtR) (s : State) : Out := frontEnd (.atfadd x) x.g s (atomicR .fadd x)
/-- ATFMIN. -/
def execAtfmin (x : FmtR) (s : State) : Out := frontEnd (.atfmin x) x.g s (atomicR .fmin x)
/-- ATFMAX. -/
def execAtfmax (x : FmtR) (s : State) : Out := frontEnd (.atfmax x) x.g s (atomicR .fmax x)
/-- ATCAS128 (R245). -/
def execAtcas128 (x : FmtR3) (s : State) : Out := frontEnd (.atcas128 x) x.g s (casR x)
/-- REDADD (R246). -/
def execRedadd (x : FmtR) (s : State) : Out := frontEnd (.redadd x) x.g s (reduceR .add x)
/-- REDMIN (R246). -/
def execRedmin (x : FmtR) (s : State) : Out := frontEnd (.redmin x) x.g s (reduceR .min x)
/-- REDMAX (R246). -/
def execRedmax (x : FmtR) (s : State) : Out := frontEnd (.redmax x) x.g s (reduceR .max x)
/-- REDFADD (R246). -/
def execRedfadd (x : FmtR) (s : State) : Out := frontEnd (.redfadd x) x.g s (reduceR .fadd x)

/-! ## Fences, prefetch and cache control (R248 to R250) -/

/-- FENCE: waits for the thread's earlier accesses at its scope; with ACT empty it orders nothing. -/
def execFence (x : FmtM) (s : State) : Out :=
  frontEnd (.fence x) x.g s (fun e =>
    if e.act = 0 then e.done e.g else e.inOrder (mmOrd x.mm) (mmScp x.mm) (e.done e.g))

/-- The pages of a prefetch that no TLB holds, with a walk still to make: each asks its die for a walk, and the group does not wait (R219,
R220, R249). -/
def Fe.wantedPages (e : Fe) (x : FmtM) : List (Nat × Nat × Nat) :=
  (((lanesOf e.act).map (fun l => e.gaddr x l / 65536 * 65536)).filter (fun va =>
    decide (va < 2 ^ 56) && (e.s.tlbHit e.core e.b.asid va).isNone)).eraseDups.map (fun va => (e.core, e.b.asid, va))

/-- The lines that a prefetch brings to the slices of its kit: lanes that fail a check, and reads of zero, are dropped (R218, R249). -/
def Fe.prefetched (e : Fe) (x : FmtM) : List (Nat × Nat) :=
  (lanesOf e.act).filterMap (fun l =>
    match e.s.reach e.core e.b .read 1 (e.gaddr x l) with
    | .at k => if keyTgt k = 0 ∧ e.s.claimed k 1 = false then some (k, 1) else none
    | _ => none)

/-- PREF: never faults and never waits; lines that it brings to the L1 slices have the kit as a holder at their homes (R249, R297). The
value of no access depends on them (R235). Under CH 01 and 11 a line goes to its L2 home only. -/
def execPref (x : FmtM) (s : State) : Out :=
  frontEnd (.pref x) x.g s (fun e =>
    let d := dieOf e.core
    let s1 := if (mmCh x.mm) % 2 = 1 then e.s
      else match e.s.kitFor e.core 0 with
        | some k => e.s.kitReads k ((e.prefetched x).map (fun c => lineOf c.1))
        | none => e.s
    let s2 : State := { s1 with walks := SMap.set [] s1.walks d (SMap.get [] s1.walks d ++ e.wantedPages x) }
    .next (s2.setGroup e.core e.slot e.g.next))

/-- One CCTL operation on the directory entry of a line: `.l1drop` the kit's copy goes, `.wbinv` every copy goes; `.lowpri` and
`.wb` change nothing that the machine's state holds. -/
def DirEntry.cctl (d : DirEntry) (op kit : Nat) : DirEntry :=
  match op with
  | 0 => d.evict kit
  | 3 => d.invalid
  | _ => d

/-- The lines that a CCTL reaches: lanes that fail a check are skipped, helper lanes suppressed (R250). -/
def Fe.cctlLines (e : Fe) (x : FmtM) : List Nat :=
  (lanesOf e.v).filterMap (fun l =>
    match e.s.reach e.core e.b .read 1 (e.gaddr x l) with
    | .at k => if keyTgt k = 0 then some (lineOf k) else none
    | _ => none)

/-- CCTL (R250); a recall wakes the kits that hold the line (R302). -/
def execCctl (x : FmtM) (s : State) : Out :=
  frontEnd (.cctl x) x.g s (fun e =>
    let op := match x.d with
      | .v n => n.toNat
      | _ => 0
    let s1 := (e.cctlLines x).foldl (fun s n =>
      (if op = 3 then s.woken (s.dirEntry n).kits else s).setDir n ((s.dirEntry n).cctl op (kitOf e.core))) e.s
    .next (s1.setGroup e.core e.slot e.g.next))

end Sys2Proof.Machine
end

