-- ==== Sys2Proof/WellFormed.lean ====
section
/-!
DEFINITION. Which instructions are well formed: those whose fields pass check 1 of R60 (front-end words) or the checks of R65
and R194 that need only the word (element words). The checks stand in Sys2Proof/Machine/Legal.lean.
-/

namespace Sys2Proof

/-- An instruction whose fields are all legal. -/
def wellFormed (i : Instr) : Bool := Machine.legal i

end Sys2Proof
end

