-- ==== Sys2Proof/Decode.lean ====
section
/-!
DEFINITION. Decoding, total on any word, and the encoder. Front-end words: formats of R52, operand codes of R53 and R58,
opcode map R61, formats R62. Element words: R63 to R65.
-/

namespace Sys2Proof

open Machine

/-- Why a word is rejected. -/
inductive DecodeError where
  /-- the word is all zero (R51, R60) -/
  | zeroWord
  /-- OP is unassigned (R61), or M selects no form of the opcode (R433) -/
  | unassigned (op : Nat)
  /-- an operand field holds a code illegal in every position (R53, R58) -/
  | operandCode
  /-- a reserved field, an operand, a handle, a modifier or a combination is illegal under the entry (R60) -/
  | illegalForm
  /-- an element opcode 0x38 to 0x3F (R65) -/
  | elementOpcode (op : Nat)
  /-- the width names no instruction word: 64 bits in the front end, 32 in an element (R50, R63) -/
  | width (nbits : Nat)
deriving DecidableEq, Repr

/-- OP[63:56] (R51). -/
def opOf (w : BitVec 64) : Nat := (w.extractLsb' 56 8).toNat
/-- G[55:52] (R51). -/
def guardOf (w : BitVec 64) : Guard := { neg := w.getLsbD 55, pred := w.extractLsb' 52 3 }
/-- An operand field at bit `lo`. -/
def fieldAt (w : BitVec 64) (lo : Nat) : Option Opnd := opndOfCode (w.extractLsb' lo 10)

/-- Formats R and X with control bits in C (R52). -/
def decR (w : BitVec 64) : Option FmtR := do
  let d ← fieldAt w 42
  let a ← fieldAt w 32
  let b ← fieldAt w 22
  some { g := guardOf w, d, a, b, c := w.extractLsb' 12 10, m := w.extractLsb' 0 12 }

/-- Formats R and X with an operand in C (R52). -/
def decR3 (w : BitVec 64) : Option FmtR3 := do
  let d ← fieldAt w 42
  let a ← fieldAt w 32
  let b ← fieldAt w 22
  let c ← fieldAt w 12
  some { g := guardOf w, d, a, b, c, m := w.extractLsb' 0 12 }

/-- Format I (R52). -/
def decI (w : BitVec 64) : Option FmtI := do
  let d ← fieldAt w 42
  let a ← fieldAt w 32
  some { g := guardOf w, d, a, imm := w.extractLsb' 0 32 }

/-- Format M (R52). -/
def decM (w : BitVec 64) : Option FmtM := do
  let d ← fieldAt w 42
  let a ← fieldAt w 32
  some { g := guardOf w, d, a, ofs := w.extractLsb' 12 20, mm := w.extractLsb' 0 12 }

/-- Format B (R52). -/
def decB (w : BitVec 64) : Option FmtB := do
  let d ← fieldAt w 42
  let a ← fieldAt w 32
  some { g := guardOf w, lnk := d, a, ofs := w.extractLsb' 0 32 }

/-- Format S (R52). -/
def decS (w : BitVec 64) : Option FmtS := do
  let d ← fieldAt w 42
  let a ← fieldAt w 32
  some { g := guardOf w, d, a, srn := w.extractLsb' 20 12, sub := w.extractLsb' 12 8, m := w.extractLsb' 0 12 }

/-- The instruction of an opcode, its fields read in the opcode's format (R61, R62); none where the opcode is unassigned or an
operand code names nothing. -/
def decodeFields (w : BitVec 64) : Option Instr :=
  match opOf w with
  | 0x01 => (decB w).map .bra
  | 0x02 => (decR w).map .brx
  | 0x03 => (decB w).map .call
  | 0x04 => (decR w).map .callx
  | 0x05 => (decM w).map .calll
  | 0x06 => (decR w).map .ret
  | 0x07 => (decR w).map .exit
  | 0x08 => (decB w).map .rcv
  | 0x09 => (decR w).map .join
  | 0x0A => (decI w).map .loophint
  | 0x0B => (decI w).map .trap
  | 0x0C => (decI w).map .bkpt
  | 0x0D => (decR w).map .nop
  | 0x0E => (decS w).map .rdsr
  | 0x0F => (decS w).map .wrsr
  | 0x10 => (decR w).map .iadd
  | 0x11 => (decR w).map .isub
  | 0x12 => (decR w).map .imul
  | 0x13 => (decR w).map .imulh
  | 0x14 => (decR3 w).map .imad
  | 0x15 => (decR w).map .iadd64
  | 0x16 => (decR w).map .isub64
  | 0x17 => (decR3 w).map .imad64
  | 0x18 => (decR w).map .idiv
  | 0x19 => (decR w).map .irem
  | 0x1A => (decR w).map .imin
  | 0x1B => (decR w).map .imax
  | 0x1C => (decR w).map .iabs
  | 0x1D => (decR w).map .ineg
  | 0x1E => (decR3 w).map .isad
  | 0x1F => (decR3 w).map .iaddc
  | 0x20 => (decR w).map .and
  | 0x21 => (decR w).map .or
  | 0x22 => (decR w).map .xor
  | 0x23 => (decR w).map .andn
  | 0x24 => (decR w).map .not
  | 0x25 => (decR w).map .shl
  | 0x26 => (decR w).map .shr
  | 0x27 => (decR w).map .sar
  | 0x28 => (decR w).map .rot
  | 0x29 => (decR3 w).map .fshl
  | 0x2A => (decR3 w).map .fshr
  | 0x2B => (decR w).map .shl64
  | 0x2C => (decR w).map .shr64
  | 0x2D => (decR w).map .popc
  | 0x2E => (decR w).map .clz
  | 0x2F => (decR w).map .ctz
  | 0x30 => (decR w).map .brev
  | 0x31 => (decR w).map .bfx
  | 0x32 => (decR3 w).map .bfi
  | 0x33 => (decR3 w).map .prmt
  | 0x34 => (decR w).map .icmp
  | 0x35 => (decR w).map .iset
  | 0x36 => (decR3 w).map .isel
  | 0x37 => (decR3 w).map .pset
  | 0x38 => (decR w).map .mov
  | 0x39 => (decI w).map .movi
  | 0x3A => (decI w).map .movk
  | 0x3B => (decR w).map .lea
  | 0x3C => (decR w).map .lea64
  | 0x40 => (decR w).map .fadd
  | 0x41 => (decR w).map .fsub
  | 0x42 => (decR w).map .fmul
  | 0x43 => (decR3 w).map .ffma
  | 0x44 => (decR w).map .fmin
  | 0x45 => (decR w).map .fmax
  | 0x46 => (decR w).map .fcmp
  | 0x47 => (decR w).map .fset
  | 0x48 => (decR3 w).map .fsel
  | 0x49 => (decR w).map .fclass
  | 0x4A => (decR w).map .frnd
  | 0x4B => (decR w).map .frcp
  | 0x4C => (decR w).map .frsq
  | 0x4D => (decR w).map .fsqrt
  | 0x4E => (decR w).map .fexp2
  | 0x4F => (decR w).map .flog2
  | 0x50 => (decR w).map .fsin
  | 0x51 => (decR w).map .fcos
  | 0x52 => (decR w).map .ftanh
  | 0x53 => (decR w).map .fdiv
  | 0x54 => (decR w).map .fldexp
  | 0x55 => (decR w).map .ffrexp
  | 0x56 => (decR w).map .hadd2
  | 0x57 => (decR w).map .hsub2
  | 0x58 => (decR w).map .hmul2
  | 0x59 => (decR3 w).map .hfma2
  | 0x5A => (decR w).map .hmin2
  | 0x5B => (decR w).map .hmax2
  | 0x5C => (decR w).map .hcmp2
  | 0x5D => (decR w).map .badd2
  | 0x5E => (decR w).map .bsub2
  | 0x5F => (decR w).map .bmul2
  | 0x60 => (decR3 w).map .bfma2
  | 0x61 => (decR w).map .bmin2
  | 0x62 => (decR w).map .bmax2
  | 0x63 => (decR w).map .bcmp2
  | 0x64 => (decR3 w).map .ffmah
  | 0x65 => (decR3 w).map .ffmab
  | 0x66 => (decR w).map .dadd
  | 0x67 => (decR w).map .dmul
  | 0x68 => (decR3 w).map .dfma
  | 0x69 => (decR w).map .dcmp
  | 0x6A => (decR w).map .dmin
  | 0x6B => (decR w).map .dmax
  | 0x70 => (decR w).map .cvt
  | 0x71 => (decR w).map .cvt64
  | 0x72 => (decR w).map .qcvt
  | 0x73 => (decR w).map .dqcvt
  | 0x74 => (decR w).map .pack2
  | 0x75 => (decR w).map .pack4
  | 0x76 => (decR w).map .pack8
  | 0x77 => (decR w).map .unpk2
  | 0x78 => (decR w).map .unpk4
  | 0x79 => (decR w).map .unpk8
  | 0x7A => (decR w).map .scalex
  | 0x7B => (decR w).map .qblk
  | 0x7C => (decR w).map .blkmax
  | 0x7D => (decR w).map .srseed
  | 0x7E => (decR w).map .dot2h
  | 0x7F => (decR w).map .dot2b
  | 0x80 => (decR w).map .dot4i
  | 0x81 => (decR w).map .dot8i
  | 0x82 => (decR w).map .dot4e
  | 0x83 => (decR w).map .dot8e
  | 0x84 => (decR w).map .idp2
  | 0x85 => (decR w).map .amaxclr
  | 0x88 => (decR w).map .shfli
  | 0x89 => (decR w).map .shfla
  | 0x8A => (decR w).map .shflb
  | 0x8B => (decR w).map .shflx
  | 0x8C => (decR w).map .qswap
  | 0x8D => (decR w).map .qbcast
  | 0x8E => (decR w).map .vote
  | 0x8F => (decR w).map .matchLanes
  | 0x90 => (decR w).map .redux
  | 0x91 => (decR w).map .reduxf
  | 0x92 => (decR w).map .scan
  | 0x93 => (decR w).map .scanf
  | 0x94 => (decR w).map .segred
  | 0x95 => (decR w).map .segscan
  | 0x96 => (decR w).map .elect
  | 0x97 => (decR w).map .actmask
  | 0x98 => (decR w).map .bcast
  | 0x99 => (decR w).map .kset
  | 0x9A => (decR w).map .rank
  | 0x9B => (decR w).map .sortg
  | 0x9C => (decR w).map .compact
  | 0x9D => (decR w).map .expand
  | 0xA0 => (decM w).map .ld
  | 0xA1 => (decM w).map .st
  | 0xA2 => (decM w).map .ldv
  | 0xA3 => (decM w).map .stv
  | 0xA4 => (decM w).map .ldk
  | 0xA5 => (decM w).map .ldnf
  | 0xA6 => (decM w).map .stz
  | 0xA7 => (decR w).map .atadd
  | 0xA8 => (decR w).map .atmin
  | 0xA9 => (decR w).map .atmax
  | 0xAA => (decR w).map .atand
  | 0xAB => (decR w).map .ator
  | 0xAC => (decR w).map .atxor
  | 0xAD => (decR w).map .atexch
  | 0xAE => (decR3 w).map .atcas
  | 0xAF => (decR w).map .atinc
  | 0xB0 => (decR w).map .atdec
  | 0xB1 => (decR w).map .atfadd
  | 0xB2 => (decR w).map .atfmin
  | 0xB3 => (decR w).map .atfmax
  | 0xB4 => (decR3 w).map .atcas128
  | 0xB5 => (decR w).map .redadd
  | 0xB6 => (decR w).map .redmin
  | 0xB7 => (decR w).map .redmax
  | 0xB8 => (decR w).map .redfadd
  | 0xB9 => (decM w).map .fence
  | 0xBA => (decM w).map .pref
  | 0xBB => (decM w).map .cctl
  | 0xC0 => (decM w).map .lds
  | 0xC1 => (decM w).map .sts
  | 0xC2 => (decM w).map .ldsv
  | 0xC3 => (decM w).map .stsv
  | 0xC4 => (decR w).map .atsadd
  | 0xC5 => (decR w).map .atsmin
  | 0xC6 => (decR w).map .atsmax
  | 0xC7 => (decR3 w).map .atscas
  | 0xC8 => (decM w).map .ldl
  | 0xC9 => (decM w).map .stl
  | 0xCA => (decR w).map .wmap
  | 0xCB => (decR w).map .wunmap
  | 0xCC => (decR w).map .wflush
  | 0xCD => (decR w).map .winv
  | 0xD0 => (decR w).map .pgcommit
  | 0xD1 => (decR w).map .pgrelease
  | 0xD2 => (decR w).map .pgquery
  | 0xD3 => (decR w).map .pgprot
  | 0xD4 => (decR w).map .pgpool
  | 0xD5 => (decR w).map .halloc
  | 0xD6 => (decR w).map .hfree
  | 0xD7 => (decR w).map .hsize
  | 0xD8 => match fldM (w.extractLsb' 0 12) 0 2 with
    | 0 => (decR w).map .gresumeReplay
    | 1 => (decR w).map .gresumeSkip
    | 2 => (decR w).map .gresumeKill
    | _ => none
  | 0xDC => (decR3 w).map .cpy32
  | 0xDD => (decR3 w).map .cpyb
  | 0xDE => (decR w).map .cpyst
  | 0xDF => (decR w).map .cpywait
  | 0xE0 => (decR w).map .cpycnt
  | 0xE1 => (decR3 w).map .cpyfill
  | 0xE2 => (decR3 w).map .cpyp
  | 0xE3 => (decR w).map .gath
  | 0xE4 => (decR w).map .scat
  | 0xE5 => (decR3 w).map .gathbm
  | 0xE6 => (decR w).map .mtwait
  | 0xE7 => (decR3 w).map .tfetch
  | 0xE8 => (decR w).map .tfrel
  | 0xEC => (decR w).map .obrsv
  | 0xED => (decR w).map .obrel
  | 0xEE => if w.getLsbD 0 then (decR3 w).map .obldR else (decR3 w).map .obldS
  | 0xEF => (decR w).map .cvdecl
  | 0xF0 => (decR3 w).map .mma
  | 0xF1 => (decR3 w).map .mmas
  | 0xF2 => if w.getLsbD 0 then (decR w).map .accinitLd else (decR w).map .accinitZero
  | 0xF3 => (decR w).map .accrd
  | 0xF4 => if w.getLsbD 0 then (decR w).map .mdrainC else (decR w).map .mdrainS
  | 0xF5 => (decR w).map .mwait
  | 0xF6 => if w.getLsbD 0 then (decR w).map .barArrive else (decR w).map .barSync
  | 0xF7 => if w.getLsbD 0 then (decR w).map .gbarArrive else (decR w).map .gbarSync
  | 0xF8 => (decR w).map .regroup
  | 0xF9 => (decR w).map .regroupb
  | 0xFA => (decR w).map .fxload
  | 0xFB => (decR w).map .fxrun
  | 0xFC => (decR w).map .fxwait
  | 0xFD => (decR w).map .fxparam
  | 0xFE => (decR w).map .fxdrop
  | 0xFF => (decR w).map .damp
  | _ => none

/-- Whether an opcode is assigned (R61). -/
def opAssigned (op : Nat) : Bool :=
  (0x01 ≤ op && op ≤ 0x3C) || (0x40 ≤ op && op ≤ 0x6B) || (0x70 ≤ op && op ≤ 0x85) || (0x88 ≤ op && op ≤ 0x9D) ||
  (0xA0 ≤ op && op ≤ 0xBB) || (0xC0 ≤ op && op ≤ 0xCD) || (0xD0 ≤ op && op ≤ 0xD8) || (0xDC ≤ op && op ≤ 0xE8) ||
  (0xEC ≤ op)

/-- The front-end instruction that a word encodes, or why it is illegal: check 1 of R60 but for the block's `.regs`. -/
def decodeWord (w : BitVec 64) : Except DecodeError Instr :=
  if w = 0 then .error .zeroWord
  else if !opAssigned (opOf w) then .error (.unassigned (opOf w))
  else match decodeFields w with
    | none => .error .operandCode
    | some i => if wellFormed i then .ok i else .error .illegalForm

/-- The fields of an element word (R63). -/
def elemFields (w : BitVec 32) : ElemWord :=
  { sa := w.extractLsb' 22 4, sb := w.extractLsb' 18 4, da := w.extractLsb' 14 4, db := w.extractLsb' 11 3,
    ta := w.extractLsb' 7 4, gd := w.extractLsb' 0 7 }

/-- The element instruction of an element word; a loaded slot holds no word that R65 and R194 refuse. -/
noncomputable def decodeElem (w : BitVec 32) : Option Instr :=
  match (w.extractLsb' 26 6).toNat with
  | 0x00 => some (.elemNop (elemFields w))
  | 0x01 => some (.elemMov (elemFields w))
  | 0x02 => some (.elemAdd (elemFields w))
  | 0x03 => some (.elemSub (elemFields w))
  | 0x04 => some (.elemMul (elemFields w))
  | 0x05 => some (.elemMulh (elemFields w))
  | 0x06 => some (.elemMad (elemFields w))
  | 0x07 => some (.elemMin (elemFields w))
  | 0x08 => some (.elemMax (elemFields w))
  | 0x09 => some (.elemAnd (elemFields w))
  | 0x0A => some (.elemOr (elemFields w))
  | 0x0B => some (.elemXor (elemFields w))
  | 0x0C => some (.elemAndn (elemFields w))
  | 0x0D => some (.elemNot (elemFields w))
  | 0x0E => some (.elemShl (elemFields w))
  | 0x0F => some (.elemShr (elemFields w))
  | 0x10 => some (.elemSar (elemFields w))
  | 0x11 => some (.elemPopc (elemFields w))
  | 0x12 => some (.elemClz (elemFields w))
  | 0x13 => some (.elemSel (elemFields w))
  | 0x14 => some (.elemFadd (elemFields w))
  | 0x15 => some (.elemFsub (elemFields w))
  | 0x16 => some (.elemFmul (elemFields w))
  | 0x17 => some (.elemFfma (elemFields w))
  | 0x18 => some (.elemFmin (elemFields w))
  | 0x19 => some (.elemFmax (elemFields w))
  | 0x1A => some (.elemFtoi (elemFields w))
  | 0x1B => some (.elemItof (elemFields w))
  | 0x1C => some (.elemCeq (elemFields w))
  | 0x1D => some (.elemCne (elemFields w))
  | 0x1E => some (.elemClt (elemFields w))
  | 0x1F => some (.elemCle (elemFields w))
  | 0x20 => some (.elemCltn (elemFields w))
  | 0x21 => some (.elemClen (elemFields w))
  | 0x22 => some (.elemFclt (elemFields w))
  | 0x23 => some (.elemFcle (elemFields w))
  | 0x24 => some (.elemFceq (elemFields w))
  | 0x25 => some (.elemFcne (elemFields w))
  | 0x26 => some (.elemPset (elemFields w))
  | 0x27 => some (.elemPclr (elemFields w))
  | 0x28 => some (.elemPand (elemFields w))
  | 0x29 => some (.elemPor (elemFields w))
  | 0x2A => some (.elemPnot (elemFields w))
  | 0x2B => some (.elemSteer (elemFields w))
  | 0x2C => some (.elemMerge (elemFields w))
  | 0x2D => some (.elemMergeu (elemFields w))
  | 0x2E => some (.elemDrop (elemFields w))
  | 0x2F => some (.elemEmit (elemFields w))
  | 0x30 => some (.elemDeq (elemFields w))
  | 0x31 => some (.elemSclatch (elemFields w))
  | 0x32 => some (.elemQuant (elemFields w))
  | 0x33 => some (.elemAmaxr (elemFields w))
  | 0x34 => some (.elemCnt (elemFields w))
  | 0x35 => some (.elemAcc (elemFields w))
  | 0x36 => some (.elemAccrel (elemFields w))
  | 0x37 => some (.elemLsel (elemFields w))
  | _ => none

/-! ## The encoder -/

/-- OP and G (R51). -/
def encHead (op : BitVec 8) (g : Guard) : BitVec 12 := op ++ (BitVec.ofBool g.neg ++ g.pred : BitVec 4)

/-- Formats R and X with control bits in C (R52). -/
def encR (op : BitVec 8) (x : FmtR) : BitVec 64 :=
  encHead op x.g ++ opndCode x.d ++ opndCode x.a ++ opndCode x.b ++ x.c ++ x.m
/-- Formats R and X with an operand in C (R52). -/
def encR3 (op : BitVec 8) (x : FmtR3) : BitVec 64 :=
  encHead op x.g ++ opndCode x.d ++ opndCode x.a ++ opndCode x.b ++ opndCode x.c ++ x.m
/-- Format I (R52). -/
def encI (op : BitVec 8) (x : FmtI) : BitVec 64 := encHead op x.g ++ opndCode x.d ++ opndCode x.a ++ x.imm
/-- Format M (R52). -/
def encM (op : BitVec 8) (x : FmtM) : BitVec 64 := encHead op x.g ++ opndCode x.d ++ opndCode x.a ++ x.ofs ++ x.mm
/-- Format B (R52). -/
def encB (op : BitVec 8) (x : FmtB) : BitVec 64 := encHead op x.g ++ opndCode x.lnk ++ opndCode x.a ++ x.ofs
/-- Format S (R52). -/
def encS (op : BitVec 8) (x : FmtS) : BitVec 64 :=
  encHead op x.g ++ opndCode x.d ++ opndCode x.a ++ x.srn ++ x.sub ++ x.m
/-- An element word (R63). -/
def encE (op : BitVec 6) (x : ElemWord) : BitVec 32 := op ++ x.sa ++ x.sb ++ x.da ++ x.db ++ x.ta ++ x.gd

/-- The words of an instruction: 64 bits in the front end, 32 in an element; none for an operation or event of the device,
which has no word. -/
inductive Words where
  | front (w : BitVec 64)
  | elem (w : BitVec 32)
  | noWord
deriving DecidableEq, Repr

/-- The word of an instruction (R52, R61 to R63). -/
def encode : Instr → Words
  | .bra x => .front (encB 0x01 x)
  | .brx x => .front (encR 0x02 x)
  | .call x => .front (encB 0x03 x)
  | .callx x => .front (encR 0x04 x)
  | .calll x => .front (encM 0x05 x)
  | .ret x => .front (encR 0x06 x)
  | .exit x => .front (encR 0x07 x)
  | .rcv x => .front (encB 0x08 x)
  | .join x => .front (encR 0x09 x)
  | .loophint x => .front (encI 0x0A x)
  | .trap x => .front (encI 0x0B x)
  | .bkpt x => .front (encI 0x0C x)
  | .nop x => .front (encR 0x0D x)
  | .rdsr x => .front (encS 0x0E x)
  | .wrsr x => .front (encS 0x0F x)
  | .iadd x => .front (encR 0x10 x)
  | .isub x => .front (encR 0x11 x)
  | .imul x => .front (encR 0x12 x)
  | .imulh x => .front (encR 0x13 x)
  | .imad x => .front (encR3 0x14 x)
  | .iadd64 x => .front (encR 0x15 x)
  | .isub64 x => .front (encR 0x16 x)
  | .imad64 x => .front (encR3 0x17 x)
  | .idiv x => .front (encR 0x18 x)
  | .irem x => .front (encR 0x19 x)
  | .imin x => .front (encR 0x1A x)
  | .imax x => .front (encR 0x1B x)
  | .iabs x => .front (encR 0x1C x)
  | .ineg x => .front (encR 0x1D x)
  | .isad x => .front (encR3 0x1E x)
  | .iaddc x => .front (encR3 0x1F x)
  | .and x => .front (encR 0x20 x)
  | .or x => .front (encR 0x21 x)
  | .xor x => .front (encR 0x22 x)
  | .andn x => .front (encR 0x23 x)
  | .not x => .front (encR 0x24 x)
  | .shl x => .front (encR 0x25 x)
  | .shr x => .front (encR 0x26 x)
  | .sar x => .front (encR 0x27 x)
  | .rot x => .front (encR 0x28 x)
  | .fshl x => .front (encR3 0x29 x)
  | .fshr x => .front (encR3 0x2A x)
  | .shl64 x => .front (encR 0x2B x)
  | .shr64 x => .front (encR 0x2C x)
  | .popc x => .front (encR 0x2D x)
  | .clz x => .front (encR 0x2E x)
  | .ctz x => .front (encR 0x2F x)
  | .brev x => .front (encR 0x30 x)
  | .bfx x => .front (encR 0x31 x)
  | .bfi x => .front (encR3 0x32 x)
  | .prmt x => .front (encR3 0x33 x)
  | .icmp x => .front (encR 0x34 x)
  | .iset x => .front (encR 0x35 x)
  | .isel x => .front (encR3 0x36 x)
  | .pset x => .front (encR3 0x37 x)
  | .mov x => .front (encR 0x38 x)
  | .movi x => .front (encI 0x39 x)
  | .movk x => .front (encI 0x3A x)
  | .lea x => .front (encR 0x3B x)
  | .lea64 x => .front (encR 0x3C x)
  | .fadd x => .front (encR 0x40 x)
  | .fsub x => .front (encR 0x41 x)
  | .fmul x => .front (encR 0x42 x)
  | .ffma x => .front (encR3 0x43 x)
  | .fmin x => .front (encR 0x44 x)
  | .fmax x => .front (encR 0x45 x)
  | .fcmp x => .front (encR 0x46 x)
  | .fset x => .front (encR 0x47 x)
  | .fsel x => .front (encR3 0x48 x)
  | .fclass x => .front (encR 0x49 x)
  | .frnd x => .front (encR 0x4A x)
  | .frcp x => .front (encR 0x4B x)
  | .frsq x => .front (encR 0x4C x)
  | .fsqrt x => .front (encR 0x4D x)
  | .fexp2 x => .front (encR 0x4E x)
  | .flog2 x => .front (encR 0x4F x)
  | .fsin x => .front (encR 0x50 x)
  | .fcos x => .front (encR 0x51 x)
  | .ftanh x => .front (encR 0x52 x)
  | .fdiv x => .front (encR 0x53 x)
  | .fldexp x => .front (encR 0x54 x)
  | .ffrexp x => .front (encR 0x55 x)
  | .hadd2 x => .front (encR 0x56 x)
  | .hsub2 x => .front (encR 0x57 x)
  | .hmul2 x => .front (encR 0x58 x)
  | .hfma2 x => .front (encR3 0x59 x)
  | .hmin2 x => .front (encR 0x5A x)
  | .hmax2 x => .front (encR 0x5B x)
  | .hcmp2 x => .front (encR 0x5C x)
  | .badd2 x => .front (encR 0x5D x)
  | .bsub2 x => .front (encR 0x5E x)
  | .bmul2 x => .front (encR 0x5F x)
  | .bfma2 x => .front (encR3 0x60 x)
  | .bmin2 x => .front (encR 0x61 x)
  | .bmax2 x => .front (encR 0x62 x)
  | .bcmp2 x => .front (encR 0x63 x)
  | .ffmah x => .front (encR3 0x64 x)
  | .ffmab x => .front (encR3 0x65 x)
  | .dadd x => .front (encR 0x66 x)
  | .dmul x => .front (encR 0x67 x)
  | .dfma x => .front (encR3 0x68 x)
  | .dcmp x => .front (encR 0x69 x)
  | .dmin x => .front (encR 0x6A x)
  | .dmax x => .front (encR 0x6B x)
  | .cvt x => .front (encR 0x70 x)
  | .cvt64 x => .front (encR 0x71 x)
  | .qcvt x => .front (encR 0x72 x)
  | .dqcvt x => .front (encR 0x73 x)
  | .pack2 x => .front (encR 0x74 x)
  | .pack4 x => .front (encR 0x75 x)
  | .pack8 x => .front (encR 0x76 x)
  | .unpk2 x => .front (encR 0x77 x)
  | .unpk4 x => .front (encR 0x78 x)
  | .unpk8 x => .front (encR 0x79 x)
  | .scalex x => .front (encR 0x7A x)
  | .qblk x => .front (encR 0x7B x)
  | .blkmax x => .front (encR 0x7C x)
  | .srseed x => .front (encR 0x7D x)
  | .dot2h x => .front (encR 0x7E x)
  | .dot2b x => .front (encR 0x7F x)
  | .dot4i x => .front (encR 0x80 x)
  | .dot8i x => .front (encR 0x81 x)
  | .dot4e x => .front (encR 0x82 x)
  | .dot8e x => .front (encR 0x83 x)
  | .idp2 x => .front (encR 0x84 x)
  | .amaxclr x => .front (encR 0x85 x)
  | .shfli x => .front (encR 0x88 x)
  | .shfla x => .front (encR 0x89 x)
  | .shflb x => .front (encR 0x8A x)
  | .shflx x => .front (encR 0x8B x)
  | .qswap x => .front (encR 0x8C x)
  | .qbcast x => .front (encR 0x8D x)
  | .vote x => .front (encR 0x8E x)
  | .matchLanes x => .front (encR 0x8F x)
  | .redux x => .front (encR 0x90 x)
  | .reduxf x => .front (encR 0x91 x)
  | .scan x => .front (encR 0x92 x)
  | .scanf x => .front (encR 0x93 x)
  | .segred x => .front (encR 0x94 x)
  | .segscan x => .front (encR 0x95 x)
  | .elect x => .front (encR 0x96 x)
  | .actmask x => .front (encR 0x97 x)
  | .bcast x => .front (encR 0x98 x)
  | .kset x => .front (encR 0x99 x)
  | .rank x => .front (encR 0x9A x)
  | .sortg x => .front (encR 0x9B x)
  | .compact x => .front (encR 0x9C x)
  | .expand x => .front (encR 0x9D x)
  | .ld x => .front (encM 0xA0 x)
  | .st x => .front (encM 0xA1 x)
  | .ldv x => .front (encM 0xA2 x)
  | .stv x => .front (encM 0xA3 x)
  | .ldk x => .front (encM 0xA4 x)
  | .ldnf x => .front (encM 0xA5 x)
  | .stz x => .front (encM 0xA6 x)
  | .atadd x => .front (encR 0xA7 x)
  | .atmin x => .front (encR 0xA8 x)
  | .atmax x => .front (encR 0xA9 x)
  | .atand x => .front (encR 0xAA x)
  | .ator x => .front (encR 0xAB x)
  | .atxor x => .front (encR 0xAC x)
  | .atexch x => .front (encR 0xAD x)
  | .atcas x => .front (encR3 0xAE x)
  | .atinc x => .front (encR 0xAF x)
  | .atdec x => .front (encR 0xB0 x)
  | .atfadd x => .front (encR 0xB1 x)
  | .atfmin x => .front (encR 0xB2 x)
  | .atfmax x => .front (encR 0xB3 x)
  | .atcas128 x => .front (encR3 0xB4 x)
  | .redadd x => .front (encR 0xB5 x)
  | .redmin x => .front (encR 0xB6 x)
  | .redmax x => .front (encR 0xB7 x)
  | .redfadd x => .front (encR 0xB8 x)
  | .fence x => .front (encM 0xB9 x)
  | .pref x => .front (encM 0xBA x)
  | .cctl x => .front (encM 0xBB x)
  | .lds x => .front (encM 0xC0 x)
  | .sts x => .front (encM 0xC1 x)
  | .ldsv x => .front (encM 0xC2 x)
  | .stsv x => .front (encM 0xC3 x)
  | .atsadd x => .front (encR 0xC4 x)
  | .atsmin x => .front (encR 0xC5 x)
  | .atsmax x => .front (encR 0xC6 x)
  | .atscas x => .front (encR3 0xC7 x)
  | .ldl x => .front (encM 0xC8 x)
  | .stl x => .front (encM 0xC9 x)
  | .wmap x => .front (encR 0xCA x)
  | .wunmap x => .front (encR 0xCB x)
  | .wflush x => .front (encR 0xCC x)
  | .winv x => .front (encR 0xCD x)
  | .pgcommit x => .front (encR 0xD0 x)
  | .pgrelease x => .front (encR 0xD1 x)
  | .pgquery x => .front (encR 0xD2 x)
  | .pgprot x => .front (encR 0xD3 x)
  | .pgpool x => .front (encR 0xD4 x)
  | .halloc x => .front (encR 0xD5 x)
  | .hfree x => .front (encR 0xD6 x)
  | .hsize x => .front (encR 0xD7 x)
  | .gresumeReplay x => .front (encR 0xD8 x)
  | .gresumeSkip x => .front (encR 0xD8 x)
  | .gresumeKill x => .front (encR 0xD8 x)
  | .cpy32 x => .front (encR3 0xDC x)
  | .cpyb x => .front (encR3 0xDD x)
  | .cpyst x => .front (encR 0xDE x)
  | .cpywait x => .front (encR 0xDF x)
  | .cpycnt x => .front (encR 0xE0 x)
  | .cpyfill x => .front (encR3 0xE1 x)
  | .cpyp x => .front (encR3 0xE2 x)
  | .gath x => .front (encR 0xE3 x)
  | .scat x => .front (encR 0xE4 x)
  | .gathbm x => .front (encR3 0xE5 x)
  | .mtwait x => .front (encR 0xE6 x)
  | .tfetch x => .front (encR3 0xE7 x)
  | .tfrel x => .front (encR 0xE8 x)
  | .obrsv x => .front (encR 0xEC x)
  | .obrel x => .front (encR 0xED x)
  | .obldS x => .front (encR3 0xEE x)
  | .obldR x => .front (encR3 0xEE x)
  | .cvdecl x => .front (encR 0xEF x)
  | .mma x => .front (encR3 0xF0 x)
  | .mmas x => .front (encR3 0xF1 x)
  | .accinitZero x => .front (encR 0xF2 x)
  | .accinitLd x => .front (encR 0xF2 x)
  | .accrd x => .front (encR 0xF3 x)
  | .mdrainS x => .front (encR 0xF4 x)
  | .mdrainC x => .front (encR 0xF4 x)
  | .mwait x => .front (encR 0xF5 x)
  | .barSync x => .front (encR 0xF6 x)
  | .barArrive x => .front (encR 0xF6 x)
  | .gbarSync x => .front (encR 0xF7 x)
  | .gbarArrive x => .front (encR 0xF7 x)
  | .regroup x => .front (encR 0xF8 x)
  | .regroupb x => .front (encR 0xF9 x)
  | .fxload x => .front (encR 0xFA x)
  | .fxrun x => .front (encR 0xFB x)
  | .fxwait x => .front (encR 0xFC x)
  | .fxparam x => .front (encR 0xFD x)
  | .fxdrop x => .front (encR 0xFE x)
  | .damp x => .front (encR 0xFF x)
  | .elemNop x => .elem (encE 0x00 x)
  | .elemMov x => .elem (encE 0x01 x)
  | .elemAdd x => .elem (encE 0x02 x)
  | .elemSub x => .elem (encE 0x03 x)
  | .elemMul x => .elem (encE 0x04 x)
  | .elemMulh x => .elem (encE 0x05 x)
  | .elemMad x => .elem (encE 0x06 x)
  | .elemMin x => .elem (encE 0x07 x)
  | .elemMax x => .elem (encE 0x08 x)
  | .elemAnd x => .elem (encE 0x09 x)
  | .elemOr x => .elem (encE 0x0A x)
  | .elemXor x => .elem (encE 0x0B x)
  | .elemAndn x => .elem (encE 0x0C x)
  | .elemNot x => .elem (encE 0x0D x)
  | .elemShl x => .elem (encE 0x0E x)
  | .elemShr x => .elem (encE 0x0F x)
  | .elemSar x => .elem (encE 0x10 x)
  | .elemPopc x => .elem (encE 0x11 x)
  | .elemClz x => .elem (encE 0x12 x)
  | .elemSel x => .elem (encE 0x13 x)
  | .elemFadd x => .elem (encE 0x14 x)
  | .elemFsub x => .elem (encE 0x15 x)
  | .elemFmul x => .elem (encE 0x16 x)
  | .elemFfma x => .elem (encE 0x17 x)
  | .elemFmin x => .elem (encE 0x18 x)
  | .elemFmax x => .elem (encE 0x19 x)
  | .elemFtoi x => .elem (encE 0x1A x)
  | .elemItof x => .elem (encE 0x1B x)
  | .elemCeq x => .elem (encE 0x1C x)
  | .elemCne x => .elem (encE 0x1D x)
  | .elemClt x => .elem (encE 0x1E x)
  | .elemCle x => .elem (encE 0x1F x)
  | .elemCltn x => .elem (encE 0x20 x)
  | .elemClen x => .elem (encE 0x21 x)
  | .elemFclt x => .elem (encE 0x22 x)
  | .elemFcle x => .elem (encE 0x23 x)
  | .elemFceq x => .elem (encE 0x24 x)
  | .elemFcne x => .elem (encE 0x25 x)
  | .elemPset x => .elem (encE 0x26 x)
  | .elemPclr x => .elem (encE 0x27 x)
  | .elemPand x => .elem (encE 0x28 x)
  | .elemPor x => .elem (encE 0x29 x)
  | .elemPnot x => .elem (encE 0x2A x)
  | .elemSteer x => .elem (encE 0x2B x)
  | .elemMerge x => .elem (encE 0x2C x)
  | .elemMergeu x => .elem (encE 0x2D x)
  | .elemDrop x => .elem (encE 0x2E x)
  | .elemEmit x => .elem (encE 0x2F x)
  | .elemDeq x => .elem (encE 0x30 x)
  | .elemSclatch x => .elem (encE 0x31 x)
  | .elemQuant x => .elem (encE 0x32 x)
  | .elemAmaxr x => .elem (encE 0x33 x)
  | .elemCnt x => .elem (encE 0x34 x)
  | .elemAcc x => .elem (encE 0x35 x)
  | .elemAccrel x => .elem (encE 0x36 x)
  | .elemLsel x => .elem (encE 0x37 x)
  | .commandFetch => .noWord
  | .launch _ => .noWord
  | .copy _ => .noWord
  | .signalSet _ => .noWord
  | .signalAdd _ => .noWord
  | .wait _ => .noWord
  | .barrierAnd _ => .noWord
  | .placePreload _ => .noWord
  | .queueDestroy _ => .noWord
  | .queueDestroyForce _ => .noWord
  | .journalMark _ => .noWord
  | .waitReread _ => .noWord
  | .waitTimeout _ => .noWord
  | .gridRetire _ => .noWord
  | .copyRetire _ => .noWord
  | .preloadRetire _ => .noWord
  | .doorbell _ _ => .noWord
  | .qctlCreate _ _ => .noWord
  | .qctlReadRidx _ _ => .noWord
  | .qctlDestroy _ _ => .noWord
  | .qctlDestroyForce _ _ => .noWord
  | .asctlCreate _ _ => .noWord
  | .asctlUpdate _ _ => .noWord
  | .asctlDestroy _ _ => .noWord
  | .pooladd _ _ => .noWord
  | .tlbinv _ _ => .noWord
  | .tlbinvComplete _ => .noWord
  | .fresumeReplay _ _ => .noWord
  | .fresumeSkip _ _ _ => .noWord
  | .fresumeKill _ _ => .noWord
  | .preemptGrid _ _ => .noWord
  | .preemptBlock _ _ => .noWord
  | .pwrbudget _ _ => .noWord
  | .csaadd _ _ => .noWord
  | .fqrWrite _ _ => .noWord
  | .fqbaseWrite _ _ => .noWord
  | .dbgctlWrite _ _ => .noWord
  | .dbgbpWrite _ _ _ => .noWord
  | .dbgcmdHalt _ _ _ => .noWord
  | .dbgcmdResume _ _ _ => .noWord
  | .dbgcmdStep _ _ _ => .noWord
  | .registerWrite _ _ _ => .noWord
  | .blockPlace _ _ _ => .noWord
  | .stealMessage _ _ _ => .noWord
  | .stealReply _ => .noWord
  | .blockRetire _ _ => .noWord
  | .loadReturn _ _ => .noWord
  | .writePerform _ => .noWord
  | .translationResponse _ _ _ => .noWord
  | .walkComplete _ _ _ => .noWord
  | .coherenceRead _ _ => .noWord
  | .coherenceReadForWrite _ _ => .noWord
  | .coherenceEvict _ _ => .noWord
  | .homeAtomic _ _ => .noWord
  | .windowNotice _ => .noWord
  | .homeAnswerTimeout _ _ => .noWord
  | .patrolScrub _ => .noWord
  | .eccError _ => .noWord
  | .copyComplete _ _ => .noWord
  | .enginePieceFault _ _ => .noWord
  | .tileComplete _ _ => .noWord
  | .matrixEntryComplete _ _ => .noWord
  | .mmaRoundStart _ => .noWord
  | .drainToken _ => .noWord
  | .regroupShuffle _ _ => .noWord
  | .placerComplete _ => .noWord
  | .handOver _ _ => .noWord
  | .iterationAdmit _ _ => .noWord
  | .iterationCommit _ _ => .noWord
  | .memoryNodeAccess _ _ => .noWord
  | .loopExit _ _ => .noWord
  | .loopDamp _ _ _ => .noWord
  | .liveoutWriteback _ _ => .noWord
  | .channelTokenArrive _ _ => .noWord
  | .streamToken _ _ => .noWord
  | .streamRound _ _ => .noWord
  | .regionDone _ _ => .noWord
  | .carillonStarve _ _ _ => .noWord
  | .probeSend _ _ _ => .noWord
  | .probeForward _ => .noWord
  | .countToken _ _ => .noWord
  | .preemptArrive _ _ => .noWord
  | .preemptDeadline _ _ => .noWord
  | .blockSave _ _ => .noWord
  | .blockRestore _ _ _ => .noWord
  | .dbgbpMatch _ _ => .noWord
  | .groupHalt _ _ => .noWord
  | .codePageVerify _ _ _ => .noWord
  | .reset => .noWord
  | .serviceReduced _ => .noWord
  | .serviceFull _ => .noWord
  | .partitionSetup _ _ => .noWord
  | .linkTrain _ _ _ => .noWord
  | .linkDown _ => .noWord
  | .attestationRequest _ _ => .noWord
  | .unassignedOp _ => .noWord
  | .kitEntersRetention _ => .noWord
  | .codeObjectLoad _ _ _ _ => .noWord
  | .codeObjectUnload _ _ => .noWord
  | .debuggerRegisterWrite _ _ _ _ _ _ => .noWord
  | .fxloadLoadEnd _ _ _ => .noWord
  | .peerOrHostAccess _ => .noWord

/-- The instruction that a word of the hardware encodes. -/
noncomputable def decode : Words → Except DecodeError Instr
  | .front w => decodeWord w
  | .elem w => match decodeElem w with
    | some i => .ok i
    | none => .error (.elementOpcode (w.extractLsb' 26 6).toNat)
  | .noWord => .error (.width 0)

/-- The word that a number of bits and a value give: the one word of the hardware of that width. -/
def wordOf (nbits w : Nat) : Option Words :=
  if nbits = 64 then some (.front (BitVec.ofNat 64 w))
  else if nbits = 32 then some (.elem (BitVec.ofNat 32 w))
  else none

/-- The instruction the decoder reads from an instruction of `nbits` bits whose bits are `w`, numbered as
spec/opcode_table.json numbers them. -/
noncomputable def decodeTableWord (nbits w : Nat) : Option Instr :=
  match wordOf nbits w with
  | none => none
  | some x => match decode x with
    | .ok i => some i
    | .error _ => none

end Sys2Proof
end

