-- ==== Sys2Proof/Machine/Image.lean ====
section
/-!
DEFINITION. Placement images: their layout, the checks of acceptance, the choice of an origin, and loading into elements and nodes
(R390 to R398, R365, R183, R194).
-/

namespace Sys2Proof.Machine

/-! ## CRC-32 (R390) -/

/-- One bit of the reflected CRC. -/
def crcBit (c : Nat) : Nat := if c % 2 = 1 then Nat.xor (c / 2) 0xEDB88320 else c / 2
/-- One byte of the CRC. -/
def crcByte (c : Nat) (b : Byte) : Nat :=
  crcBit (crcBit (crcBit (crcBit (crcBit (crcBit (crcBit (crcBit (Nat.xor c b.toNat))))))))
/-- The CRC-32 of IEEE 802.3 over bytes in ascending order. -/
def crc32 (l : List Byte) : Nat := Nat.xor (l.foldl crcByte 0xFFFFFFFF) 0xFFFFFFFF

/-! ## Fields -/

/-- `n` bytes at offset `o` of an image. -/
def imField (i : List Byte) (o n : Nat) : Nat := natOf ((i.drop o).take n)
/-- Round up to a multiple of 8. -/
def pad8 (n : Nat) : Nat := (n + 7) / 8 * 8

/-- KIND. -/
def imKind (i : List Byte) : Nat := imField i 6 1
/-- W. -/
def imW (i : List Byte) : Nat := imField i 0x1E 1
/-- H. -/
def imH (i : List Byte) : Nat := imField i 0x1F 1
/-- NELEM. -/
def imElems (i : List Byte) : Nat := imField i 0x20 1
/-- NNODE. -/
def imNodes (i : List Byte) : Nat := imField i 0x21 1
/-- NLIVE. -/
def imLive (i : List Byte) : Nat := imField i 0x22 1
/-- NPORT. -/
def imPorts (i : List Byte) : Nat := imField i 0x23 1
/-- NRATE. -/
def imRates (i : List Byte) : Nat := imField i 0x24 2
/-- WDOG. -/
def imWdog (i : List Byte) : Nat := imField i 0x26 1
/-- SHARES. -/
def imShares (i : List Byte) : Nat := imField i 0x1D 1
/-- SIZE. -/
def imSize (i : List Byte) : Nat := imField i 0x28 4
/-- Offset of the element records. -/
def imElemOff (i : List Byte) : Nat := 0x40 + pad8 (4 * imLive i)
/-- Offset of the node records. -/
def imNodeOff (i : List Byte) : Nat := imElemOff i + 168 * imElems i
/-- Offset of the parameter ports. -/
def imPortOff (i : List Byte) : Nat := imNodeOff i + 48 * imNodes i
/-- Offset of the rate records. -/
def imRateOff (i : List Byte) : Nat := imPortOff i + pad8 (2 * imPorts i)
/-- Bytes of the static sections. -/
def imEnd (i : List Byte) : Nat := imRateOff i + 8 * imRates i

/-- Field of element record `r` (R393). -/
def elField (i : List Byte) (r o n : Nat) : Nat := imField i (imElemOff i + 168 * r + o) n
/-- Field of node record `r` (R395). -/
def ndField (i : List Byte) (r o n : Nat) : Nat := imField i (imNodeOff i + 48 * r + o) n
/-- Live-map entry `r` (R392). -/
def liveField (i : List Byte) (r : Nat) : Nat := imField i (0x40 + 4 * r) 4
/-- Route of parameter port `p`. -/
def portField (i : List Byte) (p : Nat) : Nat := imField i (imPortOff i + 2 * p) 2

/-- Element record at a position of the frame. -/
def elemAtPos (i : List Byte) (x y : Nat) : Option Nat :=
  (List.range (imElems i)).find? (fun r => elField i r 0 1 == x && elField i r 1 1 == y)

/-- Slot word `n` of element record `r`. -/
def elSlot (i : List Byte) (r n : Nat) : BitVec 32 := BitVec.ofNat 32 (elField i r (0x08 + 4 * n) 4)
/-- Literal of slot `n`. -/
def elLit (i : List Byte) (r n : Nat) : Nat := elField i r (0x48 + 4 * n) 4
/-- Route of out port `n`. -/
def elRoute (i : List Byte) (r n : Nat) : Nat := elField i r (0x88 + 2 * n) 2
/-- Context of slot `n` (R182). -/
def elCtx (i : List Byte) (r n : Nat) : Nat := elField i r 0x04 4 / 4 ^ n % 4

/-! ## Routes (R394) -/

/-- Where a route leads inside an image. -/
inductive RouteTo where
  | none
  | chan (x y n : Nat)
  | port (node n : Nat)
  | bad
deriving DecidableEq, Repr

/-- A route's 2 bytes. -/
def routeTo (w : Nat) : RouteTo :=
  if w / 2 ^ 15 = 0 then (if w = 0 then .none else .bad)
  else if w / 4 % 64 ≠ 0 then .bad
  else if w / 2 ^ 14 % 2 = 0 then .chan (w / 2 ^ 11 % 8) (w / 2 ^ 8 % 8) (w % 4)
  else if w / 2 ^ 13 % 2 = 1 then .bad
  else .port (w / 2 ^ 8 % 32) (w % 4)

/-- Input ports of a node kind (R395). -/
def nodePorts (kind : Nat) : Nat :=
  match kind with
  | 1 => 3
  | 3 | 5 | 6 => 1
  | _ => 0

/-- Whether a route is well formed and names an element record or a node port of the image. -/
def routeOk (i : List Byte) (w : Nat) : Bool :=
  match routeTo w with
  | .none => true
  | .bad => false
  | .chan x y _ => (elemAtPos i x y).isSome
  | .port n p => n < imNodes i && p < nodePorts (ndField i n 0 1)

/-- Every valid route of an image: element outputs, node outputs, parameter ports. -/
def allRoutes (i : List Byte) : List Nat :=
  ((List.range (imElems i)).flatMap (fun r => (List.range 4).map (elRoute i r)) ++
   (List.range (imNodes i)).map (fun r => ndField i r 2 2) ++
   (List.range (imPorts i)).map (portField i)).filter (fun w => routeTo w != .none)

/-- No channel or node port has two sources (R361, R394). -/
def routesApart : List Nat → Bool
  | [] => true
  | w :: r => !r.contains w && routesApart r

/-- Whether an output goes nowhere, or no other output of the image goes where it does. -/
def routeAlone (i : List Byte) (w : Nat) : Bool := routeTo w == .none || ((allRoutes i).filter (· == w)).length == 1

/-! ## Slot words and literals (R65, R194, R199 to R207) -/

/-- Out ports that a slot names as DA or DB, and a STEER's control port. -/
def slotPorts (op : Nat) (x : ElemWord) (lit : Nat) : List Nat :=
  (if x.da.toNat ≤ 3 then [x.da.toNat] else []) ++
  (if 1 ≤ x.db.toNat && x.db.toNat ≤ 4 && x.da.toNat != 12 then [x.db.toNat - 1] else []) ++
  (if op == 0x2B && lit / 4 % 2 == 1 then [lit % 4] else [])

/-- The literal of a configured form: undefined bits zero, fields within their limits. STEER's outCP may be the port of DA or DB where CEN is
0, since it then names no token. MODEL'S CHOICE (assumption 110). -/
def configOk (op : Nat) (x : ElemWord) (lit : Nat) : Bool :=
  let da := x.da.toNat
  let db := x.db.toNat
  match op with
  | 0x2B => lit < 8 && !(lit / 4 == 1 && (lit % 4 == da || lit % 4 + 1 == db))
  | 0x2C => lit < 4 && lit != x.sa.toNat && lit != x.sb.toNat
  | 0x2D => lit == 0
  | 0x2E => lit < 4
  | 0x2F => lit < 32
  | 0x33 => lit < 64 && scaleType (lit % 32)
  | 0x32 => scaleType (lit % 32) && lit / 2 ^ 6 % 8 ≤ 4 && lit / 2 ^ 9 % 2 ^ 7 == 0 && lit / 2 ^ 24 == 0 &&
      (lit / 2 ^ 16 == 0 || x.sb == 12)
  | 0x34 => lit < 8
  | _ => true

/-- The opcode of a slot word. -/
def slotOp (w : BitVec 32) : Nat := (w.extractLsb' 26 6).toNat

/-- Slot `n` of element record `r`: word, literal, and routes of the ports it names. -/
def slotOk (i : List Byte) (r n : Nat) : Bool :=
  let w := elSlot i r n
  let x := elemFields w
  slotWordOk (slotOp w) x && configOk (slotOp w) x (elLit i r n) &&
  (slotOp w == 0 || (slotPorts (slotOp w) x (elLit i r n)).all (fun p => routeTo (elRoute i r p) != .none))

/-- Whether a slot folds into the accumulator of its context (R208). -/
def slotAccs (w : BitVec 32) : Bool := slotOp w == 0x35 || (slotOp w != 0 && (elemFields w).da == 13)

/-- Slots of a context that meet a condition. -/
def slotsOf (i : List Byte) (r c : Nat) (p : BitVec 32 → Bool) : List Nat :=
  (List.range 16).filter (fun n => elCtx i r n == c && p (elSlot i r n))

/-- ACCMODE of a context: reserved bits, OP, and N where the context accumulates; at most one AMAXR and one CNT (R183, R194). -/
def ctxOk (i : List Byte) (r c : Nat) : Bool :=
  let m := elField i r (0x98 + 2 * c) 2
  m / 32 % 8 == 0 && m % 8 ≤ 4 && (m / 256 != 0 || (slotsOf i r c slotAccs).isEmpty) &&
  (slotsOf i r c (fun w => slotOp w == 0x33)).length ≤ 1 && (slotsOf i r c (fun w => slotOp w == 0x34)).length ≤ 1

/-- An element record's FORMAT check. -/
def elemOk (i : List Byte) (r : Nat) : Bool :=
  elField i r 0 1 < imW i && elField i r 1 1 < imH i && elemAtPos i (elField i r 0 1) (elField i r 1 1) == some r &&
  elField i r 2 1 < 16 && elField i r 3 1 == 0 && elField i r 0xA0 8 == 0 &&
  (List.range 16).all (slotOk i r) && (List.range 4).all (fun n => routeOk i (elRoute i r n)) &&
  (List.range 4).all (ctxOk i r)

/-! ## Nodes (R395) -/

/-- The major opcodes a memory node performs, by what they are: 1 load, 2 store, 3 atomic, 4 reduction, 5 scratchpad atomic. -/
def nodeOpClass (opc : Nat) : Nat :=
  if opc == 0xA0 || opc == 0xC0 || opc == 0xC8 then 1
  else if opc == 0xA1 || opc == 0xC1 || opc == 0xC9 then 2
  else if 0xA7 ≤ opc && opc ≤ 0xB3 then 3
  else if 0xB5 ≤ opc && opc ≤ 0xB8 then 4
  else if 0xC4 ≤ opc && opc ≤ 0xC7 then 5
  else 0

/-- Opcodes with a signed comparison (R395). -/
def nodeSigned (opc : Nat) : Bool :=
  opc == 0xA8 || opc == 0xA9 || opc == 0xB6 || opc == 0xB7 || opc == 0xC5 || opc == 0xC6

/-- Zero bytes of a node record, by offset and length. -/
def ndZero (i : List Byte) (r : Nat) (l : List (Nat × Nat)) : Bool := l.all (fun p => ndField i r p.1 p.2 == 0)

/-- WIRED names memory records. -/
def wiredOk (i : List Byte) (r : Nat) : Bool :=
  (List.range 16).all (fun j => !(ndField i r 4 2).testBit j || (j < imNodes i && ndField i j 0 1 == 1))

/-- A node record's FORMAT check; the static sections of a frozen image may be those of either kind (R395, R410). -/
def nodeOk (i : List Byte) (r : Nat) : Bool :=
  let k := imKind i
  routeOk i (ndField i r 2 2) &&
  match ndField i r 0 1 with
  | 1 =>
    let cls := ndField i r 1 1
    let opc := ndField i r 5 1
    let oc := nodeOpClass opc
    let mm := ndField i r 6 2
    let flags := ndField i r 9 1
    let join := ndField i r 0x0A 1
    cls ≤ 2 && oc != 0 && mm < 2 ^ 12 && mm / 2 ^ 9 ≤ 2 && mm / 2 ^ 4 % 8 ≤ 4 && mm % 4 ≤ 1 && ndField i r 8 1 ≤ 2 && flags < 16 &&
    (flags / 8 == 0 || nodeSigned opc) && (join == 0xFF || (join < imNodes i && ndField i join 0 1 == 2)) &&
    (ndField i r 8 1 != 2 || (k != 1 && ndField i r 0x10 8 < 64)) && (ndField i r 8 1 != 0 || ndField i r 0x10 8 == 0) &&
    !(cls == 0 && oc != 1) && !(cls == 2 && oc < 3) &&
    !(k == 0 && (oc == 3 || oc == 5) && routeTo (ndField i r 2 2) != .none) &&
    ndField i r 0x0B 1 < 32 && ndZero i r [(0x0C, 4), (0x18, 24)]
  | 2 => ndField i r 6 1 < 5 && wiredOk i r && ndZero i r [(1, 1), (7, 1), (8, 40)]
  | 3 => ndField i r 1 1 ≤ 1 && (List.range 4).all (fun d => ndField i r (0x10 + 2 * d) 2 != 0) &&
      ndZero i r [(4, 4), (0x28, 8)]
  | 4 => ndZero i r [(1, 1), (4, 44)]
  | 5 => k != 1 && ndZero i r [(1, 1), (4, 44)]
  | 6 => k != 0 && ndField i r 6 1 < 5 && wiredOk i r && ndZero i r [(1, 1), (7, 1), (8, 40)]
  | _ => false

/-- Nodes of a kind in an image. -/
def imNodesOf (i : List Byte) (kind : Nat) : List Nat := (List.range (imNodes i)).filter (fun r => ndField i r 0 1 == kind)

/-- The limit of each node kind (R395). -/
def nodeLimit (kind : Nat) : Nat :=
  match kind with
  | 1 => 8
  | 2 | 3 => 4
  | _ => 1

/-- Whether no node kind is above its limit. -/
def nodeLimitsOk (i : List Byte) : Bool := [1, 2, 3, 4, 5, 6].all (fun k => (imNodesOf i k).length ≤ nodeLimit k)

/-! ## Rates and depths (R365, R396) -/

/-- The declared rate of a port: X or 0xFF, Y or the node index, direction 1 for inputs, port number. -/
def rateOf (i : List Byte) (x y dir port : Nat) : Option Nat :=
  ((List.range (imRates i)).find? (fun r =>
    let o := imRateOff i + 8 * r
    imField i o 1 == x && imField i (o + 1) 1 == y && imField i (o + 2) 1 == 4 * dir + port)).map
      (fun r => imField i (imRateOff i + 8 * r + 4) 2)

/-- The declared rate of the channel or node port at the end of a route. -/
def destRate (i : List Byte) (w : Nat) : Option Nat :=
  match routeTo w with
  | .chan x y n => rateOf i x y 1 n
  | .port node n => rateOf i 0xFF node 1 n
  | _ => none

/-- Two declared rates that are equal. -/
def ratesEq (a b : Option Nat) : Bool := a.isSome && a == b

/-- The route check of an element record. -/
def rateRoutesOk (i : List Byte) (r : Nat) : Bool :=
  (List.range 4).all (fun n => routeTo (elRoute i r n) == .none ||
    ratesEq (rateOf i (elField i r 0 1) (elField i r 1 1) 0 n) (destRate i (elRoute i r n)))

/-- SRL of a channel of an element record. -/
def elSrl (i : List Byte) (r n : Nat) : Nat := elField i r (0x90 + n) 1
/-- Declared depth of a channel. -/
def elDepth (i : List Byte) (r n : Nat) : Nat := elField i r (0x94 + n) 1
/-- Declared rate of a channel of an element record. -/
def elRate (i : List Byte) (r n : Nat) : Option Nat := rateOf i (elField i r 0 1) (elField i r 1 1) 1 n
/-- Declared rate of an out port. -/
def elOutRate (i : List Byte) (r n : Nat) : Option Nat := rateOf i (elField i r 0 1) (elField i r 1 1) 0 n

/-- Channels that TA names. -/
def taChans (x : ElemWord) : List Nat := (List.range 4).filter (fun n => x.ta.getLsbD n)

/-- The sum of two declared rates. -/
def addRates (a b : Option Nat) : Option Nat := do let x ← a; let y ← b; pure (x + y)

/-- The same-slot, steer and merge checks of one slot; a STEER with a discarded arm has no second arm rate to compare, and a MERGE's or MERGEU's
rate is that of each out port that it names. -/
def rateSlotOk (i : List Byte) (r n : Nat) : Bool :=
  let w := elSlot i r n
  let x := elemFields w
  let cs := (taChans x).filter (fun c => elSrl i r c != 255)
  let weighted := cs.map (fun c => (elRate i r c).map (fun q => q * (elSrl i r c + 1)))
  let outs := (if x.da.toNat ≤ 3 then [x.da.toNat] else []) ++
    (if x.da.toNat ≠ 12 ∧ 1 ≤ x.db.toNat ∧ x.db.toNat ≤ 4 then [x.db.toNat - 1] else [])
  (cs.length ≤ 1 || (weighted.all (fun q => q.isSome && q == weighted.headD none))) &&
  match slotOp w with
  | 0x2B => !(x.sa.toNat ≤ 3 && x.da.toNat ≤ 3 && 1 ≤ x.db.toNat) ||
      ratesEq (elRate i r x.sa.toNat) (addRates (elOutRate i r x.da.toNat) (elOutRate i r (x.db.toNat - 1)))
  | 0x2C | 0x2D => outs.all (fun p => ratesEq (elOutRate i r p) (addRates (elRate i r x.sa.toNat) (elRate i r x.sb.toNat)))
  | _ => true

/-- The depth check: declared depths 1 to 4, and a depth for every routed channel. -/
def depthOk (i : List Byte) (r : Nat) : Bool :=
  (List.range 4).all (fun n => elDepth i r n ≤ 4 &&
    (elDepth i r n != 0 || !(allRoutes i).any (fun w => routeTo w == .chan (elField i r 0 1) (elField i r 1 1) n)))

/-- The channel that a slot reads as a scale: SCLATCH's source A, QUANT's source B, or a head tested for TYPE scale. -/
def scaleChan (w : BitVec 32) : Option Nat :=
  let x := elemFields w
  if slotOp w == 0x31 then some x.sa.toNat
  else if slotOp w == 0x32 && x.sb.toNat ≤ 3 then some x.sb.toNat
  else if x.gd.toNat % 4 == 2 then some x.sa.toNat
  else none

/-- The block delay check of one slot. -/
def blockDelayOk (i : List Byte) (r n : Nat) : Bool :=
  let w := elSlot i r n
  let x := elemFields w
  match scaleChan w with
  | some c => !(x.ta.getLsbD c && elSrl i r c == 3) || (taChans x).all (fun d => d == c || elDepth i r d == 4)
  | none => true

/-! ## Acceptance (R397) -/

/-- The first record index that fails a check, as a detail byte; none where all pass. -/
def firstBad (n : Nat) (ok : Nat → Bool) : Option Nat := (List.range n).find? (fun r => !ok r)

/-- The header's FORMAT check, the live map, and what spans records. -/
def headerOk (i : List Byte) : Bool :=
  let k := imKind i
  k ≤ 2 && imField i 7 1 == 0 && imField i 0x27 1 == 0 && imField i 0x30 16 == 0 &&
  1 ≤ imShares i && imShares i ≤ 6 && 1 ≤ imW i && imW i ≤ 8 && 1 ≤ imH i && imH i ≤ 8 &&
  1 ≤ imElems i && imElems i ≤ 64 && imNodes i ≤ 18 && (imWdog i == 0 || (8 ≤ imWdog i && imWdog i ≤ 20 && k != 0)) &&
  (k == 2 || imSize i ≤ 16384) &&
  (match k with
   | 0 => imField i 0x1C 1 ≤ 7 && 1 ≤ imLive i && imLive i ≤ 24 && imPorts i == 0
   | 1 => imField i 0x10 8 == 0 && imField i 0x18 4 == 0 && imField i 0x1C 1 == 0 && imLive i == 0 && imPorts i ≤ 16
   | _ => true) &&
  (List.range (imLive i)).all (fun r =>
    let e := liveField i r
    e < 2 ^ 20 && (elemAtPos i (e / 2 ^ 14 % 8) (e / 2 ^ 17 % 8)).isSome &&
    match opndOfCode (BitVec.ofNat 10 (e % 1024)) with
    | some (.v _) | some (.w _) | some (.p _) => true
    | _ => false) &&
  (List.range (imRates i)).all (fun r =>
    let o := imRateOff i + 8 * r
    (if imField i o 1 = 0xFF then imField i (o + 1) 1 < imNodes i else (elemAtPos i (imField i o 1) (imField i (o + 1) 1)).isSome) &&
    imField i (o + 2) 1 < 8 && imField i (o + 3) 1 == 0 && imField i (o + 6) 2 == 0 && imField i (o + 4) 2 != 0) &&
  nodeLimitsOk i && (List.range (imPorts i)).all (fun p => routeOk i (portField i p))

/-- A check in order: the reason and detail byte of the first failure. -/
def firstFail (l : List (Nat × Option Nat)) : Option (Nat × Nat) :=
  l.findSome? (fun p => p.2.map (fun d => (p.1, d)))

/-- A whole-image check: detail 0xFF on failure. -/
def wholeCheck (ok : Bool) : Option Nat := if ok then none else some 0xFF

/-- The checks of R397 that concern the image alone, and SHARES against a limit; the first failing check decides. -/
def imageReject (i : List Byte) (limit : Nat) : Option (Nat × Nat) :=
  firstFail [
    (1, wholeCheck (imField i 4 2 == 2)),
    (2, wholeCheck (imField i 0 4 == 0x4D434C50 && (imSize i == imEnd i || (imKind i == 2 && imEnd i ≤ imSize i)) &&
      imField i 0x2C 4 == crc32 (i.take 0x2C ++ [0, 0, 0, 0] ++ i.drop 0x30))),
    (3, wholeCheck (headerOk i)),
    (3, firstBad (imElems i) (fun r => elemOk i r && (List.range 4).all (fun n => routeAlone i (elRoute i r n)))),
    (3, firstBad (imNodes i) (fun r => nodeOk i r && routeAlone i (ndField i r 2 2))),
    (3, wholeCheck (routesApart (allRoutes i))),
    (4, firstBad (imElems i) (fun r => rateRoutesOk i r && (List.range 16).all (rateSlotOk i r))),
    (4, firstBad (imNodes i) (fun r => routeTo (ndField i r 2 2) == .none ||
      ratesEq (rateOf i 0xFF r 0 0) (destRate i (ndField i r 2 2)))),
    (5, firstBad (imElems i) (depthOk i)),
    (6, firstBad (imElems i) (fun r => (List.range 16).all (blockDelayOk i r))),
    (7, wholeCheck (imShares i + 1 ≤ limit)),
    (8, firstBad (imElems i) (fun r => (List.range 16).all (fun n =>
      slotOp (elSlot i r n) != 0x2D || (elField i r 2 1).testBit (elCtx i r n))))]

/-! ## Space and loading (R398) -/

/-- Physical edge nodes of a core, by kind (R395). -/
def nodesFree (c : Core) (kind : Nat) : Nat :=
  nodeLimit kind - (c.placed.map (fun p => (p.2.nodes.filter (fun q => q.2.kind == kind)).length)).foldl (· + ·) 0

/-- Whether an element is free. -/
def Core.elemFree (c : Core) (e : Nat) : Bool := (SMap.get {} c.elems e).owner == 0

/-- Whether an image fits at an origin. -/
def Core.fitsAt (c : Core) (i : List Byte) (x0 y0 : Nat) : Bool :=
  x0 + imW i ≤ 8 && y0 + imH i ≤ 8 &&
  (List.range (imElems i)).all (fun r => c.elemFree (8 * (y0 + elField i r 1 1) + x0 + elField i r 0 1))

/-- The first origin in ascending y0, then x0 (R398); each copy has its own exit node, so only nodes that regions and copies share
are counted. -/
def Core.origin (c : Core) (i : List Byte) : Option (Nat × Nat) :=
  if [1, 2, 3, 4].all (fun k => (imNodesOf i k).length ≤ nodesFree c k) then
    ((List.range 64).find? (fun q => c.fitsAt i (q % 8) (q / 8))).map (fun q => (q % 8, q / 8))
  else none

/-- A signed 32-bit field. -/
def i32 (n : Nat) : Int := (BitVec.ofNat 32 n).toInt

/-- OP, LVL and N of ACCMODE (R183). -/
def accOp (m : Half) : Nat := m.toNat % 8
/-- LVL. -/
def accLvl (m : Half) : Nat := m.toNat / 8 % 4
/-- N. -/
def accN (m : Half) : Nat := m.toNat / 256

/-- The identity of an accumulator operation (R183). -/
def accIdentity (op : Nat) : Word :=
  match op with
  | 2 => 0xFF800000
  | 3 => 0x7F800000
  | _ => 0

/-- Every lane of an accumulator at the identity of its operation. -/
def accClear (m : Half) : SMap Word := (List.range 8).foldl (fun v l => SMap.set 0 v l (accIdentity (accOp m))) []

/-- An element record as an element (R393, R398). -/
def loadElem (i : List Byte) (r pi : Nat) : Element :=
  { slots := (List.range 16).foldl (fun m n => SMap.set 0x0377C070 m n (elSlot i r n)) []
    ctxmap := BitVec.ofNat 32 (elField i r 4 4)
    lits := (List.range 16).foldl (fun m n => SMap.set 0 m n (BitVec.ofNat 32 (elLit i r n))) []
    chans := (List.range 4).foldl (fun m n => SMap.set {} m n { depth := elDepth i r n, srl := elSrl i r n }) []
    routes := (List.range 4).foldl (fun m n => SMap.set 0 m n (BitVec.ofNat 16 (elRoute i r n))) []
    wdog := imWdog i
    ctxs := (List.range 4).foldl (fun m c => SMap.set {} m c
      { accmode := BitVec.ofNat 16 (elField i r (0x98 + 2 * c) 2), accv := accClear (BitVec.ofNat 16 (elField i r (0x98 + 2 * c) 2)) }) []
    commut := BitVec.ofNat 4 (elField i r 2 1)
    owner := pi + 1 }

/-- A node record as a node (R395). -/
def loadNode (i : List Byte) (r : Nat) : Node :=
  { kind := ndField i r 0 1
    cls := ndField i r 1 1
    space := ndField i r 1 1
    route := BitVec.ofNat 16 (ndField i r 2 2)
    seq := ndField i r 4 1
    opc := ndField i r 5 1
    mm := BitVec.ofNat 12 (ndField i r 6 2)
    basesrc := ndField i r 8 1
    shift := ndField i r 9 1 % 4
    sx := (ndField i r 9 1).testBit 2
    signed := (ndField i r 9 1).testBit 3
    join := ndField i r 0x0A 1
    grp := ndField i r 0x0B 1
    base := BitVec.ofNat 64 (if ndField i r 0 1 = 3 then ndField i r 8 8 else ndField i r 0x10 8)
    wired := BitVec.ofNat 16 (ndField i r 4 2)
    scope := ndField i r 6 1 % 8
    ext := (List.range 4).map (fun d => ndField i r (0x10 + 2 * d) 2)
    stride := (List.range 4).map (fun d => i32 (ndField i r (0x18 + 4 * d) 4)) }

/-- The physical nodes of a kind that no placed image holds, ascending (R395, R398). -/
def Core.freeNodes (c : Core) (kind : Nat) : List Nat :=
  let used := c.placed.flatMap (fun p => (p.2.nodes.filter (fun q => q.2.kind == kind)).map (·.2.phys))
  (List.range (nodeLimit kind)).filter (fun n => !used.contains n)

/-- The physical node that record `r` of an image maps to: the free nodes of its kind are taken in ascending order (R398). -/
def Core.physNode (c : Core) (i : List Byte) (r : Nat) : Nat :=
  let k := ndField i r 0 1
  (c.freeNodes k).getD (((List.range r).filter (fun q => ndField i q 0 1 == k)).length) 0

/-- Load an accepted image at an origin as placed image `pi` (R398). -/
def Core.loadImage (c : Core) (pi blk rgn : Nat) (i : List Byte) (x0 y0 : Nat) (region : Option RegionState)
    (copy : Option Copy) : Core :=
  { c with
    elems := (List.range (imElems i)).foldl (fun m r =>
      SMap.set {} m (8 * (y0 + elField i r 1 1) + x0 + elField i r 0 1) (loadElem i r pi)) c.elems
    placed := SMap.set {} c.placed pi
      { blk, rgn, region, copy, image := i, x0, y0
        nodes := (List.range (imNodes i)).foldl (fun m r => SMap.set {} m r { loadNode i r with phys := c.physNode i r }) []
        ports := (List.range (imPorts i)).map (fun p => BitVec.ofNat 16 (portField i p)) } }

/-- The lowest number that no placed image has. -/
def Core.freePlaced (c : Core) : Nat := ((List.range (c.placed.length + 1)).find? (fun n => !c.placed.any (fun p => p.1 == n))).getD 0

end Sys2Proof.Machine
end

