-- ==== Sys2Proof/Machine/Monitor.lean ====
section
/-!
DEFINITION. The loop monitor, the placement cache and its lookup (R34, R35, R38, R86, R406 to R408).
-/

namespace Sys2Proof.Machine

/-! ## The loop monitor (R35, R86) -/

/-- A taken backward branch to `x`. -/
def Group.backward (g : Group) (x : Dword) : Group :=
  if x = g.loopH then { g with loopCount := g.loopCount + 1 }
  else { g with
    loopH := x, loopCount := 1, armPoint := 0, barred := false
    hintValid := g.hintValid && g.hintHead == x }

/-- The capture threshold: the hint's while H is the hinted head, otherwise LOOPCFG.T (R34, R86). -/
def Group.threshold (g : Group) : Nat :=
  if g.hintValid && g.loopH == g.hintHead then g.hintT.toNat else g.loopcfg.toNat % 256

/-- k of LOOPCFG (R34). -/
def Group.kDepth (g : Group) : Nat := g.loopcfg.toNat / 256 % 8 + 1

/-- Iterations since the arm point (R35). -/
def Group.sinceArm (g : Group) : Nat := (g.loopCount - g.armPoint).toNat

/-- Whether the group is a capture candidate: count − A has reached the threshold, neither the threshold nor LOOPCFG.T is 0, and no lookup has
met an unplaceable mark (R34, R35, R38, R86, R91). T = 0 disables capture for the group, whatever a hint gives (assumption 90). -/
def Group.candidate (g : Group) : Bool :=
  g.loopcfg.toNat % 256 != 0 && g.threshold != 0 && !g.barred && decide (g.threshold ≤ g.sinceArm)

/-- Whether the lookup of a candidate is due: count − A is a multiple of T (R38, R406). -/
def Group.lookupDue (g : Group) : Bool := g.candidate && g.sinceArm % g.threshold == 0

/-! ## Code objects -/

/-- The first code object in state LOADED or QUARANTINED that meets a condition. A table entry names its object by VA base alone (R387);
of objects that overlap, one that was loaded in address space `asid` comes first. -/
def Partition.objectWhere (p : Partition) (asid : Nat) (f : CodeObj → Bool) : Option (Nat × CodeObj) :=
  let l := p.objects.filter (fun q => (q.2.st == 2 || q.2.st == 3) && f q.2)
  (l.find? (fun q => q.2.asid == asid)).or l.head?

/-- The loaded code object whose code pages hold an address (R385, R387): its index and entry. -/
def Partition.objectAt (p : Partition) (asid va : Nat) : Option (Nat × CodeObj) :=
  p.objectWhere asid (fun o => decide (o.base.toNat + o.codeofs ≤ va) && decide (va < o.base.toNat + o.codeofs + 65536 * o.pages))

/-! ## Reading global memory for the device's own agents -/

/-- `n` bytes at a global address read by a core for a block, page by page; none where a page fails. -/
def State.readVa (s : State) (core : Nat) (b : Block) (va n : Nat) : Option (List Byte) :=
  let pages := (List.range ((va + n + 65535) / 65536 - va / 65536)).map (fun i => va / 65536 + i)
  pages.foldl (fun acc pg =>
    let lo := max va (65536 * pg)
    let hi := min (va + n) (65536 * (pg + 1))
    match acc, s.translate b.part core b.asid lo .read with
    | some l, .at k => some (l ++ readList s.mem k (hi - lo))
    | some l, .zero => some (l ++ List.replicate (hi - lo) 0)
    | _, _ => none) (some [])

/-! ## The placement cache (R406) -/

/-- The key of a lookup (R406). -/
structure PlaceKey where
  objid : Nat
  headofs : Nat
  layhash : Nat
  k : Nat
deriving DecidableEq, Repr

/-- Whether an entry has a key. -/
def CacheEntry.has (e : CacheEntry) (k : PlaceKey) : Bool :=
  e.objid == k.objid && e.headofs == k.headofs && e.layhash == k.layhash && e.k == k.k

/-- Whether an entry serves a streaming copy. -/
def Core.serving (c : Core) (e : CacheEntry) : Bool :=
  c.placed.any (fun p => match p.2.copy with
    | some q => q.cacheKey == (e.objid, e.headofs, e.layhash, e.k)
    | none => false)

/-- The time stamp of the next use. -/
def Core.nextUse (c : Core) : Nat := c.cache.foldl (fun a e => max a (e.used + 1)) 1

/-- Mark an entry used. -/
def Core.touch (c : Core) (k : PlaceKey) : Core :=
  { c with cache := updWhere (·.has k) (fun e => { e with used := c.nextUse }) c.cache }

/-- Enter a placement or a mark, replacing the entry of the same key, otherwise the least recently used one that serves no copy;
the result is discarded when every entry serves one (R38, R406). -/
def Core.enter (c : Core) (k : PlaceKey) (image : Option (List Byte)) : Core :=
  let e : CacheEntry := { objid := k.objid, headofs := k.headofs, layhash := k.layhash, k := k.k, image, used := c.nextUse }
  if c.cache.any (·.has k) then { c with cache := updWhere (·.has k) (fun _ => e) c.cache }
  else if c.cache.length < 32 then { c with cache := c.cache ++ [e] }
  else
    let free := c.cache.filter (fun q => !c.serving q)
    match free with
    | [] => c
    | q :: r =>
      let v := r.foldl (fun a b => if b.used < a.used then b else a) q
      { c with cache := updWhere (· == v) (fun _ => e) c.cache }

/-! ## Placement areas (R407, R408) -/

/-- KEYHASH of a key (R407). -/
def PlaceKey.hash (k : PlaceKey) : Nat := crc32 (bytesOf 8 k.objid ++ bytesOf 8 k.headofs ++ bytesOf 4 k.layhash ++ bytesOf 1 (k.k - 1))

/-- The key that a captured-loop image names. -/
def imKey (i : List Byte) : PlaceKey := ⟨imField i 8 8, imField i 0x10 8, imField i 0x18 4, imField i 0x1C 1 + 1⟩

/-- Slot `n` of an area of `count` entries: the image, when GEN is even, STATE is 1 and the size fits the slot. -/
def State.areaSlot (rd : Nat → Nat → Option (List Byte)) (area n : Nat) : Option (Nat × List Byte) := do
  let d ← rd (area + 16 * n) 16
  let size := natOf ((d.drop 4).take 4)
  if natOf (d.take 1) = 1 ∧ natOf (d.drop 12) % 2 = 0 ∧ size ≤ 16384 then
    let i ← rd (area + 512 + 16384 * n) size
    pure (natOf ((d.drop 8).take 4), i)
  else none

/-- Whether an image from an area is accepted by a core as a captured-loop placement (R397, R408). -/
def Core.areaOk (c : Core) (hash : Nat) (i : List Byte) : Bool :=
  imKind i == 0 && (imKey i).hash == hash && (imageReject i c.budget).isNone

/-- The image of a key in the placement area of a code object, as its reader finds it (R408). -/
def State.areaLookup (s : State) (core : Nat) (b : Block) (o : CodeObj) (k : PlaceKey) : Option (List Byte) :=
  if o.nplace = 0 then none
  else
    match State.areaSlot (s.readVa core b) (o.base.toNat + o.placeofs) (k.hash % o.nplace) with
    | some (h, i) => if h = k.hash ∧ imKey i = k ∧ (s.core core).areaOk h i then some i else none
    | none => none

/-! ## Lookup (R38, R406, R445) -/

/-- Whether an enabled breakpoint of an attached debugger stands in a range of code (R445). -/
def State.breakIn (s : State) (part lo hi : Nat) : Bool :=
  let p := s.part part
  p.dbgctl.getLsbD 0 && p.dbgbp.any (fun q => q.2.getLsbD 0 && decide (lo ≤ q.2.toNat / 8 * 8) && decide (q.2.toNat / 8 * 8 ≤ hi))

/-- Whether a placement's draw fits a block and a core (R397, R406). -/
def Core.sharesFit (c : Core) (b : Block) (i : List Byte) : Bool := imShares i + 1 ≤ min c.budget b.kd.shares

/-- What a hit on a placement does to the group: it hands over at a boundary of its loop (R39), or the loop is barred where the shares do not
fit (R406). -/
def Group.hit (g : Group) (fits : Bool) : Group := if fits then g else { g with barred := true }

/-- The request of a slot for a key. -/
def PlaceKey.request (k : PlaceKey) (slot : Nat) : PlaceReq := { slot, objid := k.objid, headofs := k.headofs, layhash := k.layhash, k := k.k }

/-- The lookup of a candidate group whose branch stands at `pc` (R38): hit on a placement, hit on a mark, area slot, request, or
nothing. No loop is captured in reduced service (R452) or with a breakpoint in the body (R445). -/
def State.lookup (s : State) (core slot : Nat) (pc : Nat) : State :=
  let c := s.core core
  let g := c.group slot
  let b := c.block g.blk
  if !g.lookupDue || s.devstate == 1 || s.breakIn b.part g.loopH.toNat pc then s
  else match (s.part b.part).objectAt b.asid g.loopH.toNat with
    | none => s
    | some (_, o) =>
      let k : PlaceKey := ⟨o.objid, g.loopH.toNat - o.base.toNat, b.kd.layhash, g.kDepth⟩
      match c.cache.find? (·.has k) with
      | some { image := some i, .. } => s.setCore core ((c.touch k).setGroup slot (g.hit (c.sharesFit b i)))
      | some { image := none, .. } => s.setCore core ((c.touch k).setGroup slot { g with barred := true })
      | none =>
        match s.areaLookup core b o k with
        | some i =>
          let c1 := c.enter k (some i)
          if c1.cache.any (·.has k) then s.setCore core (c1.setGroup slot (g.hit (c.sharesFit b i))) else s
        | none =>
          if c.placerq.contains (k.request slot) || 4 ≤ c.placerq.length then s
          else s.setCore core { c with placerq := c.placerq ++ [k.request slot] }

end Sys2Proof.Machine
end

