-- ==== Sys2Proof/Machine/Control.lean ====
section
/-!
DEFINITION. The control path, OP 0x01 to 0x0F (R77 to R91).
-/

namespace Sys2Proof.Machine

/-! ## Masks and the stack (R30, R79 to R85) -/

/-- Free entries of the reconvergence stack. -/
def Group.free (g : Group) : Nat := 16 - g.stack.length
/-- PUSH; nothing is pushed for an empty mask. -/
def Group.push (g : Group) (rcv : Bool) (pc : Dword) (m : Mask) : Group :=
  if m = 0 then g else { g with stack := { rcv, pc, mask := m } :: g.stack }
/-- A new active mask; a change makes y invalid (R76). -/
def Group.setMask (g : Group) (m : Mask) : Group := if m = g.m then g else { g.yInvalid with m := m }
/-- The return address PC + 8 in the lanes of ACT, pushed as a 64-bit result (R75, R80, R81). -/
def Fe.link (e : Fe) (d : Opnd) : Group :=
  let f := fun _ => e.g.pc + 8
  (e.g.write64 d e.act f).push64 e.x d e.act f

/-- The target of format B: PC + 8 + 8 × SEXT(OFS) (R59). -/
def branchTarget (pc : Dword) (ofs : BitVec 32) : Dword := pc + 8 + (ofs.signExtend 64 <<< 3)

/-- The reconvergence-stack fault (R77). -/
def Fe.stackFault (e : Fe) (sub : Nat) : Out := e.fault { cause := 7, sub }

/-- The common path of BRA and CALL: `g` holds the link (R80). -/
def Fe.divide (e : Fe) (g : Group) (t : Dword) : Group :=
  { ((g.push false (e.g.pc + 8) (e.g.m &&& ~~~e.act)).setMask e.act) with pc := t }

/-- BRA (R80); a taken backward branch counts in the loop monitor, and a candidate looks up the placement cache (R35, R38). -/
def execBra (x : FmtB) (s : State) : Out :=
  frontEnd (.bra x) x.g s (fun e =>
    let t := branchTarget e.g.pc x.ofs
    if e.act = 0 then e.done e.g
    else if e.act ≠ e.g.m ∧ e.g.free = 0 then e.stackFault 0
    else
      let g := e.divide e.g t
      if t ≤ e.g.pc then .next ((e.put (g.backward t)).lookup e.core e.slot e.g.pc.toNat)
      else .next (e.put g))

/-- CALL (R80). -/
def execCall (x : FmtB) (s : State) : Out :=
  frontEnd (.call x) x.g s (fun e =>
    if e.act = 0 then e.done (e.link x.lnk)
    else if e.act ≠ e.g.m ∧ e.g.free = 0 then e.stackFault 0
    else .next (e.put (e.divide (e.link x.lnk) (branchTarget e.g.pc x.ofs))))

/-- The indirect transfer of R81 to the targets of the lanes of ACT. -/
def Fe.indirect (e : Fe) (lnk : Option Opnd) (tgt : Nat → Dword) : Out :=
  let g0 := match lnk with
    | some d => e.link d
    | none => e.g
  if e.act = 0 then e.done g0
  else
    let bad := (lanesOf e.act).filter (fun l => tgt l &&& 7 != 0)
    let t0 := tgt (lowest e.act)
    let now := maskOf ((lanesOf e.act).filter (fun l => tgt l == t0))
    let later := e.act &&& ~~~now
    let skip := e.g.m &&& ~~~e.act
    match bad with
    | l :: _ => e.fault { cause := 3, addr := (tgt l).toNat, lanes := maskOf bad }
    | [] =>
      if e.g.free < (if skip = 0 then 0 else 1) + (if later = 0 then 0 else 1) then e.stackFault 0
      else
        let g := (g0.push false (e.g.pc + 8) skip).push false e.g.pc later
        .next (e.put { (g.setMask now) with pc := t0 })

/-- BRX (R81). -/
def execBrx (x : FmtR) (s : State) : Out := frontEnd (.brx x) x.g s (fun e => e.indirect none (e.g.rd64 x.a))
/-- CALLX (R81). -/
def execCallx (x : FmtR) (s : State) : Out := frontEnd (.callx x) x.g s (fun e => e.indirect (some x.d) (e.g.rd64 x.a))
/-- RET has exactly the effect of BRX (R81). -/
def execRet (x : FmtR) (s : State) : Out := frontEnd (.ret x) x.g s (fun e => e.indirect none (e.g.rd64 x.a))

/-- CALLL: an acquire load at dev scope of each lane's entry, then R81 (R82). -/
def execCalll (x : FmtM) (s : State) : Out :=
  frontEnd (.calll x) x.g s (fun e =>
    e.inOrder 1 3 (e.checked e.act 8 true (fun l => (e.gaddr x l, e.s.reach e.core e.b .read 8 (e.gaddr x l))) (fun lanes =>
      e.acquires 1 3 (laneCells lanes 8)
       (if anyOutside lanes then e.request (.call x.d lanes)
        else (e.reads (mmCh x.mm) (laneCells lanes 8)).indirect (some x.d) (fun l => BitVec.ofNat 64 (e.s.laneRead lanes 8 l))))))

/-! ## RCV, JOIN and EXIT (R83 to R85) -/

/-- UNWIND: the first entry whose mask is not empty, with the PC it gives and the entries below it. -/
def unwind : List StackEntry → Option (Mask × Dword × List StackEntry)
  | [] => none
  | e :: r => if e.mask = 0 then unwind r else some (e.mask, if e.rcv then e.pc + 8 else e.pc, r)

/-- How JOIN ends. -/
inductive JoinEnd where
  | fault (sub : Nat)
  | run (m : Mask) (pc : Dword) (stack : List StackEntry)
  | ends
deriving DecidableEq, Repr

/-- JOIN over the stack, top first (R84). -/
def joinStack (pc : Dword) : List StackEntry → JoinEnd
  | [] => .fault 1
  | e :: r =>
    if !e.rcv then (if e.mask = 0 then joinStack pc r else .run e.mask e.pc r)
    else if e.pc ≠ pc then .fault 2
    else if e.mask ≠ 0 then .run e.mask (pc + 8) r
    else match unwind r with
      | some (m, p, t) => .run m p t
      | none => .ends

/-- A group ends: it holds its slot until its block retires, and NGRP falls (R85, R374). -/
def State.endGroup (s : State) (core slot : Nat) (g : Group) : State :=
  let s := s.setGroup core slot { g with st := .ended, m := 0, stack := [] }
  let b := (s.core core).block g.blk
  s.setBlock core g.blk { b with ngrp := b.ngrp - 1 }

/-- RCV (R83). -/
def execRcv (x : FmtB) (s : State) : Out :=
  frontEnd (.rcv x) x.g s (fun e =>
    if e.g.free = 0 then e.stackFault 0
    else e.done { e.g with stack := { rcv := true, pc := branchTarget e.g.pc x.ofs, mask := e.g.m } :: e.g.stack })

/-- JOIN (R84). -/
def execJoin (x : FmtR) (s : State) : Out :=
  frontEnd (.join x) x.g s (fun e =>
    match joinStack e.g.pc e.g.stack with
    | .fault n => e.stackFault n
    | .run m pc r => .next (e.put { e.g.yInvalid with
      st := .waiting .join
      m
      pc
      stack := r })
    | .ends => .next (e.s.endGroup e.core e.slot e.g.yInvalid))

/-- The threads in some lanes exit: LIVE clears (R375). -/
def Block.exitThreads (b : Block) (ts : List Nat) : Block :=
  { b with threads := ts.foldl (fun m t => SMap.set {} m t { (SMap.get {} m t) with live := false }) b.threads }

/-- EXIT of the lanes X on a group: masks lose X, and the group goes on, unwinds or ends (R85). -/
def State.exitLanes (s : State) (core slot : Nat) (x : Mask) : State :=
  let g := (s.core core).group slot
  let g1 := { g with
    exitm := g.exitm ||| x, m := g.m &&& ~~~x
    stack := g.stack.map (fun t => { t with mask := t.mask &&& ~~~x }) }
  if g1.m ≠ 0 then s.setGroup core slot (if x = 0 then g1.next else g1.yInvalid.next)
  else match unwind g1.stack with
    | some (m, pc, r) => s.setGroup core slot { g1.yInvalid with m, pc, stack := r }
    | none => s.endGroup core slot g1

/-- EXIT (R85); barrier phases are tested after it (R415, R418). -/
def execExit (x : FmtR) (s : State) : Out :=
  frontEnd (.exit x) x.g s (fun e =>
    if e.act = 0 then e.done e.g
    else
      let s1 := e.s.setBlock e.core e.g.blk (e.b.exitThreads (e.g.threadsIn e.act))
      let s2 := s1.exitLanes e.core e.slot e.act
      .next ((s2.checkBars e.core e.g.blk).gangCheck e.core e.g.blk))

/-! ## LOOPHINT, TRAP, BKPT and NOP (R86 to R89) -/

/-- LOOPHINT. -/
def execLoophint (x : FmtI) (s : State) : Out :=
  frontEnd (.loophint x) x.g s (fun e =>
    if e.act = 0 then e.done e.g
    else e.done { e.g with hintT := x.imm.setWidth 8, hintValid := true, hintHead := e.g.pc + 8 })

/-- TRAP: enter the user trap handler (R87). -/
def execTrap (x : FmtI) (s : State) : Out :=
  frontEnd (.trap x) x.g s (fun e =>
    let skip := e.g.m &&& ~~~e.act
    if e.act = 0 then e.done e.g
    else if e.g.trapbase = 0 then e.fault { cause := 0xC, sub := x.imm.toNat }
    else if skip ≠ 0 ∧ e.g.free = 0 then e.stackFault 0
    else
      let g := e.g.push false (e.g.pc + 8) skip
      .next (e.put { g.yInvalid with trapN := x.imm, trapRet := e.g.pc + 8, m := e.act, pc := e.g.trapbase }))

/-- BKPT: with a debugger attached and ACT not empty the group halts, PC at the BKPT; otherwise a no-op (R88, R443). -/
def execBkpt (x : FmtI) (s : State) : Out :=
  frontEnd (.bkpt x) x.g s (fun e =>
    if (e.s.part e.b.part).dbgctl.getLsbD 0 && e.act != 0 then .next (e.put { e.g with haltReq := true })
    else e.done e.g)

/-- NOP. -/
def execNop (x : FmtR) (s : State) : Out := frontEnd (.nop x) x.g s (fun e => e.done e.g)

/-! ## Special registers (R77, R78, R90, R91) -/

/-- A word of a 64-bit register: 0 low, 1 high. -/
def halfOf (x : Dword) (sub : Nat) : Word := if sub = 0 then x.setWidth 32 else x.extractLsb' 32 32

/-- SRVALUE (R77). -/
def Fe.srValue (e : Fe) (srn sub l : Nat) : Word :=
  let t := e.g.tid l
  let b := e.b
  let n := fun k : Nat => BitVec.ofNat 32 k
  match srn with
  | 0x000 => n l
  | 0x001 => n (l / 4)
  | 0x002 => n e.slot
  | 0x003 => n (t / 32)
  | 0x004 => n (t % 32)
  | 0x005 => n b.ngrp
  | 0x008 => n (t % b.bx)
  | 0x009 => n (t / b.bx % b.by_)
  | 0x00A => n (t / (b.bx * b.by_))
  | 0x00B => n (match sub with | 0 => b.bx | 1 => b.by_ | _ => b.bz)
  | 0x010 => n (b.b % b.gx)
  | 0x011 => n (b.b / b.gx % b.gy)
  | 0x012 => n (b.b / (b.gx * b.gy))
  | 0x013 => n (match sub with | 0 => b.gx | 1 => b.gy | _ => b.gz)
  | 0x014 => n b.rank
  | 0x018 => n (e.core % 256)
  | 0x019 => n (e.core % 256 / 16)
  | 0x01A => n (dieOf e.core)
  | 0x020 => halfOf e.c.cycles 0
  | 0x021 => e.g.clockhi
  | 0x028 => e.g.loopCount
  | 0x029 => e.g.loopcfg
  | 0x030 => e.g.amaxOf l
  | 0x031 => (e.g.seed l).setWidth 32
  | 0x038 => SMap.get 0 e.g.rkey l
  | 0x039 => boolWord e.g.rkmix
  | 0x040 => e.g.m
  | 0x041 => e.g.exitm
  | 0x048 => n (e.c.draw % 256 + 256 * e.c.budget + 65536 * b.kd.shares)
  | 0x050 => SMap.get 0 e.g.faultinfo sub
  | 0x051 => (match sub with | 0 => e.g.trapN | 1 => halfOf e.g.trapRet 0 | _ => halfOf e.g.trapRet 1)
  | _ => halfOf e.g.trapbase sub

/-- RDSR (R90); a CLOCKLO read latches CLOCKHI (R78). -/
def execRdsr (x : FmtS) (s : State) : Out :=
  frontEnd (.rdsr x) x.g s (fun e =>
    let v := e.srValue x.srn.toNat x.sub.toNat
    let g := if x.srn = 0x020 ∧ e.act ≠ 0 then { e.g with clockhi := halfOf e.c.cycles 1 } else e.g
    let e1 : Fe := { e with g }
    match x.d with
    | .k n => e1.resultK n.toNat (v (lowest e.act))
    | d => e1.result d v)

/-- Write a special register from the lowest lane of ACT (R91, R34). -/
def Group.writeSr (g : Group) (srn sub : Nat) (v : Word) : Group :=
  if srn = 0x029 then { g with loopcfg := v &&& 0x7FF }
  else if sub = 0 then { g with trapbase := (halfOf g.trapbase 1 ++ (v &&& 0xFFFFFFF8) : Dword) }
  else { g with trapbase := ((v &&& 0x00FFFFFF) ++ halfOf g.trapbase 0 : Dword) }

/-- WRSR (R91). -/
def execWrsr (x : FmtS) (s : State) : Out :=
  frontEnd (.wrsr x) x.g s (fun e =>
    if e.act = 0 then e.done e.g
    else e.done (e.g.writeSr x.srn.toNat x.sub.toNat (e.g.rd x.a (lowest e.act))))

end Sys2Proof.Machine
end

