-- ==== Sys2Proof/Machine/Scratch.lean ====
section
/-!
DEFINITION. Scratchpad addresses and their checks, mapped windows with their fills and marks, the scratchpad and lane private forms,
OP 0xC0 to 0xC9, and the window forms, OP 0xCA to 0xCD (R257 to R274, R384).
-/

namespace Sys2Proof.Machine

/-! ## Addresses (R259, R260) -/

/-- Where a scratchpad address leads: the target block on its core, the offset in its allocation, and the window there. -/
structure Spot where
  core : Nat
  blk : Nat
  off : Nat
  win : Option Window
deriving DecidableEq, Repr

/-- A scratchpad address that fails a check of R260, with the sub-cause of the permission fault, or the spot. -/
inductive Spotted where
  | bad (sub : Nat)
  | ok (p : Spot)
deriving DecidableEq, Repr

/-- The window of a block that some bytes of its allocation meet. -/
def Core.windowAt (c : Core) (blk off n : Nat) : Option Window :=
  c.windows.find? (fun w => w.blk == blk && w.sb < off + n && off < w.sb + w.size)

/-- The block of a gang that is resident on a core (R259). -/
def State.gangBlockOn (s : State) (core blk target : Nat) : Option Nat :=
  ((s.gangBlocks core blk).find? (fun q => q.1 == target)).map (·.2)

/-- `n` bytes at a 32-bit scratchpad address for a block of a core. -/
def State.spot (s : State) (core blk a n : Nat) : Spotted :=
  let off := a % 2 ^ 20
  let target := 256 * dieOf core + a / 2 ^ 20 % 256
  let inside := fun (c b : Nat) (cluster : Bool) =>
    if ((s.core c).block b).scratchBytes < off + n then Spotted.bad 16
    else
      let w := (s.core c).windowAt b off n
      if cluster && w.isSome then .bad 18 else .ok ⟨c, b, off, w⟩
  if a / 2 ^ 31 % 2 = 0 then (if a / 2 ^ 20 % 2 ^ 11 ≠ 0 then .bad 16 else inside core blk false)
  else if a / 2 ^ 28 % 8 ≠ 0 then .bad 16
  else if target = core then inside core blk false
  else match s.gangBlockOn core blk target with
    | some b => inside target b true
    | none => .bad 17

/-- Read scratchpad bytes of a block. -/
def State.spRead (s : State) (core blk off n : Nat) : Nat := readBytes (s.core core).scratch (s.scratchKey core blk off) n
/-- Write scratchpad bytes of a block. -/
def State.spWrite (s : State) (core blk off n v : Nat) : State :=
  let c := s.core core
  (s.setCore core { c with scratch := writeBytes c.scratch (s.scratchKey core blk off) n v }).cleanse (spKey core (s.scratchKey core blk off)) n

/-! ## Windows (R266 to R268) -/

/-- Element size of a window. -/
def Window.esz (w : Window) : Nat := 2 ^ w.lesz
/-- The global address that matches an offset of the block's allocation inside a window (R266). -/
def Window.vaAt (w : Window) (off : Nat) : Nat :=
  let r := off - w.sb
  let i := r / w.esz
  let x : Int := (w.va.toNat : Int) + ((w.esz * (i % w.e0) : Nat) : Int) + w.s1 * ((i / w.e0 % w.e1 : Nat) : Int) +
    w.s2 * ((i / (w.e0 * w.e1) : Nat) : Int) + ((r % w.esz : Nat) : Int)
  (BitVec.ofInt 64 x).toNat
/-- The first offset of the sector of an offset. -/
def Window.sector (w : Window) (off : Nat) : Nat := w.sb + (off - w.sb) / 32 * 32
/-- Whether an access to an offset of a window must fill its sector first (R267). -/
def State.mustFill (s : State) (core blk : Nat) (w : Window) (off : Nat) : Bool :=
  w.mode != 2 && (List.range 8).any (fun i => !(s.marksAt core blk (w.sector off + 4 * i)).v)

/-- A word at a key takes over the poison of bytes written into it; other bytes that cover it whole clear its own (R304). -/
def State.carryPoison (s : State) (k : Nat) (bad whole : Bool) : State :=
  if bad then { s with poisoned := s.poisoned.filter (· != k) ++ [k] }
  else if whole then s.cleanse k 4
  else s

/-- Fetch the bytes of a word whose BE is clear, at key `k` or as zero, with the poison of what is fetched, and set V (R267, R304). -/
def State.fillWord (s : State) (core blk off : Nat) (k : Option Nat) : State :=
  let m := s.marksAt core blk off
  if m.v then s
  else
    let s1 := (List.range 4).foldl (fun (s : State) i =>
      if m.be.getLsbD i then s
      else s.spWrite core blk (off + i) 1 (match k with | some k => s.rd (k + i) 1 | none => 0)) s
    (s1.carryPoison (spKey core (s.scratchKey core blk off)) (m.be != 0xF && k.any (fun k => s.poisonAt k 4)) (m.be = 0)).setMarks core blk off { m with v := true, src := match k with | some k => k + 1 | none => 0 }

/-- A window becomes a sharer of some words of a line at its home (R268, R300). -/
def DirEntry.share (d : DirEntry) (core wid : Nat) (m : Mask) : DirEntry :=
  if d.ws.any (fun q => q.1 == core && q.2.1 == wid) then
    { d with ws := updWhere (fun q => q.1 == core && q.2.1 == wid) (fun q => (q.1, q.2.1, q.2.2 ||| m)) d.ws }
  else { d with ws := d.ws ++ [(core, wid, m)] }

/-- A line of device memory that has more than 8 window sharers loses the oldest, whose window learns that the whole line was written (R301). -/
def State.evictSharer (s : State) (line : Nat) : State :=
  let d := s.dirEntry line
  match d.ws with
  | (c, wid, _) :: r =>
    if 8 < d.ws.length && keyTgt (128 * line) == 0 then
      (s.setDir line { d with ws := r }).deliverNotice { core := c, wid := wid, line := line, words := 0xFFFFFFFF, write := 0 }
    else s
  | [] => s

/-- A window registers as a sharer of the words that `n` bytes at a key touch (R268, R300). -/
def State.register (s : State) (core wid k n : Nat) : State :=
  (s.setDir (lineOf k) ((s.dirEntry (lineOf k)).share core wid (wordMask k n))).evictSharer (lineOf k)

/-- Fill the sector of an offset from key `k`, or with zero where the tile reads as zero, and register at the home. -/
def State.fill (s : State) (core blk : Nat) (w : Window) (off : Nat) (k : Option Nat) : State :=
  let sec := w.sector off
  let s1 := (List.range 8).foldl (fun (s : State) i => s.fillWord core blk (sec + 4 * i) (k.map (· + 4 * i))) s
  match k with
  | some k => s1.register core w.wid k 32
  | none => s1

/-- A store's marks on the words its bytes touch (R267). -/
def State.dirty (s : State) (core blk off n : Nat) : State :=
  (List.range ((off + n + 3) / 4 - off / 4)).foldl (fun (s : State) i =>
    let o := 4 * (off / 4 + i)
    let m := s.marksAt core blk o
    let be := (List.range 4).foldl (fun (b : BitVec 4) j => if off ≤ o + j ∧ o + j < off + n then b ||| (1#4 <<< j) else b) m.be
    s.setMarks core blk o { m with v := true, d := true, be, f := [] }) s

/-- Whether an access of a group to a window word waits for a notice: the group has made or read a write of which the window has not
learnt yet, so that the window's copy is older than R282 and R283 let it read (assumption 96). -/
def State.staleAt (s : State) (core slot blk n a : Nat) : Bool :=
  match s.spot core blk a n with
  | .ok { win := some w, off, .. } =>
    (s.notices.filter (fun q => q.core == core && q.wid == w.wid && q.seen.contains (core, slot))).any (fun q =>
      (List.range ((off + n + 3) / 4 - off / 4)).any (fun i =>
        let m := s.marksAt core blk (4 * (off / 4 + i))
        m.v && m.hitBy q.line q.words))
  | _ => false

/-! ## The check and the fills of a scratchpad access (R260, R267) -/

/-- What an access does to the bytes it reaches. -/
inductive LocalKind where
  | load | store | atomic
deriving DecidableEq, Repr

/-- The rule of R260 on an access inside a window: the sub-cause of its refusal. -/
def Window.refuses (w : Window) (k : LocalKind) : Option Nat :=
  match k with
  | .atomic => some 21
  | .store => if w.mode = 0 then some 20 else none
  | .load => if w.mode = 2 then some 20 else none

/-- One access of `n` bytes by a block of a core: an address and an outcome, where `at` is a fill that reads the global sector at that key
and `zero` needs no fill, or fills with zero. -/
def State.localReach (s : State) (core blk : Nat) (k : LocalKind) (n a : Nat) : Nat × Xlat :=
  if a % n ≠ 0 then (a, .bad 3 0)
  else match s.spot core blk a n with
    | .bad sub => (a, .bad 5 sub)
    | .ok p => match p.win with
      | none => (a, .zero)
      | some w => match w.refuses k with
        | some sub => (a, .bad 5 sub)
        | none =>
          if s.mustFill core blk w p.off then
            let va := w.vaAt (w.sector p.off)
            (va, s.reach core ((s.core core).block blk) .read 32 va)
          else (a, .zero)

/-- Fill for one lane, where its access meets a window whose sector is not whole. -/
def State.fillFor (s : State) (core blk n a : Nat) (k : Option Nat) : State :=
  match s.spot core blk a n with
  | .ok { win := some w, off, .. } => if s.mustFill core blk w off then s.fill core blk w off k else s
  | _ => s

/-- Fill for every lane. -/
def State.fillAll (s : State) (core blk n : Nat) (addr : Nat → Nat) (lanes : List (Nat × Option Nat)) : State :=
  lanes.foldl (fun s p => s.fillFor core blk n (addr p.1) p.2) s

/-- Read `n` bytes at a scratchpad address; 0 where the address fails a check, as a helper lane's may (R18). -/
def State.localRead (s : State) (core blk n a : Nat) : Nat :=
  match s.spot core blk a n with
  | .ok p => if a % n = 0 then s.spRead p.core p.blk p.off n else 0
  | .bad _ => 0

/-- Write `n` bytes at a scratchpad address, with the marks of a window. -/
def State.localWrite (s : State) (core blk n a v : Nat) : State :=
  match s.spot core blk a n with
  | .ok p =>
    let s1 := s.spWrite p.core p.blk p.off n v
    if p.win.isSome then s1.dirty p.core p.blk p.off n else s1
  | .bad _ => s

/-- base + SEXT(OFS, 32), with bits above 31 dropped (R259). -/
def Fe.saddr (e : Fe) (x : FmtM) (l : Nat) : Nat := (e.g.rd x.a l + x.ofs.signExtend 32).toNat
/-- The address of LDSV and STSV (R262). -/
def Fe.srun (e : Fe) (x : FmtM) (l : Nat) : Nat := (e.g.rd x.a l + x.ofs.signExtend 32 + BitVec.ofNat 32 (l * mmBytes x.mm)).toNat

/-- Whether scratchpad bytes of a core lie in a 32-byte sector that a pending engine operation will write (R346). -/
def Core.destHit (c : Core) (k n : Nat) : Bool :=
  c.dests.any (fun d => d.2.1 / 32 ≤ (k + n - 1) / 32 && k / 32 ≤ (d.2.1 + d.2.2 - 1) / 32)

/-- Whether an access touches a sector of a destination table. -/
def State.destWait (s : State) (core blk n a : Nat) : Bool :=
  match s.spot core blk a n with
  | .ok p => (s.core p.core).destHit (s.scratchKey p.core p.blk p.off) n
  | .bad _ => false

/-- Whether a scratchpad access reads a poisoned word (R304). -/
def State.localPoison (s : State) (core blk n a : Nat) : Bool :=
  match s.spot core blk a n with
  | .ok p => s.poisonAt (spKey p.core (s.scratchKey p.core p.blk p.off)) n
  | .bad _ => false

/-- The passes of an access: the most distinct 32-bit words that it touches in one of the 32 banks (R258). -/
def bankPasses (words : List Nat) : Nat :=
  (List.range 32).foldl (fun a i => max a ((words.eraseDups).filter (fun w => w % 32 == i)).length) 0

/-- The words of the array of a core that lanes touch, for the lanes that reach that core's own array. -/
def State.touched (s : State) (core blk n : Nat) (addr : Nat → Nat) (ls : List Nat) : List Nat :=
  ls.flatMap (fun l => match s.spot core blk (addr l) n with
    | .ok p =>
      let k := s.scratchKey p.core p.blk p.off
      if p.core = core then (List.range ((n + 3) / 4)).map (fun i => k / 4 + i) else []
    | .bad _ => [])

/-- A group reads scratchpad bytes that windows hold: it reads the global words they were filled from (R283, R288). -/
def State.observeLocal (s : State) (core slot blk n a : Nat) : State :=
  match s.spot core blk a n with
  | .ok { win := some w, off, .. } =>
    s.observeThrough core slot w.wid ((List.range ((off + n + 3) / 4 - off / 4)).filterMap (fun i =>
      let m := s.marksAt core blk (4 * (off / 4 + i))
      if m.v && m.src != 0 then some (m.src - 1, 4) else none))
  | _ => s

/-- A group's scratchpad access performs in some lanes: a load reads the global words that windows hold copies of, and passes beyond the first
are counted (R258, R283, R426). -/
def State.localTaken (s : State) (core slot blk : Nat) (k : LocalKind) (n : Nat) (addr : Nat → Nat) (ls : List Nat) : State :=
  let s1 := if k == .load then ls.foldl (fun (s : State) l => s.observeLocal core slot blk n (addr l)) s else s
  s1.setCore core ((s1.core core).count 9 (bankPasses (s1.touched core blk n addr ls) - 1))

/-- Check every lane of a mask, wait for the sectors that engines will write and for the notices that a read must not overtake, and fill,
then go on with the lanes that passed (R260, R267, R346). A fill is a plain load of the group, which reaches the home of its line (R297); a
word that it brings in carries its poison, which an access that reads it consumes (R304). -/
def Fe.localChecked (e : Fe) (m : Mask) (k : LocalKind) (n : Nat) (addr : Nat → Nat) (go : State → List Nat → Out) : Out :=
  e.checked m 32 false (fun l => e.s.localReach e.core e.g.blk k n (addr l)) (fun lanes =>
    let ls := lanes.map (·.1)
    if ls.any (fun l => e.s.destWait e.core e.g.blk n (addr l)) then e.waitIssue
    else if k == .load && ls.any (fun l => e.s.staleAt e.core e.slot e.g.blk n (addr l)) then e.waitIssue
    else
      let s1 := (e.s.fillAll e.core e.g.blk n addr lanes).loadLines e.core e.slot 0 (laneCells lanes 32)
      if k != .store && ls.any (fun l => s1.localPoison e.core e.g.blk n (addr l)) then .next (s1.blockFatal e.core e.g.blk 0x41 0 0)
      else go (s1.localTaken e.core e.slot e.g.blk k n addr ls) ls)

/-! ## Scratchpad forms (R261 to R263) -/

/-- A scratchpad load: a failing helper lane receives 0 (R18, R260). -/
def ldsEffect (x : FmtM) (addr : Nat → Nat) (e : Fe) : Out :=
  e.inOrder (mmOrd x.mm) (mmScp x.mm) (e.localChecked e.act .load (mmBytes x.mm) addr (fun s ls =>
    ({ e with s } : Fe).loaded x.d x.mm (fun l => if ls.contains l then s.localRead e.core e.g.blk (mmBytes x.mm) (addr l) else 0)))

/-- A scratchpad store. -/
def stsEffect (x : FmtM) (addr : Nat → Nat) (e : Fe) : Out :=
  e.inOrder (mmOrd x.mm) (mmScp x.mm) (e.localChecked e.v .store (mmBytes x.mm) addr (fun s _ =>
    .next (((lanesOf e.v).foldl (fun (s : State) l =>
      s.localWrite e.core e.g.blk (mmBytes x.mm) (addr l) (e.g.rdData x.d (szRegs x.mm) l)) s).setGroup e.core e.slot e.g.next)))

/-- LDS. -/
def execLds (x : FmtM) (s : State) : Out := frontEnd (.lds x) x.g s (fun e => ldsEffect x (e.saddr x) e)
/-- STS. -/
def execSts (x : FmtM) (s : State) : Out := frontEnd (.sts x) x.g s (fun e => stsEffect x (e.saddr x) e)
/-- LDSV. -/
def execLdsv (x : FmtM) (s : State) : Out := frontEnd (.ldsv x) x.g s (fun e => ldsEffect x (e.srun x) e)
/-- STSV. -/
def execStsv (x : FmtM) (s : State) : Out := frontEnd (.stsv x) x.g s (fun e => stsEffect x (e.srun x) e)

/-- Perform the lanes of a scratchpad atomic one by one in ascending order; the old values by lane (R233, R263). -/
def State.localAtomics (s : State) (core blk n : Nat) (op : AtOp) (signed : Bool) (addr b c : Nat → Nat) :
    List Nat → State × List (Nat × Nat)
  | [] => (s, [])
  | l :: r =>
    let old := s.localRead core blk n (addr l)
    let q := State.localAtomics (s.localWrite core blk n (addr l) (opNew op signed n old (b l) (c l))) core blk n op signed addr b c r
    (q.1, (l, old) :: q.2)

/-- An ATS* form. -/
def atsEffect (op : AtOp) (signed : Bool) (a d : Opnd) (m : BitVec 12) (b c : Nat → Nat) (e : Fe) : Out :=
  let addr := fun l => (e.g.rd a l).toNat
  e.inOrder (mmOrd m) (mmScp m) (e.localChecked e.v .atomic (mmBytes m) addr (fun s _ =>
    let q := s.localAtomics e.core e.g.blk (mmBytes m) op signed addr b c (lanesOf e.v)
    ({ e with s := q.1 } : Fe).loaded d m (oldOf q.2)))

/-- An ATS* form of format R with one operand. -/
def atsR (op : AtOp) (x : FmtR) (e : Fe) : Out :=
  atsEffect op (x.c.getLsbD 0) x.a x.d x.m (e.g.rdData x.b (szRegs x.m)) (fun _ => 0) e

/-- ATSADD. -/
def execAtsadd (x : FmtR) (s : State) : Out := frontEnd (.atsadd x) x.g s (atsR .add x)
/-- ATSMIN. -/
def execAtsmin (x : FmtR) (s : State) : Out := frontEnd (.atsmin x) x.g s (atsR .min x)
/-- ATSMAX. -/
def execAtsmax (x : FmtR) (s : State) : Out := frontEnd (.atsmax x) x.g s (atsR .max x)
/-- ATSCAS: always writes (R263). -/
def execAtscas (x : FmtR3) (s : State) : Out :=
  frontEnd (.atscas x) x.g s (fun e =>
    atsEffect .cas false x.a x.d x.m (e.g.rdData x.b (szRegs x.m)) (e.g.rdData x.c (szRegs x.m)) e)

/-! ## Lane private slices (R264) -/

/-- The key of a byte of a thread's lane private bytes: its home lane's slice, at LBASE + home group × `.lane`. -/
def laneKey (b : Block) (t off : Nat) : Nat := 2048 * (t % 32) + b.lbase + t / 32 * b.kd.lane + off

/-- The check of LDL and STL. -/
def Fe.laneReach (e : Fe) (n a : Nat) : Nat × Xlat :=
  if a % n ≠ 0 then (a, .bad 3 0) else if e.b.kd.lane < a + n then (a, .bad 5 19) else (a, .zero)

/-- LDL. -/
def execLdl (x : FmtM) (s : State) : Out :=
  frontEnd (.ldl x) x.g s (fun e =>
    let n := mmBytes x.mm
    let bad := fun l => match (e.laneReach n (e.saddr x l)).2 with
      | .zero => e.s.poisonAt (laneWordKey e.core (laneKey e.b (e.g.tid l) (e.saddr x l))) n
      | _ => false
    e.checked e.act n false (fun l => e.laneReach n (e.saddr x l)) (fun _ =>
      if (lanesOf e.act).any bad then .next (e.s.blockFatal e.core e.g.blk 0x41 0 0) else e.loaded x.d x.mm (fun l =>
        match (e.laneReach n (e.saddr x l)).2 with
        | .zero => readBytes e.c.laneMem (laneKey e.b (e.g.tid l) (e.saddr x l)) n
        | _ => 0)))

/-- STL. -/
def execStl (x : FmtM) (s : State) : Out :=
  frontEnd (.stl x) x.g s (fun e =>
    let n := mmBytes x.mm
    e.checked e.v n false (fun l => e.laneReach n (e.saddr x l)) (fun _ =>
      let c := e.c.setGroup e.slot e.g.next
      let s1 := (lanesOf e.v).foldl (fun (s : State) l => s.cleanse (laneWordKey e.core (laneKey e.b (e.g.tid l) (e.saddr x l))) n) e.s
      .next (s1.setCore e.core { c with
        laneMem := (lanesOf e.v).foldl (fun m l =>
          writeBytes m (laneKey e.b (e.g.tid l) (e.saddr x l)) n (e.g.rdData x.d (szRegs x.mm) l)) c.laneMem })))

/-! ## Window forms (R269 to R273) -/

/-- The number of a window handle. -/
def winIndex : Opnd → Nat
  | .hnd (.win n) => n.toNat
  | _ => 0

/-- The bound window of a block by name. -/
def Core.window (c : Core) (blk name : Nat) : Option Window := c.windows.find? (fun w => w.blk == blk && w.name == name)

/-- A permission fault of a form that acts once for the group. -/
def Fe.refused (e : Fe) (sub : Nat) (addr : Nat := 0) : Out := e.fault { cause := 5, sub, addr, lanes := 1#32 <<< lowest e.act }

/-- The 32 bytes of a shape record (R266). -/
def shapeOf (r : Nat) : Shape :=
  { va := BitVec.ofNat 64 (field r 0 8)
    e0 := field r 8 2
    e1 := field r 0xA 2
    e2 := field r 0xC 2
    lesz := field r 0xE 1
    s1 := (BitVec.ofNat 32 (field r 0x10 4)).toInt
    s2 := (BitVec.ofNat 32 (field r 0x14 4)).toInt }

/-- The limits of R266 on a shape record; reserved bytes are zero (R4). -/
def shapeOk (r : Nat) : Bool :=
  let h := shapeOf r
  h.va.toNat < 2 ^ 56 && h.va.toNat % 32 == 0 && 1 ≤ h.e0 && h.lesz ≤ 3 && h.e0 * 2 ^ h.lesz % 32 == 0 && 1 ≤ h.e1 && 1 ≤ h.e2 &&
  field r 0xF 1 == 0 && h.s1 % 32 == 0 && h.s2 % 32 == 0 && field r 0x18 8 == 0

/-- Bytes that a shape covers. -/
def Shape.size (h : Shape) : Nat := h.e0 * h.e1 * h.e2 * 2 ^ h.lesz

/-- Whether two byte ranges meet. -/
def meets (a n b m : Nat) : Bool := a < b + m && b < a + n

/-- WMAP (R270). -/
def execWmap (x : FmtR) (s : State) : Out :=
  frontEnd (.wmap x) x.g s (fun e =>
    if e.v = 0 then e.done e.g
    else
      let name := winIndex x.d
      let sb := (e.g.rd x.a (lowest e.act)).toNat
      let rec_ := (e.g.rd x.b (lowest e.act)).toNat
      let lim := e.b.scratchBytes
      let r := e.s.spRead e.core e.g.blk rec_ 32
      let h := shapeOf r
      let mine := e.c.windows.filter (fun w => w.blk == e.g.blk)
      if (e.c.window e.g.blk name).isSome || 16 ≤ e.c.windows.length || lim < rec_ + 32 || sb % 32 != 0 || !shapeOk r ||
          lim < sb + h.size || mine.any (fun w => meets sb h.size w.sb w.size || meets rec_ 32 w.sb w.size) || meets sb h.size rec_ 32
      then e.refused 22
      else if e.c.destHit (e.b.sbase + sb) h.size then e.waitIssue
      else if e.s.poisonAt (spKey e.core (e.b.sbase + rec_)) 32 then .next (e.s.blockFatal e.core e.g.blk 0x41 0 0)
      else
        let wid := ((List.range 16).find? (fun i => !e.c.windows.any (fun w => w.wid == i))).getD 0
        let w : Window := { blk := e.g.blk, name, mode := fldM x.m 0 2, sb, size := h.size, va := h.va, e0 := h.e0, e1 := h.e1, e2 := h.e2,
                            lesz := h.lesz, s1 := h.s1, s2 := h.s2, wid }
        let c := e.c.setGroup e.slot e.g.next
        .next (e.s.setCore e.core { c with
          windows := c.windows ++ [w]
          marks := clearRange c.marks ((e.b.sbase + sb) / 4) (h.size / 4) }))

/-- How the write-back of a window goes. -/
inductive Flush where
  | ok (s : State)
  | bad (cause sub addr : Nat)
  /-- a line is claimed by an engine operation, or a translation waits -/
  | wait
  | absent

/-- The dirty words of a window. -/
def State.dirtyWords (s : State) (core blk : Nat) (w : Window) : List Nat :=
  w.words.filter (fun o => (s.marksAt core blk o).d)

/-- The cells that write back a window word at a key: the whole word, or its dirty bytes. -/
def State.wordCells (s : State) (core blk o k : Nat) : List (Nat × Nat × Nat) :=
  let be := (s.marksAt core blk o).be
  if be = 0xF then [(k, 4, s.spRead core blk o 4)]
  else ((List.range 4).filter (fun i => be.getLsbD i)).map (fun i => (k + i, 1, s.spRead core blk (o + i) 1))

/-- A flush by `slot` writes back the dirty bytes of some words of a window (R271): every word is checked before any is written, and the
flush holds them until its writes have performed. -/
def State.flushWords (s : State) (core blk slot by_ : Nat) (w : Window) (words : List Nat) : Flush :=
  let b := (s.core core).block blk
  let ws := words.map (fun o => (o, s.reach core b .write 4 (w.vaAt o)))
  match ws.findSome? (fun p => match p.2 with | .bad c sub => some (p.1, c, sub) | _ => none) with
  | some (o, c, sub) => .bad c sub (w.vaAt o)
  | none =>
    if ws.any (fun p => p.2 == .absent) then .absent
    else if ws.any (fun p => match p.2 with | .at k => !(s.dirEntry (lineOf k)).eq.isEmpty | _ => true) then .wait
    else
      let cells := ws.flatMap (fun p => match p.2 with
        | .at k => s.wordCells core blk p.1 k
        | _ => [])
      let poison := ws.filterMap (fun p => match p.2 with
        | .at k => if s.poisonAt (spKey core (s.scratchKey core blk p.1)) 4 then some k else none
        | _ => none)
      let s0 := s.putCells cells
      let s1 := ({ s0 with poisoned := s0.poisoned ++ poison }).ordered core slot none (cells.map (fun (c : Nat × Nat × Nat) => (c.1, c.2.1))) (some (core, w.wid))
      .ok (ws.foldl (fun (s : State) p =>
        let m := s.marksAt core blk p.1
        s.setMarks core blk p.1 { m with f := by_ :: m.f.filter (· != by_) }) s1)

/-- Write back a window by a flush of a group, or of its leaving block, `by_` 64. -/
def State.flushWindow (s : State) (core blk slot by_ : Nat) (w : Window) : Flush :=
  s.flushWords core blk slot by_ w (s.dirtyWords core blk w)

/-- Every write of a flush has performed: D and BE fall on the words that were not written again meanwhile (R271). -/
def State.endFlush (s : State) (core blk by_ : Nat) (w : Window) : State :=
  w.words.foldl (fun (s : State) o =>
    let m := s.marksAt core blk o
    if m.f.contains by_ then s.setMarks core blk o { m with d := false, be := 0, f := [] } else s) s

/-- Flush a window named by a form as a release at a scope, then go on. The form writes the dirty bytes back when it first issues, and
while those writes are not performed the group stays at it. -/
def Fe.flushed (e : Fe) (x : FmtR) (go : State → Window → Out) : Out :=
  let scope := fldM x.m 4 3
  match e.c.window e.g.blk (winIndex x.d) with
  | none => if e.g.flushing then e.done { e.g with flushing := false } else e.refused 23
  | some w =>
    if e.g.flushing then
      if e.s.unperformed e.core e.b scope then e.waitIssue
      else go (e.s.endFlush e.core e.g.blk e.slot w) w
    else
      e.inOrder 2 scope (match e.s.flushWindow e.core e.g.blk e.slot e.slot w with
        | .bad c sub a => e.fault { cause := c, sub, addr := a, lanes := 1#32 <<< lowest e.act }
        | .wait => e.waitIssue
        | .absent => .fault .absentMemory
        | .ok s =>
          if s.unperformed e.core e.b scope then .next (s.setGroup e.core e.slot { e.g with flushing := true })
          else go (s.endFlush e.core e.g.blk e.slot w) w)

/-- The issuing group after its flush: it goes on to the next word. -/
def Fe.flushDone (e : Fe) : Group := { e.g.next with flushing := false }

/-- WFLUSH (R271). -/
def execWflush (x : FmtR) (s : State) : Out :=
  frontEnd (.wflush x) x.g s (fun e =>
    if e.v = 0 then e.done e.g else e.flushed x (fun s _ => .next (s.setGroup e.core e.slot e.flushDone)))

/-- Release a window's name and entry (R272). -/
def State.dropWindow (s : State) (core : Nat) (w : Window) : State :=
  let s1 := s.unregister core [w.wid]
  let c := s1.core core
  s1.setCore core { c with
    windows := c.windows.filter (fun v => !(v.blk == w.blk && v.name == w.name))
    marks := clearRange c.marks (s.markKey core w.blk w.sb) (w.size / 4) }

/-- WUNMAP (R272). -/
def execWunmap (x : FmtR) (s : State) : Out :=
  frontEnd (.wunmap x) x.g s (fun e =>
    if e.v = 0 then e.done e.g
    else e.flushed x (fun s w => .next ((s.dropWindow e.core w).setGroup e.core e.slot e.flushDone)))

/-- Clear the marks of every word of a window; it stays registered with empty masks (R273). -/
def State.invalidate (s : State) (core : Nat) (w : Window) : State :=
  let c := s.core core
  let s1 := s.setCore core { c with marks := clearRange c.marks (s.markKey core w.blk w.sb) (w.size / 4) }
  { s1 with dir := mapDir (fun d => { d with
      ws := updWhere (fun q => q.1 == core && q.2.1 == w.wid) (fun q => (q.1, q.2.1, 0)) d.ws }) s1.dir }

/-- WINV (R273). -/
def execWinv (x : FmtR) (s : State) : Out :=
  frontEnd (.winv x) x.g s (fun e =>
    if e.v = 0 then e.done e.g
    else match e.c.window e.g.blk (winIndex x.d) with
      | none => e.refused 23
      | some w => .next ((e.s.invalidate e.core w).setGroup e.core e.slot e.g.next))

end Sys2Proof.Machine
end

