-- ==== Sys2Proof/Machine/Coherence.lean ====
section
/-!
DEFINITION. What the memory system does on its own: replies, writes that perform, window notices, the homes' directory steps, page
walks, host translations, soft errors, retention, and accesses from outside (R211, R214, R219, R230, R232, R247, R284, R293 to
R304, R339, R447).
-/

namespace Sys2Proof.Machine

/-! ## Replies (R230, R284, R339) -/

/-- The first request of a core with a number. -/
def Core.request (c : Core) (n : Nat) : Option Request := c.requests.find? (fun r => r.id == n)
/-- Remove a request. -/
def Core.dropRequest (c : Core) (n : Nat) : Core := { c with requests := c.requests.filter (fun r => r.id != n) }

/-- An atomic request performs at the homes of its locations: its old values are fixed (R233, R284). -/
def State.serveAtomic (s : State) (core : Nat) (r : Request) : State :=
  match r.work with
  | .atomic op signed d m lanes none =>
    let q := s.atomics (atOpOf op) signed (mmBytes m) lanes
    let s1 := q.1.ordered core r.slot none (atCells (mmBytes m) lanes)
    let c := s1.core core
    s1.setCore core { c with
      requests := updWhere (fun (p : Request) => p.id == r.id) (fun p => { p with work := .atomic op signed d m lanes (some q.2) }) c.requests }
  | _ => s

/-- Whether a request waits at a home: an engine claims a line of device memory that a lane of it reaches (R299). -/
def State.requestHeld (s : State) (r : Request) : Bool := r.work.keys.any (fun k => !(s.dirEntry (lineOf k)).eq.isEmpty)

/-- HOME_ATOMIC: an atomic of host or peer memory performs, unless an engine claims a line of it. -/
def execHomeAtomic (core n : Nat) (s : State) : Out :=
  match (s.core core).request n with
  | some r => if s.requestHeld r then .next s else .next (s.serveAtomic core r)
  | none => .next s

/-- The issue that a reply completes: the group runs again, with the guard and ACT of its word. -/
def State.replyFe (s : State) (core : Nat) (r : Request) : Fe :=
  let c := (s.core core).dropRequest r.id
  let g := { (c.group r.slot) with st := .running }
  { s := s.setCore core c, core, slot := r.slot, c, g, b := c.block g.blk, x := r.x, act := r.act }

/-- Write the data of a reply, and push y (R230). -/
def Fe.reply (e : Fe) (w : ReqWork) : Out :=
  match w with
  | .load d m lanes fails =>
    let v := e.s.laneRead lanes (mmBytes m)
    let e := e.reads (mmCh m) (laneCells lanes (mmBytes m))
    match d with
    | .k _ => e.loadedK d m (v (lowest e.act))
    | _ => ({ e with g := if fails = 0 then e.g else e.g.ldnfStatus e.x fails } : Fe).loaded d m v
  | .call lnk lanes => (e.reads 0 (laneCells lanes 8)).indirect (some lnk) (fun l => BitVec.ofNat 64 (e.s.laneRead lanes 8 l))
  | .atomic _ _ d m _ olds => e.loaded d m (oldOf (olds.getD []))

/-- The bytes that a request reads when its reply comes, and whether it acquires, at which scope. -/
def ReqWork.reading : ReqWork → List (Nat × Nat) × Nat × Nat
  | .load _ m lanes _ => (laneCells lanes (mmBytes m), mmOrd m, mmScp m)
  | .call _ lanes => (laneCells lanes 8, 1, 3)
  | .atomic .. => ([], 0, 0)

/-- Whether the reply of a request is still to come: a line of it is claimed, an atomic has not performed, or it acquires and a window has
not learnt of a write that it would read. -/
def State.replyWaits (s : State) (core : Nat) (r : Request) : Bool :=
  match r.work with
  | .atomic _ _ _ _ _ olds => olds.isNone
  | w => s.requestHeld r ||
    w.reading.2.1 % 2 == 1 && s.notices.any (fun n => n.owed core w.reading.2.2 && n.about w.reading.1)

/-- Count a reply that the core drops because its generation is not the core's (R339). -/
def State.countStale (s : State) (core : Nat) : State :=
  match s.partOfDie (dieOf core) with
  | some p => s.setPart p { (s.part p) with stalegen := bump (s.part p).stalegen }
  | none => s

/-- LOAD_RETURN: a reply arrives. One whose generation is not the core's is dropped and counted; one whose group has left is dropped
(R339). -/
def execLoadReturn (core n : Nat) (s : State) : Out :=
  let c := s.core core
  match c.request n with
  | none => .next s
  | some r =>
    if s.replyWaits core r then .next s
    else
      let gone := s.setCore core (c.dropRequest n)
      if r.gen ≠ c.gen then .next (gone.countStale core)
      else if (c.group r.slot).st ≠ .waiting .reply then .next gone
      else (s.replyFe core r).reply r.work

/-! ## Writes and notices (R268, R276, R298, R300) -/

/-- WRITE_PERFORM: a write whose notices have all been acknowledged performs; one to host or peer memory, when its target has
acknowledged it. The core drops an acknowledgement of another generation, and counts it (R339). -/
def execWritePerform (n : Nat) (s : State) : Out :=
  if s.notices.any (fun q => q.write == n) then .next s
  else
    let s1 : State := { s with writes := s.writes.filter (fun w => w.id != n) }
    match s.writes.find? (fun w => w.id == n) with
    | some w => .next (if w.gen = (s.core w.core).gen then s1 else s1.countStale w.core)
    | none => .next s1

/-- WINDOW_NOTICE: a window applies a notice and acknowledges it. -/
def execWindowNotice (n : Nat) (s : State) : Out :=
  match s.notices[n]? with
  | some q => .next { (s.deliverNotice q) with notices := s.notices.eraseIdx n }
  | none => .next s

/-! ## The homes (R293 to R297, R302) -/

/-- A request by a kit for a line of device memory that no engine claims; a kit without slices caches none (R294, R299). One that asks for the
line is a miss in its slice where the kit does not hold it (R426). -/
def State.kitStep (s : State) (asks : Bool) (kit line : Nat) (f : DirEntry → DirEntry) : Out :=
  let d := s.dirEntry line
  if 64 ≤ kit || !s.holds (128 * line) 128 || !d.eq.isEmpty || (s.slices kit).isEmpty then .next s
  else
    let s1 := if asks then s.countMisses kit [line] else s
    .next ((s1.setDir line (f d)).woken (kit :: d.kits))

/-- The home evicts the directory entry of a line: every kit's copy is recalled, with write-back, and every window that shares the line
learns that the whole line was written (R296, R301). -/
def State.evictEntry (s : State) (line : Nat) : State :=
  let d := s.dirEntry line
  let s1 := d.ws.foldl (fun (s : State) q => s.deliverNotice { core := q.1, wid := q.2.1, line, words := 0xFFFFFFFF, write := 0 })
    (s.woken d.kits)
  s1.setDir line {}

/-- COHERENCE_READ. -/
def execCoherenceRead (kit line : Nat) (s : State) : Out := s.kitStep true kit line (fun d => d.read kit)
/-- COHERENCE_READ_FOR_WRITE. -/
def execCoherenceReadForWrite (kit line : Nat) (s : State) : Out := s.kitStep true kit line (fun d => d.write kit)
/-- COHERENCE_EVICT: a kit evicts a line; no kit, 64 or above, stands for the home, which evicts the line's directory entry. One of a claimed
line stays (R299). -/
def execCoherenceEvict (kit line : Nat) (s : State) : Out :=
  if kit < 64 then s.kitStep false kit line (fun d => d.evict kit)
  else if !s.holds (128 * line) 128 || !(s.dirEntry line).eq.isEmpty then .next s
  else .next (s.evictEntry line)

/-- Poison the words of a line (R302, R304). -/
def State.poisonLine (s : State) (line : Nat) : State :=
  { s with poisoned := (s.poisoned ++ (List.range 32).map (fun i => 128 * line + 4 * i)).eraseDups }

/-- The core by which a record names an agent of a home: the first of a kit, or the core of a window. -/
def agentCore (agent : Nat) : Nat := if agent < 64 then 16 * agent else agent - 64

/-- HOME_ANSWER_TIMEOUT: an agent does not answer its home in time. The line is poisoned, a device-level error names it, and the
request is completed (R302). Agents 0 to 63 are kits that hold a copy; 64 plus a core stands for a window that owes an answer. R302 has the
error name the line and the agent, and R338 gives no field for the agent: DIE, CORE and FAULTID name it here. MODEL'S CHOICE
(assumption 97). -/
def execHomeAnswerTimeout (line agent : Nat) (s : State) : Out :=
  let d := s.dirEntry line
  let owes := if agent < 64 then d.kits.contains agent else s.notices.any (fun n => n.line == line && n.core + 64 == agent)
  if !owes then .next s
  else
    let s1 := (s.poisonLine line).deviceFault (s.homeOf line).1 (agentCore agent) 0x41 0 (keyPa (128 * line))
    if agent < 64 then .next (s1.setDir line ((s1.dirEntry line).evict agent))
    else .next { s1 with notices := s1.notices.filter (fun n => !(n.line == line && n.core + 64 == agent)) }

/-- KIT_ENTERS_RETENTION: only a kit with no resident block does; its slices keep their data (R302). -/
def execKitEntersRetention (kit : Nat) (s : State) : Out :=
  if 64 ≤ kit ∨ s.retention.contains kit ∨ (List.range 16).any (fun i => !(s.core (16 * kit + i)).blocks.isEmpty) then .next s
  else .next { s with retention := s.retention ++ [kit] }

/-! ## Soft errors (R303, R304) -/

/-- PATROL_SCRUB: a scrubbed word is read and written back corrected, which changes no value (R303). -/
def execPatrolScrub (_addr : Nat) (s : State) : Out := .next s

/-- A block-fatal error of a resident block. -/
def State.fatalIn (s : State) (core blk cause sub addr : Nat) : Out :=
  if (s.core core).hasBlock blk then .next (s.blockFatal core blk cause sub addr) else .next s

/-- Poison a word (R304). -/
def State.poisonWord (s : State) (k : Nat) : State := { s with poisoned := (s.poisoned ++ [k]).eraseDups }

/-- ECC_ERROR: what an error comes to, by the array it is found in (R303). -/
def execEccError (what : EccSite) (s : State) : Out :=
  match what with
  | .register core blk => s.fatalIn core blk 0x40 0 0
  | .matrix core blk => s.fatalIn core blk 0x40 1 0
  | .element core blk => s.fatalIn core blk 0x40 2 0
  | .dirtyLine k => .next (if s.holds k 1 then s.poisonLine (lineOf k) else s)
  | .hbmWord k => .next (if s.holds k 1 then s.poisonWord (k / 8 * 8) |>.poisonWord (k / 8 * 8 + 4) else s)
  | .l1Word k => .next (if s.holds k 1 then s.poisonWord (k / 4 * 4) else s)
  | .scratchWord core k =>
    .next (if k < Config.localArrayBytes then s.poisonWord (spKey core (k / 4 * 4)) else s)
  | .laneWord core k =>
    .next (if k < 65536 then s.poisonWord (laneWordKey core (k / 4 * 4)) else s)
  | .cleanLine _ => .next s
  | .tlbEntry n => .next { s with tlb := s.tlb.eraseIdx n }
  | .correctable => .next { s with corrected := s.corrected + 1 }
  | .directory k =>
    let q := s.homeOf (lineOf k)
    .next (s.deviceFault q.1 (s.anyCore q.2) 0x41 0 (keyPa k))
  | .consumed core blk k => if s.poisonAt k 4 then s.fatalIn core blk 0x41 0 (keyPa k) else .next s

/-! ## Walks and host translations (R214, R219, R232, R447) -/

/-- Bytes that the end of a walk covers: a CONTIG leaf stands for its whole run of 32 (R217). -/
def WalkEnd.covers (w : WalkEnd) : Nat :=
  match w.level with
  | 1 => 2 ^ 42
  | 2 => 2 ^ 29
  | _ => if pteContig w.entry then 2 ^ 21 else 65536

/-- Whether a TLB may hold the end of a walk: COMMITTED, or RESERVED with ZEROREAD (R219). -/
def WalkEnd.cached (w : WalkEnd) : Bool :=
  (w.kind == .leaf || w.kind == .reservedPtr) && (pteSt w.entry == 2 || (pteSt w.entry == 1 && pteZero w.entry))

/-- Entries of a TLB of a level (R219). -/
def tlbSize : Nat → Nat
  | 0 => 64
  | 1 => 2048
  | _ => 32768

/-- Enter a translation in one TLB: the oldest leaves when it is full. -/
def tlbEnter (l : List TlbEntry) (t : TlbEntry) : List TlbEntry :=
  let same := fun (q : TlbEntry) => q.level == t.level && q.owner == t.owner
  if l.any (fun q => same q && q.asid == t.asid && q.va == t.va && q.bytes == t.bytes && q.ptr == t.ptr) then l
  else if (l.filter same).length < tlbSize t.level then l ++ [t]
  else match l.find? same with
    | some q => l.erase q ++ [t]
    | none => l ++ [t]

/-- A TLB entry for the end of a walk of an address. -/
def WalkEnd.tlb (w : WalkEnd) (asid va level owner ptr : Nat) : TlbEntry :=
  { level, owner, asid, va := va / w.covers * w.covers, bytes := w.covers, entry := BitVec.ofNat 64 w.entry, ptr }

/-- The COMMITTED pointer entries that a walk of an address reads, level 1 first, as the die TLB of a core holds them (R219). -/
def State.pointersRead (s : State) (part core asid va : Nat) : List TlbEntry :=
  let keep := fun (w : WalkEnd) => if w.pointer then [w.tlb asid va 2 (dieOf core) w.level] else []
  if (s.tlbFind core asid va (fun t => t.ptr == 2)).isSome then []
  else match s.tlbFind core asid va (fun t => t.ptr == 1) with
    | some t => keep (walkLevel s part 2 (ptePa t.entry.toNat) va)
    | none =>
      let w := walkLevel s part 1 (s.rootOf part asid va) va
      keep w ++ (if w.pointer then keep (walkLevel s part 2 (ptePa w.entry) va) else [])

/-- WALK_COMPLETE: a walk of an address ends. What it read fills the TLBs of its core, kit and die, where they hold such an entry; a request
that asked for it leaves the die's list. One behind 256 others has not begun, and one at a claimed entry waits (R219, R220, R299). -/
def execWalkComplete (core asid : Nat) (va : Dword) (s : State) : Out :=
  let d := dieOf core
  let l := SMap.get [] s.walks d
  let req := (core, asid, va.toNat / 65536 * 65536)
  match s.partOfDie d with
  | none => .next s
  | some p =>
    if 2 ^ 56 ≤ va.toNat || (l.contains req && !(l.take 256).contains req) then .next s
    else
      let w := s.walkFor p core asid va.toNat
      if w.kind = .held then .next s
      else
        let leaf := if w.cached then [(0, core), (1, core / 16), (2, d)].map (fun q => w.tlb asid va.toNat q.1 q.2 0) else []
        .next { s with
          tlb := (s.pointersRead p core asid va.toNat ++ leaf).foldl tlbEnter s.tlb
          walks := SMap.set [] s.walks d (l.erase req) }

/-- The pages of the addresses that a group waits on, served by the host for its core. -/
def servedPages (core asid : Nat) (lanes : List (Nat × Nat)) : List TlbEntry :=
  (lanes.map (fun p => p.2 / 65536)).eraseDups.map (fun pg =>
    { level := 3, owner := core, asid, va := 65536 * pg, bytes := 65536, entry := 0 })

/-- TRANSLATION_RESPONSE: the host has served the pages that a group waits on, or has refused them. A fetch goes on, or faults translation
not-present and names no lane. An access goes on from its checks, where a refused page is translation not-present: helper lanes raise
nothing, and the lowest lane that fails and every lane that does are named, whatever their causes (R18, R232, R430, R431). -/
def execTranslationResponse (core slot : Nat) (ok : Bool) (s : State) : Out :=
  let c := s.core core
  let g := c.group slot
  match g.st with
  | .waiting (.translation lanes) =>
    let fetch := lanes.any (fun q => q.1 == 32)
    let s1 := if ok then { s with tlb := s.tlb ++ servedPages core (c.block g.blk).asid lanes } else s
    let g1 := { g with st := .running }
    let pages := if ok then g.refused else g.refused ++ lanes.map (fun q => q.2 / 65536)
    if !fetch then .next (s1.setGroup core slot { g1 with answer := some pages })
    else if ok then .next (s1.setGroup core slot g1)
    else .next ((s1.setGroup core slot g1).raise core slot { cause := 4, addr := (lanes.headD (0, 0)).2, lanes := 0 })
  | _ => .next s

/-! ## Accesses from outside (R211, R247, R293) -/

/-- An atomic of 64 bits of an agent outside. -/
def State.outsideAtomic (s : State) (k : Nat) (f : Nat → Nat) : Out :=
  if k % 8 != 0 || !s.holds k 8 || s.claimed k 8 then .next s
  else .next (s.outsideWrite k (bytesOf 8 (f (s.rd k 8))))

/-- PEER_OR_HOST_ACCESS: an access of the host or a peer performs at its L2 home. It waits there while an engine claims a line of it. -/
def execPeerOrHostAccess (acc : OutsideAccess) (s : State) : Out :=
  match acc with
  | .read _ _ => .next s
  | .write k l => if !s.holds k l.length || s.claimed k l.length then .next s else .next (s.outsideWrite k l)
  | .atomicAdd k v => s.outsideAtomic k (fun old => (old + v.toNat) % 2 ^ 64)
  | .atomicSwap k v => s.outsideAtomic k (fun _ => v.toNat)
  | .atomicCas k c v => s.outsideAtomic k (fun old => if old = c.toNat then v.toNat else old)

end Sys2Proof.Machine
end

