-- ==== Sys2Proof/Machine/Issue.lean ====
section
/-!
DEFINITION. The issue of one front-end word: the choice of the group (R27 to R29), the fetch at its PC (R50, R79, R213, R438), the
breakpoint at it (R443), and the words that decode to no instruction (R60).
-/

namespace Sys2Proof.Machine

/-! ## Choice of the group (R27, R28) -/

/-- Whether a group may issue: RUNNING, with no halt asked for, in a block that no pre-emption has reached (R27, R440, R443). A word that has
issued and whose host translation has been answered goes on whatever has been asked for since. -/
def Core.eligible (c : Core) (i : Nat) : Bool :=
  let g := c.group i
  g.st == .running && (g.answer.isSome || !g.haltReq && (c.block g.blk).preempt.isNone)

/-- The eligible slots of a core, where `ready` says whether the next word of a group is there and its pipe can accept it (R27). -/
def Core.eligibles (c : Core) (ready : Nat → Bool) : List Nat := (c.groups.map (·.1)).filter (fun i => c.eligible i && ready i)

/-- Whether one group is older than another: by the start of its block, then by slot. -/
def Core.older (c : Core) (i j : Nat) : Bool :=
  let a := (c.group i).age
  let b := (c.group j).age
  a < b || (a == b && i < j)

/-- The oldest of some slots. -/
def Core.oldest (c : Core) : List Nat → Option Nat
  | [] => none
  | i :: r => match c.oldest r with
    | none => some i
    | some j => if c.older i j then some i else some j

/-- Greedy-then-oldest, with promotion at a skip count of 64 (R28). -/
def Core.pick (c : Core) (ready : Nat → Bool) : Option Nat :=
  let l := c.eligibles ready
  match c.oldest (l.filter (fun i => 64 ≤ (c.group i).skip)) with
  | some i => some i
  | none => match c.lastIssued with
    | some i => if l.contains i then some i else c.oldest l
    | none => c.oldest l

/-- The skip counts after one cycle in which a group issues, or none does. -/
def Core.skips (c : Core) (ready : Nat → Bool) (pick : Option Nat) : SMap Group :=
  (c.groups.map (fun (p : Nat × Group) => (p.1, { p.2 with
    skip := if !(c.eligible p.1 && ready p.1) || pick == some p.1 then 0 else if pick.isSome then p.2.skip + 1 else p.2.skip }))).filter
      (fun p => p.2 != {})

/-- One cycle of a core: the cycle counter, the skip counts, the last issue and the events of R426. -/
def Core.cycle (c : Core) (ready : Nat → Bool) (pick : Option Nat) : Core :=
  let waits := (c.groups.filter (fun p => match p.2.st with
    | .waiting (.bar _) | .waiting (.gbar _) => true
    | _ => false)).length
  let c := ((c.count 1 1).count (if pick.isSome then 2 else 3) 1).count 0x0E waits
  let c := (c.count 0x0C (if c.throttled then 1 else 0)).count 0x0B (if c.mmaHeld then 1 else 0)
  { c with
    cycles := c.cycles + 1
    groups := c.skips ready pick
    lastIssued := pick.or c.lastIssued }

/-! ## Fetch -/

/-- What a fetch gives. -/
inductive Fetched where
  | word (w : Dword)
  | fault (f : GFault)
  /-- the host's answer is outstanding (R232) -/
  | wait
  /-- the line is claimed by an engine operation (R299), the walk waits (R220), or the page is still to be brought in and checked (R387) -/
  | held
  /-- the word is poisoned (R304) -/
  | poison (k : Nat)
  | absent
deriving DecidableEq, Repr

/-- Fetch the word at an address with execute permission (R50, R79, R213, R216); a word of a quarantined object faults
CODE_INTEGRITY, and DETAIL names the page that failed (R438). A page that has not been brought in is checked first (R387). -/
def State.fetch (s : State) (core : Nat) (b : Block) (pc : Nat) : Fetched :=
  match s.translate b.part core b.asid pc .fetch with
  | .bad c sub => .fault { cause := c, sub, addr := pc }
  | .wait => .wait
  | .held => .held
  | .zero | .absent => .absent
  | .at k =>
    match (s.part b.part).objectAt b.asid pc with
    | some (_, { st := 3, badPage := n, .. }) => .fault { cause := 9, addr := pc, detail := n - 1 }
    | o =>
      if o.any (fun q => !q.2.present.contains ((pc - q.2.base.toNat - q.2.codeofs) / 65536)) then .held
      else if keyTgt k == 1 && s.reach core b .fetch 8 pc == .wait then .wait
      else if !(s.dirEntry (lineOf k)).eq.isEmpty then .held
      else if s.poisonAt k 8 then .poison k
      else .word (BitVec.ofNat 64 (s.rd k 8))

/-- Whether a read of the word at an address waits at its home or for its walk (R220, R299). -/
def State.fetchHeld (s : State) (core : Nat) (b : Block) (pc : Nat) : Bool :=
  match s.translate b.part core b.asid pc .fetch with
  | .at k => !(s.dirEntry (lineOf k)).eq.isEmpty
  | .wait | .held => true
  | _ => false

/-- Whether the group's PC meets an enabled breakpoint of an attached debugger that it has not been resumed past (R443). -/
def State.bpMatch (s : State) (core slot : Nat) : Bool :=
  let g := (s.core core).group slot
  s.breakIn ((s.core core).block g.blk).part g.pc.toNat g.pc.toNat && !g.bpPast && g.answer.isNone

/-- What one turn of a front end comes to. -/
inductive Issue where
  /-- no word issues -/
  | idle (s : State)
  /-- a word issues as an instruction -/
  | run (i : Instr) (s : State)
  /-- a word that is no instruction issues -/
  | bad (w : Dword) (s : State)
  /-- the fetch reaches an address that no HBM stack holds -/
  | absent
deriving Repr

/-- The group that is about to issue a word: a step halts again after it, and a breakpoint is armed again behind it (R443). A word that goes on
after an answer of the host knows the pages that it has refused, and a halt asked for since stands behind the word. -/
def Group.issuing (g : Group) : Group :=
  { g with
    haltReq := g.stepReq || (g.answer.isSome && g.haltReq)
    stepReq := false
    bpPast := false
    answer := none
    refused := g.answer.getD []
    ibuf := g.ibuf.dropWhile (fun q => q.1 != g.pc.toNat) }

/-- What a group finds at its PC: a word in its instruction buffer needs no fetch (R438). -/
def State.fetchFor (s : State) (core i : Nat) : Fetched :=
  let g := (s.core core).group i
  match g.ibuf.find? (fun q => q.1 == g.pc.toNat) with
  | some q => .word q.2
  | none => s.fetch core ((s.core core).block g.blk) g.pc.toNat

/-- A group that has joined becomes RUNNING once the word at its new PC is fetched (R84). -/
def State.fetchJoins (s : State) (core : Nat) : State :=
  ((s.core core).groups.map (·.1)).foldl (fun (s : State) i =>
    if (s.group core i).st = .waiting .join ∧ s.fetchFor core i ≠ .held ∧ s.fetchFor core i ≠ .wait then
      s.setGroup core i { (s.group core i) with st := .running }
    else s) s

/-- The state in which the word of a group issues. -/
def State.issuingAs (s : State) (core i : Nat) : State :=
  { (s.setGroup core i (s.group core i).issuing) with
    curCore := core
    curSlot := i
    stalled := false }

/-- One turn of the front end of a core, where `ready` says whether the next word of a group is there and its pipe can accept it. -/
def State.issue (s : State) (core : Nat) (ready : Nat → Bool) : Issue :=
  let c := s.core core
  let quiet := s.setCore core (c.cycle ready none)
  match c.pick ready with
  | none => .idle quiet
  | some i =>
    let g := c.group i
    match s.fetchFor core i with
    | .fault f => .idle (quiet.raise core i f)
    | .wait => .idle (quiet.setGroup core i { (quiet.group core i) with st := .waiting (.translation [(32, g.pc.toNat)]) })
    | .held => .idle quiet
    | .poison k => .idle (quiet.blockFatal core g.blk 0x41 0 (keyPa k))
    | .absent => .absent
    | .word w =>
      if s.bpMatch core i then .idle (quiet.setGroup core i { (quiet.group core i) with haltReq := true })
      else
        let s2 := (s.setCore core (c.cycle ready (some i))).issuingAs core i
        match decodeWord w with
        | .ok x => .run x s2
        | .error _ => .bad w s2

/-- A word that is no instruction: the zero word, an unassigned OP, or fields that check 1 of R60 refuses. The group that issues it
faults ILLEGAL_OPCODE (R60). -/
def execUnassignedOp (w : Dword) (s : State) : Host.Outcome State Fault Refusal :=
  let e := s.fe ⟨false, 7⟩
  match decodeWord w, s.fetchFor e.core e.slot with
  | .error _, .word w' => if w' = w ∧ e.g.st = .running then e.fault { cause := 1 } else .next s
  | _, _ => .next s

end Sys2Proof.Machine
end

