-- ==== Sys2Proof/Machine/Carillon.lean ====
section
/-!
DEFINITION. Carillon elements: tokens and channels (R184, R360 to R362), core-level faults of placed images (R435), readiness and
firing (R186 to R193), and the 56 element forms (R195 to R209).
-/

namespace Sys2Proof.Machine

/-! ## Token headers (R360) -/

/-- LMASK. -/
def hdrMask (h : Word) : Byte := h.setWidth 8
/-- END. -/
def hdrEnd (h : Word) (d : Nat) : Bool := h.getLsbD (8 + d)
/-- ITER. -/
def hdrIter (h : Word) : Nat := (h.extractLsb' 12 6).toNat
/-- OCT. -/
def hdrOct (h : Word) : Nat := (h.extractLsb' 23 2).toNat
/-- TYPE: true for a scale. -/
def hdrScale (h : Word) : Bool := h.getLsbD 25
/-- A header with TYPE replaced. -/
def hdrTyped (h : Word) (scale : Bool) : Word := (h &&& 0x01FFFFFF) ||| (if scale then 0x02000000 else 0)
/-- A header with LMASK replaced. -/
def hdrMasked (h : Word) (m : Byte) : Word := (h &&& 0xFFFFFF00) ||| m.setWidth 32
/-- A header from its fields. -/
def hdrOf (scale : Bool) (oct grp iter ends : Nat) (mask : Byte) : Word :=
  BitVec.ofNat 32 ((if scale then 2 ^ 25 else 0) + oct % 4 * 2 ^ 23 + grp % 32 * 2 ^ 18 + iter % 64 * 2 ^ 12 + ends % 16 * 256 + mask.toNat)
/-- Lane `l` of a payload. -/
def Token.lane (t : Token) (l : Nat) : Word := t.pay.getD l 0
/-- A token of eight lanes. -/
def tokenOf (h : Word) (f : Nat → Word) : Token := { hdr := h, pay := (List.range 8).map f }

/-! ## Channels, routes and hops (R184, R361, R362) -/

/-- The element with an index, 8 × Y + X. -/
def Core.elem (c : Core) (e : Nat) : Element := SMap.get {} c.elems e
/-- Replace an element. -/
def Core.setElem (c : Core) (e : Nat) (x : Element) : Core := { c with elems := SMap.set {} c.elems e x }
/-- A placed image. -/
def Core.placedAt (c : Core) (pi : Nat) : Placed := SMap.get {} c.placed pi
/-- Replace a placed image. -/
def Core.setPlaced (c : Core) (pi : Nat) (p : Placed) : Core := { c with placed := SMap.set {} c.placed pi p }
/-- An input channel of an element. -/
def Element.chan (e : Element) (n : Nat) : Channel := SMap.get {} e.chans n
/-- Replace an input channel. -/
def Element.setChan (e : Element) (n : Nat) (q : Channel) : Element := { e with chans := SMap.set {} e.chans n q }
/-- A trigger context. -/
def Element.ctx (e : Element) (k : Nat) : Ctx := SMap.get {} e.ctxs k
/-- The declared depth of a channel (R362). -/
def Channel.limit (q : Channel) : Nat := if q.depth = 0 then 4 else q.depth
/-- A token enters a channel; one that becomes head sets the sticky count (R184). -/
def Channel.put (q : Channel) (t : Token) : Channel := { q with q := q.q ++ [t], sct := if q.q.isEmpty then q.srl else q.sct, timer := 0 }
/-- Whether a dequeue removes the head (R184). -/
def Channel.removes (q : Channel) : Bool := q.srl == 0 || (q.srl != 255 && q.sct == 0)
/-- A dequeue (R184). -/
def Channel.deq (q : Channel) : Channel :=
  match q.q with
  | [] => q
  | _ :: r =>
    if q.removes then { q with q := r, sct := if r.isEmpty then q.sct else q.srl, timer := 0 }
    else if q.srl = 255 then { q with timer := 0 }
    else { q with sct := q.sct - 1, timer := 0 }

/-- Where a route of a placed image leads on the core (R391, R394). -/
def Placed.dest (p : Placed) (pi : Nat) (w : Half) : Option Dest :=
  match routeTo w.toNat with
  | .chan x y n => some (.chan (8 * (p.y0 + y) + p.x0 + x) n)
  | .port node n => some (.port pi node n)
  | _ => none

/-- The tokens at an input port of a node. -/
def Node.port (d : Node) (n : Nat) : List Token :=
  match n with
  | 0 => d.in0
  | 1 => d.in1
  | _ => d.in2
/-- Replace the tokens of an input port. -/
def Node.setPort (d : Node) (n : Nat) (l : List Token) : Node :=
  match n with
  | 0 => { d with in0 := l }
  | 1 => { d with in1 := l }
  | _ => { d with in2 := l }
/-- A node of a placed image. -/
def Placed.node (p : Placed) (n : Nat) : Node := SMap.get {} p.nodes n
/-- Replace a node. -/
def Placed.setNode (p : Placed) (n : Nat) (d : Node) : Placed := { p with nodes := SMap.set {} p.nodes n d }

/-- Tokens on hops to a destination. -/
def Core.flying (c : Core) (d : Dest) : Nat := (c.hops.filter (fun h => h.1 == d)).length
/-- The tokens that a destination holds. -/
def Core.held (c : Core) : Dest → Nat
  | .chan e n => ((c.elem e).chan n).q.length
  | .port pi node n => (((c.placedAt pi).node node).port n).length
/-- The tokens that a destination has room for: a channel its declared depth (R362), an input port of a node two. A node record has no field
for a depth, and R474's table declares depth 2 for every port that it routes to. DEDUCED (assumption 35). -/
def Core.depthOf (c : Core) : Dest → Nat
  | .chan e n => ((c.elem e).chan n).limit
  | .port _ _ _ => 2
/-- Whether a destination has space for `n` tokens at once: its free entries exceed the tokens in flight to it (R186, R362). -/
def Core.spaceFor (c : Core) (d : Dest) (n : Nat) : Bool := decide (c.held d + c.flying d + n ≤ c.depthOf d)
/-- Whether a destination has space for a token. -/
def Core.space (c : Core) (d : Dest) : Bool := c.spaceFor d 1
/-- Send a token on its way. -/
def Core.send (c : Core) (d : Option Dest) (t : Token) : Core :=
  match d with
  | some d => { c with hops := c.hops ++ [(d, t)] }
  | none => c

/-! ## Core-level faults of placed images (R338, R403, R435) -/

/-- DETAIL of a fault in the carillon; 0xFF for what the fault does not name (R338). -/
def detailOf (x y ctx slot chan rgn : Nat) : Nat :=
  x % 256 + y % 256 * 2 ^ 8 + ctx % 256 * 2 ^ 16 + slot % 256 * 2 ^ 24 + chan % 256 * 2 ^ 32 + rgn % 256 * 2 ^ 40

/-- The region number that DETAIL names: 0xFF for a copy. -/
def Placed.rgnByte (p : Placed) : Nat := if p.copy.isSome then 0xFF else p.rgn

/-- Whether the group of a copy has left it, and only the write-back of its live-outs remains. -/
def Copy.left (q : Copy) : Bool := q.leaving.isSome

/-- Name a damp boundary: the smallest wins, counted from the oldest uncommitted iteration (R45). Once the last lane has exited in an
iteration that committed, every boundary lies after it and is dropped (R48). -/
def Copy.dampTo (q : Copy) (b : Word) (why : DampWhy) : Copy :=
  if q.left || q.exitIter.isSome then q
  else { q with
    damp := match q.damp with
      | some d => some (if (b - q.oldest).toNat < (d.1 - q.oldest).toNat then (b, why) else d)
      | none => some (b, why) }

/-- The first iteration not yet admitted. -/
def Copy.nextIter (q : Copy) : Word := q.oldest + BitVec.ofNat 32 q.inflight

/-- The placement key of a copy. -/
def Copy.key (q : Copy) : PlaceKey := ⟨q.cacheKey.1, q.cacheKey.2.1, q.cacheKey.2.2.1, q.cacheKey.2.2.2⟩

/-- What a group that waits for a region does where the region stops with a status, DONE 0, FAULTED 1 or FREE 2: an FXWAIT ends with the
status, and an FXPARAM that waits for space in a region that is DONE waits on (R402, R403, R411). -/
def Group.fxStops (g : Group) (rgn status : Nat) : Group :=
  if g.st = .waiting (.fxwait rgn) then { g with
    st := .running
    fxEnd := some status }
  else if status ≠ 0 ∧ g.fxOct ≠ 0 ∧ g.fxRgn = rgn then { g with fxEnd := some status }
  else g

/-- A region of a block stops: the waits of the block's groups for it end. -/
def Core.wakeFx (c : Core) (blk rgn status : Nat) : Core :=
  (c.block blk).slots.foldl (fun c i =>
    if ((c.group i).fxStops rgn status) = c.group i then c else c.setGroup i ((c.group i).fxStops rgn status)) c

/-- A core-level fault of a placed image (R435): a region stops and becomes FAULTED; the copy of a captured loop damps to its oldest
uncommitted iteration and the cache entry becomes an unplaceable mark. -/
def State.placedFault (s : State) (core pi cause sub addr detail : Nat) : State :=
  let p := (s.core core).placedAt pi
  let s1 := s.coreFault core p.blk cause sub addr detail
  let c := s1.core core
  match p.copy with
  | none => s1.setCore core ((c.setPlaced pi { p with region := some .faulted }).wakeFx p.blk p.rgn 1)
  | some q => s1.setCore core ((c.setPlaced pi { p with copy := some (q.dampTo q.oldest (.faulted q.oldest)) }).enter q.key none)

/-! ## A firing -/

/-- What a slot finds when it may fire: the element, the slot and its context, the word's fields and the literal. -/
structure Firing where
  core : Nat
  c : Core
  pi : Nat
  p : Placed
  ei : Nat
  e : Element
  slot : Nat
  k : Nat
  t : Ctx
  x : ElemWord
  lit : Word

/-- The firing of a slot of an element of a core. -/
def State.firing (s : State) (core ei slot : Nat) (x : ElemWord) : Firing :=
  let c := s.core core
  let e := c.elem ei
  let k := (e.ctxmap.extractLsb' (2 * slot) 2).toNat
  { core, c, pi := e.owner - 1, p := c.placedAt (e.owner - 1), ei, e, slot, k, t := e.ctx k, x, lit := SMap.get 0 e.lits slot }

/-- The head of a channel. -/
def Firing.head (f : Firing) (n : Nat) : Option Token := (f.e.chan n).q.head?
/-- Lane `l` of a channel's head. -/
def Firing.headLane (f : Firing) (n l : Nat) : Word := ((f.head n).map (·.lane l)).getD 0

/-- A source in a lane (R64, R190). -/
def Firing.src (f : Firing) (code : BitVec 4) (l : Nat) : Word :=
  let n := code.toNat
  if n < 4 then f.headLane n l
  else if n < 12 then SMap.get 0 f.t.d (8 * (n - 4) + l)
  else match n with
    | 12 => f.lit
    | 13 => 0
    | 14 => BitVec.ofNat 32 l
    | _ => BitVec.ofNat 32 (((f.head 0).map (fun t => hdrIter t.hdr)).getD 0)

/-- A predicate bit of the context in eight lanes; ep7 is always 1 (R182). -/
def Ctx.pred (t : Ctx) (n : Nat) : Byte := if n = 7 then 0xFF else SMap.get 0 t.ep n

/-- Channels that the source fields name, and in0 for the iteration tag (R186, R188). -/
def Firing.srcChans (f : Firing) : List Nat :=
  let a := f.x.sa.toNat
  let b := f.x.sb.toNat
  (if a < 4 then [a] else []) ++ (if b < 4 then [b] else []) ++ (if a = 15 ∨ b = 15 then [0] else [])

/-- The kinds of element form that differ in sources, types or header. -/
inductive ElemKind where
  /-- sources are registers, literals and channels that hold data -/
  | plain
  /-- transport forms and DEQ: a channel source of either type -/
  | transport
  /-- SA and SB name predicate bits -/
  | preds
  /-- SCLATCH: source A holds a scale -/
  | scaleA
  /-- QUANT: source B holds a scale where it is a channel -/
  | scaleB
deriving DecidableEq, Repr

/-- What a firing does: tokens by out port, the context's new state, the channels it dequeues, a new MERGEU bit, lanes counted as
saturated and as NaN, and whether it writes its destinations. -/
structure Effect where
  writes : Bool := true
  sends : List (Nat × Token)
  t : Ctx
  deqs : List Nat
  mlast : Option Bool := none
  sat : Nat := 0
  nan : Nat := 0

/-- An element form: its kind; for the forms that decide their own inputs, the header source when they may fire; whether its guard
selects instead of gating; whether it writes the accumulator without naming the port; and its effect in
the executed lanes X under header h. -/
structure ElemForm where
  kind : ElemKind := .plain
  own : Option (Firing → Option (Option Nat)) := none
  select : Bool := false
  acc : Bool := false
  eff : Firing → (x : Byte) → (h : Word) → Effect

/-- The header source of a firing (R188). -/
def ElemForm.source (m : ElemForm) (f : Firing) : Option Nat :=
  match m.own with
  | some o => (o f).getD none
  | none =>
    ((if m.kind = .preds then [] else f.srcChans) ++ (List.range 4).filter (fun n => f.x.ta.getLsbD n)).head?

/-- The output header h (R188). -/
def ElemForm.header (m : ElemForm) (f : Firing) : Word :=
  match (m.source f).bind f.head with
  | some t => t.hdr
  | none => f.t.hdr

/-- PRED, VAL, QNT and HEAD of a guard (R64). -/
def gdPred (g : BitVec 7) : Nat := (g.extractLsb' 4 3).toNat

/-- The executed lanes; none where the guard does not hold (R187, R196). -/
def ElemForm.lanes (m : ElemForm) (f : Firing) : Option Byte :=
  let g := f.x.gd
  let l := hdrMask (m.header f)
  let ep := f.t.pred (gdPred g)
  let hit := l &&& (if g.getLsbD 3 then ep else ~~~ep)
  if gdPred g = 7 then (if g.getLsbD 3 then some l else none)
  else if m.select then some l
  else if g.getLsbD 2 then (if hit = l then some l else none)
  else if hit = 0 then none
  else some hit

/-- The inputs that must hold a token (R186 condition 2). -/
def ElemForm.inputs (m : ElemForm) (f : Firing) : Bool :=
  match m.own with
  | some o => (o f).isSome
  | none => ((if m.kind = .preds then [] else f.srcChans) ++ (List.range 4).filter (fun n => f.x.ta.getLsbD n)).all
      (fun n => (f.head n).isSome)

/-- The HEAD test on source A's head (R64, R186 condition 3). -/
def Firing.headTest (f : Firing) : Bool :=
  match f.x.gd.toNat % 4, f.head f.x.sa.toNat with
  | 0, _ => true
  | 1, some t => !hdrScale t.hdr
  | 2, some t => hdrScale t.hdr
  | _, some t => (t.hdr.extractLsb' 8 4) != 0
  | _, none => false

/-- The destination of an out port. -/
def Firing.out (f : Firing) (port : Nat) : Option Dest := f.p.dest f.pi (SMap.get 0 f.e.routes port)

/-- Whether an image's elements and nodes act: its region RUNS, or the copy streams, and it is not frozen (R47, R403). -/
def Placed.acts (p : Placed) : Bool :=
  !p.frozen && (p.region == some .running || p.copy.any (fun (q : Copy) => !q.left))

/-- Whether the tokens of a firing all find space, two that go to one channel together (R186 condition 5, R362). -/
def Firing.fit (f : Firing) : List (Nat × Token) → List Dest → Bool
  | [], _ => true
  | q :: r, taken => match f.out q.1 with
    | some d => f.c.spaceFor d ((taken.filter (· == d)).length + 1) && f.fit r (d :: taken)
    | none => f.fit r taken

/-- What a ready slot will do; none where it is not ready (R186). The accumulate port must be free where the firing writes it: AMAXR and
CNT write it only when they close (R186 condition 5). -/
def ElemForm.ready (m : ElemForm) (f : Firing) : Option Effect :=
  if f.e.owner = 0 ∨ !f.p.acts then none
  else if !(m.inputs f && f.headTest) then none
  else match m.lanes f with
    | none => none
    | some x =>
      let r := m.eff f x (m.header f)
      if f.fit r.sends [] && !((m.acc || (f.x.da == 13 && r.writes)) && f.t.ardy) then some r else none

/-- Whether a source field names a channel whose head has another type than the one asked for. -/
def Firing.typeBad (f : Firing) (code : BitVec 4) (scale : Bool) : Bool :=
  decide (code.toNat < 4) && (f.head code.toNat).any (fun t => hdrScale t.hdr != scale)

/-- The channel whose head has the wrong type for its source (R192): each source field is checked by itself, so a QUANT that names one
channel as both sources always fails. The tag of in0's head (code 15) is no channel source (R190). Where both sources fail, the fault names
SA's channel. MODEL'S CHOICE (assumption 109). -/
def ElemForm.typeFault (m : ElemForm) (f : Firing) : Option Nat :=
  match m.kind with
  | .transport | .preds => none
  | k => if f.typeBad f.x.sa (k == .scaleA) then some f.x.sa.toNat
    else if f.typeBad f.x.sb (k == .scaleB) then some f.x.sb.toNat
    else none

/-- The channel whose sticky count disagrees with END[0] of the header source, and the sub-cause (R185). Of several, the fault names the first
in the order in which the form dequeues them. MODEL'S CHOICE (assumption 109). -/
def ElemForm.stickyFault (m : ElemForm) (f : Firing) (deqs : List Nat) : Option (Nat × Nat) :=
  match m.source f with
  | none => none
  | some h =>
    let fin := hdrEnd (m.header f) 0
    (deqs.filter (fun n => n != h && (f.e.chan n).srl != 0 && (f.e.chan n).srl != 255)).findSome? (fun n =>
      if (f.e.chan n).removes then (if fin then none else some (n, 0)) else if fin then some (n, 1) else none)

/-- A core-level fault of an element, naming the element, context, slot and channel. -/
def Firing.fault (f : Firing) (s : State) (cause sub chan : Nat) : State :=
  s.placedFault f.core f.pi cause sub 0 (detailOf (f.ei % 8) (f.ei / 8) f.k f.slot chan f.p.rgnByte)

/-- An element that fires ends the probes that have passed it or are at it (R369, R371). -/
def Core.unprobe (c : Core) (ei : Nat) : Core :=
  { c with probes := c.probes.filter (fun q => !(q.place == ei || q.path.any (fun w => w.1 == ei))) }

/-- FIRE (R190): the checks, then tokens, dequeues, HDR and PTR, and the counts (R206, R423). -/
def ElemForm.apply (m : ElemForm) (f : Firing) (r : Effect) (s : State) : State :=
  match m.typeFault f with
  | some n => f.fault s 0x24 0 n
  | none =>
    match m.stickyFault f r.deqs with
    | some (n, sub) => f.fault s 0x23 sub n
    | none =>
      let e := r.deqs.foldl (fun (e : Element) n => e.setChan n (e.chan n).deq) f.e
      let e := { e with
        ctxs := SMap.set {} e.ctxs f.k { r.t with hdr := m.header f }
        ptr := f.k
        wcount := SMap.set 0 e.wcount f.slot 0
        mlast := match r.mlast with
          | some b => (e.mlast &&& ~~~(1#16 <<< f.slot)) ||| (if b then 1#16 <<< f.slot else 0)
          | none => e.mlast }
      let c := r.sends.foldl (fun (c : Core) q => c.send (f.out q.1) q.2) ((((s.core f.core).setElem f.ei e).count 4 1).unprobe f.ei)
      let b := ((c.block f.p.blk).tokenAdd 0 r.sat).tokenAdd 1 r.nan
      s.setCore f.core (if r.sat + r.nan = 0 then c else c.setBlock f.p.blk b)

/-- The firing of the slot at the cursor; nothing where the slot is not ready. -/
def State.fire (s : State) (m : ElemForm) (x : ElemWord) : Out :=
  let f := s.firing s.curCore s.curElem s.curElemSlot x
  match m.ready f with
  | some r => .next (m.apply f r s)
  | none => .next s

/-! ## Results (R190) -/

/-- Channels that TA names. -/
def Firing.ta (f : Firing) : List Nat := (List.range 4).filter (fun n => f.x.ta.getLsbD n)

/-- Write a d register in the lanes of X. -/
def Ctx.setD (t : Ctx) (r : Nat) (x : Byte) (v : Nat → Word) : Ctx :=
  { t with d := ((List.range 8).filter (fun l => x.getLsbD l)).foldl (fun m l => SMap.set 0 m (8 * r + l) (v l)) t.d }

/-- Write a predicate bit in the lanes of X; ep7 cannot be written (R190). -/
def Ctx.setPred (t : Ctx) (n : Nat) (x : Byte) (v : Nat → Bool) : Ctx :=
  if n = 7 then t
  else
    let b := (List.range 8).foldl (fun (a : Byte) l => if x.getLsbD l && v l then a ||| (1#8 <<< l) else a) 0
    { t with ep := SMap.set 0 t.ep n ((t.pred n &&& ~~~x) ||| b) }

/-- OPACC (R183, R208). -/
def opAcc (op : Nat) (a r : Word) : Word :=
  match op with
  | 0 => w32 (f32.addC plainArith a.toNat r.toNat)
  | 1 => a + r
  | 2 => w32 (f32.minMax true false a.toNat r.toNat)
  | 3 => w32 (f32.minMax false false a.toNat r.toNat)
  | _ => if a.toNat < r.toNat then r else a

/-- Fold a result into the accumulator (R208). -/
def Ctx.accumulate (t : Ctx) (x : Byte) (h : Word) (r : Nat → Word) : Ctx :=
  let v := ((List.range 8).filter (fun l => x.getLsbD l)).foldl
    (fun m l => SMap.set 0 m l (opAcc (accOp t.accmode) (SMap.get 0 m l) (r l))) t.accv
  let t1 := { t with accv := v }
  if hdrEnd h (accLvl t.accmode) then
    let n := (t.ecnt + 1) % 256
    if n = accN t.accmode then { t1 with ecnt := n, ardy := true, ahdr := h } else { t1 with ecnt := n }
  else t1

/-- The out ports that DA and DB name; DB names a predicate where DA = 12. -/
def Firing.outPorts (f : Firing) : List Nat :=
  let a := f.x.da.toNat
  let b := f.x.db.toNat
  (if a < 4 then [a] else []) ++ (if a ≠ 12 ∧ 1 ≤ b ∧ b ≤ 4 then [b - 1] else [])

/-- The context after a result has been written to DA and DB (R190). -/
def Firing.written (f : Firing) (x : Byte) (h : Word) (r : Nat → Word) : Ctx :=
  let a := f.x.da.toNat
  let b := f.x.db.toNat
  let t := if 4 ≤ a ∧ a < 12 then f.t.setD (a - 4) x r
    else if a = 12 then f.t.setPred b x (fun l => (r l).getLsbD 0)
    else if a = 13 then f.t.accumulate x h r
    else f.t
  if a ≠ 12 ∧ 5 ≤ b then t.setD (b - 5) x r else t

/-- The common effect: r to DA and DB, the tokens of a form that computes (data, lanes outside X zero), TA dequeued. -/
def Firing.result (f : Firing) (x : Byte) (h : Word) (r : Nat → Word) : Effect :=
  { sends := f.outPorts.map (fun p => (p, tokenOf (hdrTyped h false) (fun l => if x.getLsbD l then r l else 0)))
    t := f.written x h r
    deqs := f.ta }

/-- A token sent to DA and DB with all eight lanes. -/
def Firing.forward (f : Firing) (h : Word) (r : Nat → Word) : List (Nat × Token) := f.outPorts.map (fun p => (p, tokenOf h r))

/-! ## Arithmetic, logic and compare forms (R195, R196) -/

/-- A form of one source. -/
def elem1 (g : Word → Word) : ElemForm := { eff := fun f x h => f.result x h (fun l => g (f.src f.x.sa l)) }
/-- A form of two sources. -/
def elem2 (g : Word → Word → Word) : ElemForm := { eff := fun f x h => f.result x h (fun l => g (f.src f.x.sa l) (f.src f.x.sb l)) }
/-- The addend e of MAD and FFMA: the d register that DA names, otherwise the literal. -/
def Firing.addend (f : Firing) (l : Nat) : Word := if 4 ≤ f.x.da.toNat ∧ f.x.da.toNat < 12 then f.src f.x.da l else f.lit
/-- A form of two sources and an addend. -/
def elem3 (g : Word → Word → Word → Word) : ElemForm :=
  { eff := fun f x h => f.result x h (fun l => g (f.src f.x.sa l) (f.src f.x.sb l) (f.addend l)) }
/-- A compare form: all ones where the condition holds. -/
def elemCmp (g : Word → Word → Bool) : ElemForm := elem2 (fun a b => maskWord (g a b))
/-- An f32 operation on patterns. -/
def elemF (g : Nat → Nat → Nat) : ElemForm := elem2 (fun a b => w32 (g a.toNat b.toNat))
/-- An f32 compare (R138). -/
def elemFcmp (cc : Nat) : ElemForm := elemCmp (fun a b => floatCond cc (f32.value a.toNat) (f32.value b.toNat))

/-- NOP never fires (R198). -/
def formElemNop : ElemForm := { own := some (fun _ => none), eff := fun f _ _ => { sends := [], t := f.t, deqs := [] } }
/-- MOV: transport, TYPE kept. -/
def formElemMov : ElemForm :=
  { kind := .transport
    eff := fun f x h =>
      let r := fun l => f.src f.x.sa l
      { sends := f.forward h r, t := f.written x h r, deqs := f.ta } }
/-- SEL (R196). -/
def formElemSel : ElemForm :=
  { select := true
    eff := fun f x h =>
      let ep := f.t.pred (gdPred f.x.gd)
      f.result x h (fun l => if ep.getLsbD l == f.x.gd.getLsbD 3 then f.src f.x.sa l else f.src f.x.sb l) }
/-- LSEL (R196). -/
def formElemLsel : ElemForm := { eff := fun f x h => f.result x h (fun l => f.src f.x.sa ((f.src f.x.sb l).toNat % 8)) }

/-! ## Predicate forms (R197) -/

/-- A predicate form: bit DB in the lanes of X. -/
def elemPred (g : Firing → Nat → Bool) : ElemForm :=
  { kind := .preds
    eff := fun f x _ => { sends := [], t := f.t.setPred f.x.db.toNat x (g f), deqs := f.ta } }
/-- Predicate bit that a source field names. -/
def Firing.epBit (f : Firing) (code : BitVec 4) (l : Nat) : Bool := (f.t.pred code.toNat).getLsbD l

/-! ## Transport forms (R198 to R203) -/

/-- DEQ. -/
def formElemDeq : ElemForm :=
  { kind := .transport, eff := fun f _ _ => { sends := [], t := f.t, deqs := f.ta } }

/-- DROP (R199). R199 speaks of a token that is sent or not. Where DA is a d register, a predicate or the accumulator, the form writes it in X
whether or not its token is sent, and a token that arrives with no lane is not sent. MODEL'S CHOICE (assumption 111). -/
def formElemDrop : ElemForm :=
  { kind := .transport
    eff := fun f x h =>
      let a := fun l => f.src f.x.sa l
      let drop := fun l => (f.lit.getLsbD 0 && (a l &&& 0x7FFFFFFF) == 0) || (f.lit.getLsbD 1 && f32.isNaN (a l).toNat)
      let m := (List.range 8).foldl (fun (m : Byte) l => if drop l then m &&& ~~~(1#8 <<< l) else m) (hdrMask h)
      { sends := if m = 0 then [] else f.forward (hdrMasked h m) a
        t := f.written x h a
        deqs := f.ta } }

/-- EMIT (R200). -/
def formElemEmit : ElemForm :=
  { kind := .transport
    eff := fun f x h =>
      let a := fun l => f.src f.x.sa l
      { sends := f.forward (hdrTyped (h ||| ((f.lit &&& 0xF) <<< 8)) (f.lit.getLsbD 4)) a
        t := f.written x h a
        deqs := f.ta } }

/-- STEER (R201). -/
def formElemSteer : ElemForm :=
  { kind := .transport
    eff := fun f _ h =>
      let l0 := ((List.range 8).find? (fun l => (hdrMask h).getLsbD l)).getD 0
      let arm := (f.src f.x.sb l0).getLsbD 0
      let port := if arm then (if f.x.db = 0 then none else some (f.x.db.toNat - 1))
        else if f.x.da.toNat < 4 then some f.x.da.toNat else none
      let main := match port with
        | some p => [(p, tokenOf h (fun l => f.src f.x.sa l))]
        | none => []
      let ctl := if f.lit.getLsbD 2 then [(f.lit.toNat % 4, tokenOf (hdrTyped h false) (fun _ => boolWord arm))] else []
      { sends := main ++ ctl, t := f.t, deqs := f.ta } }

/-- The arm that MERGE takes: the channel that lane 0 of the control head names. -/
def Firing.mergeArm (f : Firing) : Option Nat :=
  match f.head (f.lit.toNat % 4) with
  | none => none
  | some t =>
    let n := if (t.lane 0).getLsbD 0 then f.x.sb.toNat else f.x.sa.toNat
    if (f.head n).isSome then some n else none

/-- MERGE (R202). -/
def formElemMerge : ElemForm :=
  { kind := .transport
    own := some (fun f => f.mergeArm.map some)
    eff := fun f x h =>
      match f.mergeArm with
      | none => { sends := [], t := f.t, deqs := [] }
      | some n =>
        let a := fun l => f.headLane n l
        { sends := f.forward h a, t := f.written x h a, deqs := [f.lit.toNat % 4, n] } }

/-- The arm that MERGEU takes: the one it did not take last where both have a head (R203). -/
def Firing.mergeuArm (f : Firing) : Option Nat :=
  let a := f.x.sa.toNat
  let b := f.x.sb.toNat
  match (f.head a).isSome, (f.head b).isSome with
  | true, true => some (if f.e.mlast.getLsbD f.slot then a else b)
  | true, false => some a
  | false, true => some b
  | _, _ => none

/-- MERGEU (R203). -/
def formElemMergeu : ElemForm :=
  { kind := .transport
    own := some (fun f => f.mergeuArm.map some)
    eff := fun f x h =>
      match f.mergeuArm with
      | none => { sends := [], t := f.t, deqs := [] }
      | some n =>
        let a := fun l => f.headLane n l
        { sends := f.forward h a, t := f.written x h a, deqs := [n], mlast := some (n != f.x.sa.toNat) } }

/-! ## Scale, count and accumulate forms (R204 to R209) -/

/-- SCLATCH (R204). -/
def formElemSclatch : ElemForm :=
  { kind := .scaleA, eff := fun f x h => f.result x h (fun l => f.src f.x.sa l &&& 0xFF) }

/-- AMAXR (R205). -/
def formElemAmaxr : ElemForm :=
  { eff := fun f x h =>
      let xs := ((List.range 8).filter (fun l => x.getLsbD l)).map (fun l => (f.src f.x.sa l).toNat)
      let mag := xs.foldl (fun m a => if f32.isNaN a then m else max m (a % 2 ^ 31)) (f.t.amx.toNat % 2 ^ 31)
      let nan := f.t.amx.getLsbD 31 || xs.any f32.isNaN
      let n := (f.t.tcnt + 1) % 4
      let dt := f.lit.toNat % 32
      if n = 0 ∨ hdrEnd h 0 then
        let sc := if nan && 6 ≤ dt then 0xFF else scaleOf false (f32.value mag) dt (f.lit.getLsbD 5)
        { sends := f.forward (hdrTyped h true) (fun _ => w32 sc)
          t := { f.written x h (fun _ => w32 sc) with amx := 0, tcnt := 0 }
          deqs := f.ta }
      else { writes := false, sends := [], t := { f.t with amx := w32 (mag + if nan then 2 ^ 31 else 0), tcnt := n }, deqs := f.ta } }

/-- QUANT (R206). It writes no scale: R156 and R126 have it set the block's NaN scale, and R206 gives it no scale to set; the 0xFF comes from
the AMAXR that sends the scale. MODEL'S CHOICE (assumption 108). -/
def formElemQuant : ElemForm :=
  { kind := .scaleB
    eff := fun f x h =>
      let dt := f.lit.toNat % 32
      let rnd := rndOf (f.lit.toNat / 2 ^ 6 % 8) 0
      let sc := fun l => if f.x.sb = 12 then f.lit.toNat / 2 ^ 16 % 256 else (f.src f.x.sb l).toNat % 256
      let v := fun l => f32.value (f.src f.x.sa l).toNat
      let q := fun l => quantCode dt rnd false (f.lit.getLsbD 5) (sc l) (v l)
      let xs := (List.range 8).filter (fun l => x.getLsbD l)
      { f.result x h (fun l => w32 (q l)) with
        sat := (xs.filter (fun l => countsSat dt rnd (sc l) (v l) (q l))).length
        nan := (xs.filter (fun l => countsNan dt (sc l) (v l) (q l))).length } }

/-- CNT (R207). -/
def formElemCnt : ElemForm :=
  { eff := fun f x h =>
      let n := ((List.range 8).filter (fun l => x.getLsbD l && (!f.lit.getLsbD 0 || f.src f.x.sa l != 0))).length
      let t := f.t.ccnt + BitVec.ofNat 32 n
      if hdrEnd h (f.lit.toNat / 2 % 4) then
        { sends := f.forward (hdrTyped h false) (fun _ => t)
          t := { f.written x h (fun _ => t) with ccnt := 0 }
          deqs := f.ta }
      else { writes := false, sends := [], t := { f.t with ccnt := t }, deqs := f.ta } }

/-- ACC (R208). -/
def formElemAcc : ElemForm :=
  { acc := true
    eff := fun f x h => { sends := [], t := f.t.accumulate x h (fun l => f.src f.x.sa l), deqs := f.ta } }

/-- ACCREL: the lanes of AHDR's LMASK go to DA and DB (R209). -/
def formElemAccrel : ElemForm :=
  { own := some (fun f => if f.t.ardy then some none else none)
    eff := fun f _ h =>
      let x := hdrMask f.t.ahdr
      let v := fun l => if x.getLsbD l then SMap.get 0 f.t.accv l else 0
      { sends := f.forward f.t.ahdr v
        t := { f.written x h v with accv := accClear f.t.accmode, ecnt := 0, ardy := false }
        deqs := [] } }

end Sys2Proof.Machine
end

