-- ==== Sys2Proof/Machine/Elements.lean ====
section
/-!
DEFINITION. The table of the 56 element forms (R65, R195 to R209), their meanings, and one turn of an element: the arbiter (R189),
the watchdog and the channel timers (R193, R369).
-/

namespace Sys2Proof.Machine

/-- ADD (R195). -/
def formElemAdd : ElemForm := elem2 (fun a b => a + b)
/-- SUB (R195). -/
def formElemSub : ElemForm := elem2 (fun a b => a - b)
/-- MUL (R195). -/
def formElemMul : ElemForm := elem2 (fun a b => a * b)
/-- MULH (R195). -/
def formElemMulh : ElemForm := elem2 (mulHigh false)
/-- MAD (R195). -/
def formElemMad : ElemForm := elem3 (fun a b e => a * b + e)
/-- MIN (R195). -/
def formElemMin : ElemForm := elem2 (minWord true)
/-- MAX (R195). -/
def formElemMax : ElemForm := elem2 (maxWord true)
/-- AND (R195). -/
def formElemAnd : ElemForm := elem2 (fun a b => a &&& b)
/-- OR (R195). -/
def formElemOr : ElemForm := elem2 (fun a b => a ||| b)
/-- XOR (R195). -/
def formElemXor : ElemForm := elem2 (fun a b => a ^^^ b)
/-- ANDN (R195). -/
def formElemAndn : ElemForm := elem2 (fun a b => a &&& ~~~b)
/-- NOT (R195). -/
def formElemNot : ElemForm := elem1 (fun a => ~~~a)
/-- SHL (R195, R104). -/
def formElemShl : ElemForm := elem2 (shlWord false)
/-- SHR (R195, R104). -/
def formElemShr : ElemForm := elem2 (shrWord false)
/-- SAR (R195, R104). -/
def formElemSar : ElemForm := elem2 (sarWord false)
/-- POPC (R195). -/
def formElemPopc : ElemForm := elem1 popcWord
/-- CLZ (R195). -/
def formElemClz : ElemForm := elem1 clzWord
/-- FADD (R195). -/
def formElemFadd : ElemForm := elemF (f32.addC plainArith)
/-- FSUB (R195). -/
def formElemFsub : ElemForm := elemF (f32.subC plainArith)
/-- FMUL (R195). -/
def formElemFmul : ElemForm := elemF (f32.mulC plainArith)
/-- FFMA (R195). -/
def formElemFfma : ElemForm := elem3 (fun a b e => w32 (f32.fmaC plainArith a.toNat b.toNat e.toNat))
/-- FMIN (R195, R137). -/
def formElemFmin : ElemForm := elemF (f32.minMax false false)
/-- FMAX (R195, R137). -/
def formElemFmax : ElemForm := elemF (f32.minMax true false)
/-- FTOI (R195, R153). -/
def formElemFtoi : ElemForm := elem1 (fun a => BitVec.ofInt 32 (numToInt .rz true 32 (f32.value a.toNat)))
/-- ITOF (R195). -/
def formElemItof : ElemForm := elem1 (fun a => w32 (f32.narrow .rne false (numOfInt a.toInt)))
/-- CEQ (R195). -/
def formElemCeq : ElemForm := elemCmp (fun a b => a == b)
/-- CNE (R195). -/
def formElemCne : ElemForm := elemCmp (fun a b => a != b)
/-- CLT (R195). -/
def formElemClt : ElemForm := elemCmp (intCond 2 true)
/-- CLE (R195). -/
def formElemCle : ElemForm := elemCmp (intCond 3 true)
/-- CLTN (R195). -/
def formElemCltn : ElemForm := elemCmp (intCond 2 false)
/-- CLEN (R195). -/
def formElemClen : ElemForm := elemCmp (intCond 3 false)
/-- FCLT (R195, R138). -/
def formElemFclt : ElemForm := elemFcmp 2
/-- FCLE (R195, R138). -/
def formElemFcle : ElemForm := elemFcmp 3
/-- FCEQ (R195, R138). -/
def formElemFceq : ElemForm := elemFcmp 0
/-- FCNE (R195, R138). -/
def formElemFcne : ElemForm := elemFcmp 9
/-- PSET (R197). -/
def formElemPset : ElemForm := elemPred (fun _ _ => true)
/-- PCLR (R197). -/
def formElemPclr : ElemForm := elemPred (fun _ _ => false)
/-- PAND (R197). -/
def formElemPand : ElemForm := elemPred (fun f l => f.epBit f.x.sa l && f.epBit f.x.sb l)
/-- POR (R197). -/
def formElemPor : ElemForm := elemPred (fun f l => f.epBit f.x.sa l || f.epBit f.x.sb l)
/-- PNOT (R197). -/
def formElemPnot : ElemForm := elemPred (fun f l => !f.epBit f.x.sa l)

/-- The form of an element opcode (R65); the opcodes that R65 leaves unassigned never fire. -/
def elemForm : Nat → ElemForm
  | 0x00 => formElemNop
  | 0x01 => formElemMov
  | 0x02 => formElemAdd
  | 0x03 => formElemSub
  | 0x04 => formElemMul
  | 0x05 => formElemMulh
  | 0x06 => formElemMad
  | 0x07 => formElemMin
  | 0x08 => formElemMax
  | 0x09 => formElemAnd
  | 0x0A => formElemOr
  | 0x0B => formElemXor
  | 0x0C => formElemAndn
  | 0x0D => formElemNot
  | 0x0E => formElemShl
  | 0x0F => formElemShr
  | 0x10 => formElemSar
  | 0x11 => formElemPopc
  | 0x12 => formElemClz
  | 0x13 => formElemSel
  | 0x14 => formElemFadd
  | 0x15 => formElemFsub
  | 0x16 => formElemFmul
  | 0x17 => formElemFfma
  | 0x18 => formElemFmin
  | 0x19 => formElemFmax
  | 0x1A => formElemFtoi
  | 0x1B => formElemItof
  | 0x1C => formElemCeq
  | 0x1D => formElemCne
  | 0x1E => formElemClt
  | 0x1F => formElemCle
  | 0x20 => formElemCltn
  | 0x21 => formElemClen
  | 0x22 => formElemFclt
  | 0x23 => formElemFcle
  | 0x24 => formElemFceq
  | 0x25 => formElemFcne
  | 0x26 => formElemPset
  | 0x27 => formElemPclr
  | 0x28 => formElemPand
  | 0x29 => formElemPor
  | 0x2A => formElemPnot
  | 0x2B => formElemSteer
  | 0x2C => formElemMerge
  | 0x2D => formElemMergeu
  | 0x2E => formElemDrop
  | 0x2F => formElemEmit
  | 0x30 => formElemDeq
  | 0x31 => formElemSclatch
  | 0x32 => formElemQuant
  | 0x33 => formElemAmaxr
  | 0x34 => formElemCnt
  | 0x35 => formElemAcc
  | 0x36 => formElemAccrel
  | 0x37 => formElemLsel
  | _ => formElemNop

/-- NOP (R198). -/
def execElemNop (x : ElemWord) (s : State) : Out := s.fire formElemNop x
/-- MOV (R195). -/
def execElemMov (x : ElemWord) (s : State) : Out := s.fire formElemMov x
/-- ADD (R195). -/
def execElemAdd (x : ElemWord) (s : State) : Out := s.fire formElemAdd x
/-- SUB (R195). -/
def execElemSub (x : ElemWord) (s : State) : Out := s.fire formElemSub x
/-- MUL (R195). -/
def execElemMul (x : ElemWord) (s : State) : Out := s.fire formElemMul x
/-- MULH (R195). -/
def execElemMulh (x : ElemWord) (s : State) : Out := s.fire formElemMulh x
/-- MAD (R195). -/
def execElemMad (x : ElemWord) (s : State) : Out := s.fire formElemMad x
/-- MIN (R195). -/
def execElemMin (x : ElemWord) (s : State) : Out := s.fire formElemMin x
/-- MAX (R195). -/
def execElemMax (x : ElemWord) (s : State) : Out := s.fire formElemMax x
/-- AND (R195). -/
def execElemAnd (x : ElemWord) (s : State) : Out := s.fire formElemAnd x
/-- OR (R195). -/
def execElemOr (x : ElemWord) (s : State) : Out := s.fire formElemOr x
/-- XOR (R195). -/
def execElemXor (x : ElemWord) (s : State) : Out := s.fire formElemXor x
/-- ANDN (R195). -/
def execElemAndn (x : ElemWord) (s : State) : Out := s.fire formElemAndn x
/-- NOT (R195). -/
def execElemNot (x : ElemWord) (s : State) : Out := s.fire formElemNot x
/-- SHL (R195, R104). -/
def execElemShl (x : ElemWord) (s : State) : Out := s.fire formElemShl x
/-- SHR (R195, R104). -/
def execElemShr (x : ElemWord) (s : State) : Out := s.fire formElemShr x
/-- SAR (R195, R104). -/
def execElemSar (x : ElemWord) (s : State) : Out := s.fire formElemSar x
/-- POPC (R195). -/
def execElemPopc (x : ElemWord) (s : State) : Out := s.fire formElemPopc x
/-- CLZ (R195). -/
def execElemClz (x : ElemWord) (s : State) : Out := s.fire formElemClz x
/-- SEL (R196). -/
def execElemSel (x : ElemWord) (s : State) : Out := s.fire formElemSel x
/-- FADD (R195). -/
def execElemFadd (x : ElemWord) (s : State) : Out := s.fire formElemFadd x
/-- FSUB (R195). -/
def execElemFsub (x : ElemWord) (s : State) : Out := s.fire formElemFsub x
/-- FMUL (R195). -/
def execElemFmul (x : ElemWord) (s : State) : Out := s.fire formElemFmul x
/-- FFMA (R195). -/
def execElemFfma (x : ElemWord) (s : State) : Out := s.fire formElemFfma x
/-- FMIN (R195, R137). -/
def execElemFmin (x : ElemWord) (s : State) : Out := s.fire formElemFmin x
/-- FMAX (R195, R137). -/
def execElemFmax (x : ElemWord) (s : State) : Out := s.fire formElemFmax x
/-- FTOI (R195, R153). -/
def execElemFtoi (x : ElemWord) (s : State) : Out := s.fire formElemFtoi x
/-- ITOF (R195). -/
def execElemItof (x : ElemWord) (s : State) : Out := s.fire formElemItof x
/-- CEQ (R195). -/
def execElemCeq (x : ElemWord) (s : State) : Out := s.fire formElemCeq x
/-- CNE (R195). -/
def execElemCne (x : ElemWord) (s : State) : Out := s.fire formElemCne x
/-- CLT (R195). -/
def execElemClt (x : ElemWord) (s : State) : Out := s.fire formElemClt x
/-- CLE (R195). -/
def execElemCle (x : ElemWord) (s : State) : Out := s.fire formElemCle x
/-- CLTN (R195). -/
def execElemCltn (x : ElemWord) (s : State) : Out := s.fire formElemCltn x
/-- CLEN (R195). -/
def execElemClen (x : ElemWord) (s : State) : Out := s.fire formElemClen x
/-- FCLT (R195, R138). -/
def execElemFclt (x : ElemWord) (s : State) : Out := s.fire formElemFclt x
/-- FCLE (R195, R138). -/
def execElemFcle (x : ElemWord) (s : State) : Out := s.fire formElemFcle x
/-- FCEQ (R195, R138). -/
def execElemFceq (x : ElemWord) (s : State) : Out := s.fire formElemFceq x
/-- FCNE (R195, R138). -/
def execElemFcne (x : ElemWord) (s : State) : Out := s.fire formElemFcne x
/-- PSET (R197). -/
def execElemPset (x : ElemWord) (s : State) : Out := s.fire formElemPset x
/-- PCLR (R197). -/
def execElemPclr (x : ElemWord) (s : State) : Out := s.fire formElemPclr x
/-- PAND (R197). -/
def execElemPand (x : ElemWord) (s : State) : Out := s.fire formElemPand x
/-- POR (R197). -/
def execElemPor (x : ElemWord) (s : State) : Out := s.fire formElemPor x
/-- PNOT (R197). -/
def execElemPnot (x : ElemWord) (s : State) : Out := s.fire formElemPnot x
/-- STEER (R201). -/
def execElemSteer (x : ElemWord) (s : State) : Out := s.fire formElemSteer x
/-- MERGE (R202). -/
def execElemMerge (x : ElemWord) (s : State) : Out := s.fire formElemMerge x
/-- MERGEU (R203). -/
def execElemMergeu (x : ElemWord) (s : State) : Out := s.fire formElemMergeu x
/-- DROP (R199). -/
def execElemDrop (x : ElemWord) (s : State) : Out := s.fire formElemDrop x
/-- EMIT (R200). -/
def execElemEmit (x : ElemWord) (s : State) : Out := s.fire formElemEmit x
/-- DEQ (R198). -/
def execElemDeq (x : ElemWord) (s : State) : Out := s.fire formElemDeq x
/-- SCLATCH (R204). -/
def execElemSclatch (x : ElemWord) (s : State) : Out := s.fire formElemSclatch x
/-- QUANT (R206). -/
def execElemQuant (x : ElemWord) (s : State) : Out := s.fire formElemQuant x
/-- AMAXR (R205). -/
def execElemAmaxr (x : ElemWord) (s : State) : Out := s.fire formElemAmaxr x
/-- CNT (R207). -/
def execElemCnt (x : ElemWord) (s : State) : Out := s.fire formElemCnt x
/-- ACC (R208). -/
def execElemAcc (x : ElemWord) (s : State) : Out := s.fire formElemAcc x
/-- ACCREL (R209). -/
def execElemAccrel (x : ElemWord) (s : State) : Out := s.fire formElemAccrel x
/-- LSEL (R196). -/
def execElemLsel (x : ElemWord) (s : State) : Out := s.fire formElemLsel x

/-! ## One turn of an element (R189, R193, R369) -/

/-- The word of a slot; an unlisted slot holds the empty-slot word of R64. -/
def Element.slotWord (e : Element) (n : Nat) : Word := SMap.get 0x0377C070 e.slots n

/-- The firing that a slot could make, and what it would do; none where the slot is not ready. -/
def State.slotReady (s : State) (core ei n : Nat) : Option Effect :=
  let w := ((s.core core).elem ei).slotWord n
  (elemForm (slotOp w)).ready (s.firing core ei n (elemFields w))

/-- The slots of an element. -/
def elemSlots : List Nat := List.range 16

/-- The arbiter: the lowest ready slot of the first context with one, in the order that starts after PTR (R189). -/
def State.arbiter (s : State) (core ei : Nat) : Option Nat :=
  let e := (s.core core).elem ei
  let ready := elemSlots.filter (fun n => (s.slotReady core ei n).isSome)
  let ctxOf := fun n => (e.ctxmap.extractLsb' (2 * n) 2).toNat
  [1, 2, 3, 0].findSome? (fun i => ready.find? (fun n => ctxOf n == (e.ptr + i) % 4))

/-- The empty channels that a slot waits on for a token: a MERGE waits on its control channel, or on the arm that its control head names
(R369). -/
def State.slotWaits (s : State) (core ei n : Nat) : List Nat :=
  let w := ((s.core core).elem ei).slotWord n
  let f := s.firing core ei n (elemFields w)
  let m := elemForm (slotOp w)
  let empty := fun (l : List Nat) => l.filter (fun q => (f.head q).isNone)
  match slotOp w with
  | 0x00 => []
  | 0x2C =>
    match f.head (f.lit.toNat % 4) with
    | none => [f.lit.toNat % 4]
    | some t => empty [if (t.lane 0).getLsbD 0 then f.x.sb.toNat else f.x.sa.toNat]
  | 0x2D => if (f.head f.x.sa.toNat).isNone && (f.head f.x.sb.toNat).isNone then [f.x.sa.toNat, f.x.sb.toNat] else []
  | _ => ((if m.kind = .preds then [] else f.srcChans) ++ f.ta).eraseDups |> empty

/-- Tokens of every kind that matters to readiness: type, END, one lane or all, a payload of zeros or of ones. -/
def anyTokens : List Token :=
  [0xFF, 1, 2, 4, 8, 16, 32, 64, 128].flatMap (fun m => [false, true].flatMap (fun scale => [0, 15].flatMap (fun ends =>
    [0, 0xFFFFFFFF].map (fun v => tokenOf (hdrOf scale 0 0 0 ends m) (fun _ => v)))))

/-- The empty channels that alone keep a slot from being ready: some token in one makes it ready (R369). -/
def State.slotLacks (s : State) (core ei n : Nat) : List Nat :=
  let w := ((s.core core).elem ei).slotWord n
  let f := s.firing core ei n (elemFields w)
  (List.range 4).filter (fun q => (f.head q).isNone &&
    anyTokens.any (fun t => ((elemForm (slotOp w)).ready { f with e := f.e.setChan q ((f.e.chan q).put t) }).isSome))

/-- The cycle of an element's counters: the watchdog counts the slots that are ready and did not fire, and a channel's timer runs while
it is full, or empty with a slot that would otherwise be ready waiting on it. -/
def State.elemCycle (s : State) (core ei : Nat) (fired : Option Nat) : State :=
  let c := s.core core
  let e := c.elem ei
  if e.owner = 0 then s
  else
    let p := c.placedAt (e.owner - 1)
    if p.frozen ∨ !(p.region == some .running) then s
    else
      let waits := elemSlots.flatMap (s.slotLacks core ei)
      let e1 := { e with
        wcount := if e.wdog = 0 then e.wcount else elemSlots.foldl (fun m n =>
          SMap.set 0 m n (if fired != some n && (s.slotReady core ei n).isSome then min (SMap.get 0 e.wcount n + 1) (2 ^ 20) else 0)) e.wcount
        chans := (List.range 4).foldl (fun m n =>
          let q := e.chan n
          SMap.set {} m n { q with
            timer := if q.q.length ≥ q.limit || (q.q.isEmpty && waits.contains n) then min (q.timer + 1) 4096 else 0 }) e.chans }
      s.setCore core (c.setElem ei e1)

/-- What one turn of an element comes to. -/
inductive Turned where
  /-- no slot fires -/
  | idle (s : State)
  /-- the slot at the cursor fires: its opcode and fields -/
  | fires (op : Nat) (x : ElemWord) (s : State)

/-- One turn of an element: its counters, and the slot that the arbiter chooses, at the cursor. An image that draws above a limit which the
core cannot meet raises the power-share overdraw fault instead (R13, R435). -/
def State.elementTurn (s : State) (core ei : Nat) : Turned :=
  let c := s.core core
  let o := (c.elem ei).owner
  if o ≠ 0 ∧ (c.placedAt (o - 1)).acts ∧ c.overdrawn then .idle (s.placedFault core (o - 1) 0x25 0 0 detailNone)
  else
  let pick := s.arbiter core ei
  let s1 := s.elemCycle core ei pick
  match pick with
  | none => .idle s1
  | some n =>
    let w := ((s.core core).elem ei).slotWord n
    .fires (slotOp w) (elemFields w) { s1 with curCore := core, curElem := ei, curElemSlot := n }

/-- A slot's starvation count has reached 2^n (R193). -/
def execCarillonStarve (core elem slot : Nat) (s : State) : Out :=
  let e := (s.core core).elem elem
  if e.owner ≠ 0 ∧ 8 ≤ e.wdog ∧ 2 ^ e.wdog ≤ SMap.get 0 e.wcount slot then
    let f := s.firing core elem slot (elemFields (e.slotWord slot))
    let e1 := { e with wcount := SMap.set 0 e.wcount slot 0 }
    .next (f.fault (s.setCore core ((s.core core).setElem elem e1)) 0x20 0 0xFF)
  else .next s

end Sys2Proof.Machine
end

