-- ==== Sys2Proof/Machine/Pages.lean ====
section
/-!
DEFINITION. The commit pool, the page instructions, OP 0xD0 to 0xD4, and the device allocator, OP 0xD5 to 0xD7 (R222 to R229,
R251 to R255).
-/

namespace Sys2Proof.Machine

/-! ## The commit pool (R222) -/

/-- CAP. -/
def Partition.poolCap (p : Partition) : Nat := 2 ^ p.poolLog

/-- Free frames of the pool. -/
def Partition.poolFree (p : Partition) : Nat := p.poolW - p.poolR
/-- The key of entry `i` of the pool's ring: CAP addresses of 8 bytes from POOLBASE (R211, R449). -/
def State.poolKey (s : State) (part i : Nat) : Nat := partKey part ((s.part part).poolbase + 8 * (i % (s.part part).poolCap))
/-- The frame that an entry of the ring names. -/
def State.poolAt (s : State) (part i : Nat) : Nat := s.rd (s.poolKey part i) 8 % 2 ^ 52

/-- Take the oldest frame; a take that leaves fewer than LOWWATER posts one POOL_LOW record until the count has risen again. -/
def State.poolTake (s : State) (part core : Nat) : Option (Nat × State) :=
  let p := s.part part
  if p.poolFree = 0 then none
  else
    let f := s.poolAt part p.poolR
    let low := decide (p.poolFree - 1 < p.lowwater)
    let s1 := s.setPart part { p with
      poolR := p.poolR + 1
      poolLow := low }
    let fid := Config.freeFaultId s.tick
    if low && !p.poolLow then
      some (f, ({ s1 with tick := s1.tick + 1 }).postFault part core
        { kind := 5, gen := 0, cause := 0x43, sub := 0, die := fid.toNat / 2 ^ 30, core := fid.toNat / 2 ^ 22 % 256, faultid := fid,
          lmask := 0, pc := 0, addr := 0, gridseq := 0, block := 0, detail := 0 })
    else some (f, s1)

/-- Put a frame into the ring. -/
def State.poolReturn (s : State) (part f : Nat) : State :=
  let p := s.part part
  let s1 := s.hubWrite (s.poolKey part p.poolW) (bytesOf 8 f)
  s1.setPart part { (s1.part part) with
    poolW := p.poolW + 1
    poolLow := p.poolLow && decide (p.poolFree + 1 < p.lowwater) }

/-! ## Frames -/

/-- Whether a line lies in the 64 KiB at a key. -/
def inFrame (f line : Nat) : Bool := decide (f / 128 ≤ line) && decide (line < f / 128 + 512)

/-- The lines of a frame that windows share, as byte ranges. -/
def State.sharedLines (s : State) (f : Nat) : List (Nat × Nat) :=
  (s.dir.filter (fun p => inFrame f p.1 && !p.2.ws.isEmpty)).map (fun p => (128 * p.1, 128))

/-- Every byte of a frame is written at its home: each window that shares a line of it is told, and every cached copy goes (R226, R274,
R276). The write has performed when the step ends. -/
def State.frameWritten (s : State) (core slot f : Nat) : State :=
  let s0 := s.woken ((s.dir.filter (fun p => inFrame f p.1)).flatMap (·.2.kits))
  let s1 := (s0.ordered core slot none (s0.sharedLines f)).deliverAll s0.freshWrite
  { s1 with
    dir := (s1.dir.map (fun p => if inFrame f p.1 then (p.1, p.2.invalid) else p)).filter (fun p => p.2 != {})
    poisoned := s1.poisoned.filter (fun k => !(f ≤ k && k < f + 65536)) }

/-- Ranges that operations of a core's engines read and have already translated (R359). -/
def Core.translated (c : Core) : List (EAddr × Nat) :=
  c.copyq.flatMap (·.reads) ++ c.tileq.flatMap (·.reads) ++
    c.matq.flatMap (fun q => match q.work with | .tfetch _ _ _ _ l => l | _ => [])

/-- Whether an access that has been translated into the 64 KiB at a key has not performed: an engine claims a line of it or will read it, a
request for it is outstanding, or a write to it has not performed (R226, R256). -/
def State.frameBusy (s : State) (f : Nat) : Bool :=
  s.dir.any (fun p => inFrame f p.1 && !p.2.eq.isEmpty) ||
  s.writes.any (fun w => w.lines.any (inFrame f) || (w.outside && keyTgt f != 0)) ||
  s.cores.any (fun p => p.2.requests.any (fun r => r.work.keys.any (fun k => inFrame f (lineOf k))) ||
    p.2.translated.any (fun r => match r.1 with
      | .mem k => meets k r.2 f 65536
      | _ => false))

/-- Whether an engine of a core holds a source that its translation made read as zero. -/
def State.zeroBusy (s : State) : Bool := s.cores.any (fun p => p.2.translated.any (fun r => r.1 == .zero))

/-! ## Page instructions (R223 to R228) -/

/-- The walk that a page instruction makes, which consults no TLB. -/
def Fe.pageWalk (e : Fe) (s : State) (va : Nat) : WalkEnd := walk s e.b.part (s.rootOf e.b.part e.b.asid va) va

/-- Write a level-3 entry at its home; it has performed when the step ends (R224). -/
def Fe.setEntry (e : Fe) (s : State) (addr v : Nat) : State :=
  ((s.putCells [(addr, 8, v)]).ordered e.core e.slot none [(addr, 8)]).deliverAll s.freshWrite

/-- Where the tile of an entry lies. -/
def Fe.frameKey (e : Fe) (w : WalkEnd) : Nat := physKey e.b.part 65536 w.entry 0

/-- An entry with ST and PA replaced. -/
def pteWith (v st pa : Nat) : Nat := v / 2 ^ 52 * 2 ^ 52 + pa / 65536 % 2 ^ 36 * 2 ^ 16 + v / 4 % 2 ^ 14 * 4 + st

/-- Whether a walk ends in a level-3 leaf that is RESERVED or COMMITTED and not CONTIG. -/
def WalkEnd.sparse (w : WalkEnd) : Bool := w.kind == .leaf && w.level == 3 && !pteContig w.entry

/-- Remove a tile from every TLB of the partition (R225): the entries of the issuing address space at its VA. What another address space or VA
reaches through the same level-3 table stays. MODEL'S CHOICE (assumption 112). -/
def Fe.shoot (e : Fe) (s : State) (va : Nat) : State := s.shootdown e.b.part e.b.asid (va / 65536 * 65536) 65536 false

/-- The bytes of a range as another memory holds them. -/
def copyRange (m src : SMap Byte) (k n : Nat) : SMap Byte :=
  (src.filter (fun p => decide (k ≤ p.1) && decide (p.1 < k + n))).foldl (fun m p => writeBytes m p.1 1 p.2.toNat) (clearRange m k n)

/-- A frame has become a tile's: no streaming read returns what it held before (R229, R291). -/
def State.frameSeen (s : State) (k : Nat) : State :=
  let seen := fun (d : Node) => { d with past := d.past.map (fun (m : Moment) => { m with mem := copyRange m.mem s.mem k 65536 }) }
  s.mapCores (fun _ c => { c with
    placed := c.placed.map (fun p => (p.1, { p.2 with nodes := p.2.nodes.map (fun q => (q.1, if q.2.past.isEmpty then q.2 else seen q.2)) })) })

/-- Window words of a partition that were filled with zero from a ZEROREAD tile: once the tile has a frame they hold words of it, and
their windows are sharers of its lines, so that a write of one reaches them as it reaches any window (R268, R276, R288). -/
def State.adoptZero (s : State) (part entry k : Nat) : State :=
  s.cores.foldl (fun (s : State) p => p.2.windows.foldl (fun (s : State) w =>
    let b := p.2.block w.blk
    if b.part ≠ part ∨ w.mode = 2 then s
    else w.words.foldl (fun (s : State) o =>
      let m := s.marksAt p.1 w.blk o
      let key := k + w.vaAt o % 65536
      if m.v && m.src == 0 && m.be != 0xF && (walk s part (s.rootOf part b.asid (w.vaAt o)) (w.vaAt o)).addr == entry then
        (s.setMarks p.1 w.blk o { m with src := key + 1 }).register p.1 w.wid key 4
      else s) s) s) s

/-- One lane of PGCOMMIT: the status and the state (R225). -/
def Fe.commitLane (e : Fe) (nf : Bool) (s : State) (va : Nat) : Nat × State :=
  let w := e.pageWalk s va
  if w.kind = .format then (4, s)
  else if !w.sparse then (3, s)
  else if pteSt w.entry = 2 then (1, s)
  else match s.poolTake e.b.part e.core with
    | none =>
      let p := s.part e.b.part
      (2, s.setPart e.b.part { p with empties := bump p.empties })
    | some (f, s1) =>
      let k := partKey e.b.part f
      let s2 := if nf then s1 else ({ s1 with mem := clearRange s1.mem k 65536 }).frameWritten e.core e.slot k
      let s3 := (e.setEntry s2 w.addr (pteWith w.entry 2 f)).frameSeen k
      (0, if pteZero w.entry then e.shoot (s3.adoptZero e.b.part w.addr k) va else s3)

/-- A frame of device memory loses its lines and contents (R226, R274). -/
def Fe.loseFrame (e : Fe) (s : State) (f : Nat) : State :=
  if keyTgt f ≠ 0 then s
  else
    let s1 := s.frameWritten e.core e.slot f
    { s1 with
      mem := writeBytes s1.mem f 65536 (Config.lostFrame s1.tick)
      tick := s1.tick + 1 }

/-- One lane of PGRELEASE (R226). -/
def Fe.releaseLane (e : Fe) (s : State) (va : Nat) : Nat × State :=
  let w := e.pageWalk s va
  if w.kind = .format then (4, s)
  else if !w.sparse then (3, s)
  else if pteSt w.entry = 1 then (1, s)
  else if (s.part e.b.part).poolCap ≤ (s.part e.b.part).poolFree then (2, s)
  else
    let s1 := e.shoot (e.setEntry s w.addr (pteWith w.entry 1 0)) va
    (0, (e.loseFrame s1 (e.frameKey w)).poolReturn e.b.part (ptePa w.entry))

/-- The permission bits of an entry and ZEROREAD, as PGPROT's B orders them (R227). -/
def pteProt (v : Nat) : Nat := bits v 5 1 + 2 * bits v 6 1 + 4 * bits v 7 1 + 8 * bits v 4 1

/-- An entry with R, W, X and ZEROREAD replaced. -/
def pteSetProt (v b : Nat) : Nat :=
  v / 256 * 256 + bits b 2 1 * 128 + bits b 1 1 * 64 + bits b 0 1 * 32 + bits b 3 1 * 16 + v % 16

/-- Whether PGPROT's bits take a permission away. -/
def pteLess (v b : Nat) : Bool := (List.range 3).any (fun i => (pteProt v).testBit i && !b.testBit i)
/-- Whether they change ZEROREAD of a RESERVED entry. -/
def pteZeroChange (v b : Nat) : Bool := pteSt v == 1 && (pteProt v).testBit 3 != b.testBit 3

/-- One lane of PGPROT (R227). -/
def Fe.protLane (e : Fe) (b : Nat → Nat) (l : Nat) (s : State) (va : Nat) : Nat × State :=
  let w := e.pageWalk s va
  if w.kind = .format then (4, s)
  else if !w.sparse then (3, s)
  else if pteProt w.entry = b l % 16 then (1, s)
  else
    let s1 := e.setEntry s w.addr (pteSetProt w.entry (b l))
    (0, if pteLess w.entry (b l) || pteZeroChange w.entry (b l) then e.shoot s1 va else s1)

/-- Lanes in ascending order, each with its status. -/
def runLanes (f : Nat → State → Nat × State) : List Nat → State → List (Nat × Nat) × State
  | [], s => ([], s)
  | l :: r, s =>
    let q := f l s
    let t := runLanes f r q.2
    ((l, q.1) :: t.1, t.2)

/-- The status of a lane; 7 in a helper lane. -/
def statusOf (l : List (Nat × Nat)) (i : Nat) : Word := w32 (((l.find? (fun p => p.1 == i)).map (·.2)).getD 7)

/-- Whether a lane of PGCOMMIT waits: an engine claims a line of a frame that it may take, or of the ring's entry. -/
def Fe.commitBusy (e : Fe) : Bool :=
  (List.range (min (countLanes e.v) (e.s.part e.b.part).poolFree)).any (fun i =>
    let n := (e.s.part e.b.part).poolR + i
    e.s.hubWaits (e.s.poolKey e.b.part n) 8 ||
    e.s.dir.any (fun p => inFrame (partKey e.b.part (e.s.poolAt e.b.part n)) p.1 && !p.2.eq.isEmpty))
/-- Whether a lane of PGRELEASE waits for accesses translated through the old entry (R226). -/
def Fe.releaseBusy (e : Fe) (w : WalkEnd) : Bool := w.sparse && pteSt w.entry == 2 && e.s.frameBusy (e.frameKey w)
/-- Whether a lane of PGPROT does: where a permission goes, or ZEROREAD of a RESERVED entry changes (R227). -/
def Fe.protBusy (e : Fe) (b : Nat) (w : WalkEnd) : Bool :=
  w.sparse && (pteLess w.entry b || pteZeroChange w.entry b) &&
    (if pteSt w.entry = 2 then e.s.frameBusy (e.frameKey w) else pteZero w.entry && e.s.zeroBusy)

/-- A modifying page instruction (R224): the checks of every lane, high address bits before PGEN in one lane (R430), then lane by lane. It
waits at issue where a lane has something to wait for; a poisoned entry kills the block (R304). -/
def pageEffect (d a : Opnd) (busy : Fe → Nat → WalkEnd → Bool) (lane : Fe → Nat → State → Nat → Nat × State) (e : Fe) : Out :=
  let va := fun l => e.baseAddr a l
  let shut := !(SMap.get {} (e.s.part e.b.part).aspaces e.b.asid).pgen
  let fails := (lanesOf e.v).filter (fun l => shut || decide (2 ^ 56 ≤ va l))
  match fails with
  | l :: _ =>
    let high := decide (2 ^ 56 ≤ va l)
    e.fault { cause := if high then 4 else 5, sub := if high then 2 else 28, addr := va l, lanes := maskOf fails }
  | [] =>
    let ends := (lanesOf e.v).map (fun l => (l, e.pageWalk e.s (va l)))
    if ends.any (fun q => q.2.kind == .absent) then .fault .absentMemory
    else if ends.any (fun q => q.2.kind == .held || busy e q.1 q.2) then e.waitIssue
    else match ends.find? (fun q => e.s.poisonAt q.2.addr 8) with
      | some q => .next (e.s.blockFatal e.core e.g.blk 0x41 0 (keyPa q.2.addr))
      | none => e.inOrder 3 3 (
        let q := runLanes (fun l s => lane e l s (va l)) (lanesOf e.v) e.s
        ({ e with s := q.2 } : Fe).result d (statusOf q.1))

/-- PGCOMMIT. -/
def execPgcommit (x : FmtR) (s : State) : Out :=
  frontEnd (.pgcommit x) x.g s (pageEffect x.d x.a (fun e _ _ => e.commitBusy) (fun e _ s va => e.commitLane (x.m.getLsbD 0) s va))
/-- PGRELEASE. -/
def execPgrelease (x : FmtR) (s : State) : Out :=
  frontEnd (.pgrelease x) x.g s (pageEffect x.d x.a (fun e _ w => e.releaseBusy w) (fun e _ s va => e.releaseLane s va))
/-- PGPROT. -/
def execPgprot (x : FmtR) (s : State) : Out :=
  frontEnd (.pgprot x) x.g s (pageEffect x.d x.a (fun e l w => e.protBusy (e.g.rd x.b l).toNat w)
    (fun e l s va => e.protLane (fun l => (e.g.rd x.b l).toNat) l s va))

/-- PGQUERY: the deciding entry with its level in [61:60] and MALFORMED in [63]; the read is an acquire at dev scope (R228), and consumes poison (R304). -/
def execPgquery (x : FmtR) (s : State) : Out :=
  frontEnd (.pgquery x) x.g s (fun e =>
    let ends := (lanesOf e.act).map (fun l => (l, e.baseAddr x.a l))
    let low := ends.filter (fun p => decide (p.2 < 2 ^ 56))
    if low.any (fun p => (e.pageWalk e.s p.2).kind == .absent) then .fault .absentMemory
    else if low.any (fun p => (e.pageWalk e.s p.2).kind == .held) then e.waitIssue
    else match low.find? (fun p => e.s.poisonAt (e.pageWalk e.s p.2).addr 8) with
      | some p => .next (e.s.blockFatal e.core e.g.blk 0x41 0 (keyPa (e.pageWalk e.s p.2).addr))
      | none => e.inOrder 1 3 (e.acquires 1 3 (low.map (fun p => ((e.pageWalk e.s p.2).addr, 8))) (e.result64 x.d (fun l =>
        let va := e.baseAddr x.a l
        if 2 ^ 56 ≤ va then 0
        else
          let w := e.pageWalk e.s va
          w64 (w.entry % 2 ^ 60 + w.level * 2 ^ 60 + (if w.kind = .format then 2 ^ 63 else 0))))))

/-- PGPOOL (R228). -/
def execPgpool (x : FmtR) (s : State) : Out :=
  frontEnd (.pgpool x) x.g s (fun e =>
    let p := e.s.part e.b.part
    let v := match fldC x.c 0 2 with
      | 0 => w32 p.poolFree
      | 1 => w32 p.poolCap
      | 2 => w32 p.lowwater
      | _ => p.empties
    e.result x.d (fun _ => v))

/-! ## The device allocator (R251 to R254) -/

/-- Size of a block of a class. -/
def classSize (i : Nat) : Nat := 64 * 2 ^ i
/-- The smallest class that holds `n` bytes. -/
def classFor (n : Nat) : Option Nat := (List.range 16).find? (fun i => decide (n ≤ classSize i))
/-- Round up to a multiple. -/
def alignUp (a n : Nat) : Nat := (a + n - 1) / n * n

/-- The blocks of a class that the heap can give: those freed before, and one cut at the top of what it has cut so far. -/
def Partition.freeBlocks (p : Partition) (i : Nat) : List Nat :=
  let top := alignUp (p.heapbase + p.heapTop) (classSize i)
  (p.heapFree.filter (fun q => q.2 == i + 1)).map (·.1) ++
  (if top + classSize i ≤ p.heapbase + p.heapsize then [top] else [])

/-- Allocate `n` bytes: a free choice among the free blocks of the class (R252). -/
def State.halloc (s : State) (part n : Nat) : Nat × State :=
  let p := s.part part
  if n = 0 ∨ 2097152 < n then (0, s.setPart part { p with heapfail := bump p.heapfail })
  else
    let i := (classFor n).getD 15
    let l := p.freeBlocks i
    match l[Config.freeChoice s.tick % l.length]? with
    | none => (0, s.setPart part { p with heapfail := bump p.heapfail })
    | some a =>
      let cut := !p.heapFree.any (fun q => q.1 == a)
      (a, { (s.setPart part { p with
        heap := SMap.set 0 p.heap a (i + 1)
        heapFree := SMap.del p.heapFree a
        heapTop := if cut then a + classSize i - p.heapbase else p.heapTop }) with tick := s.tick + 1 })

/-- Free the block at an address; the status (R253). -/
def State.hfree (s : State) (part a : Nat) : Nat × State :=
  let p := s.part part
  let i := SMap.get 0 p.heap a
  if a = 0 then (1, s)
  else if i = 0 then (2, s)
  else (0, s.setPart part { p with
    heap := SMap.del p.heap a
    heapFree := SMap.set 0 p.heapFree a i })

/-- The size of the live block that holds an address (R254). -/
def Partition.hsize (p : Partition) (a : Nat) : Nat :=
  match p.heap.find? (fun q => decide (q.1 ≤ a) && decide (a < q.1 + classSize (q.2 - 1))) with
  | some q => classSize (q.2 - 1)
  | none => 0

/-- The permission check of the allocator forms. -/
def Fe.heapOk (e : Fe) (go : Out) : Out :=
  if e.v ≠ 0 ∧ !(SMap.get {} (e.s.part e.b.part).aspaces e.b.asid).heapen then e.fault { cause := 5, sub := 28, lanes := e.v } else go

/-- HALLOC: an acquire at dev scope (R255). -/
def execHalloc (x : FmtR) (s : State) : Out :=
  frontEnd (.halloc x) x.g s (fun e => e.heapOk (e.inOrder 1 3 (
    let q := runLanes (fun l s => s.halloc e.b.part (e.g.rd x.a l).toNat) (lanesOf e.v) e.s
    ({ e with s := q.2 } : Fe).result64 x.d (fun l => w64 (oldOf q.1 l)))))
/-- HFREE: a release at dev scope (R255). -/
def execHfree (x : FmtR) (s : State) : Out :=
  frontEnd (.hfree x) x.g s (fun e => e.heapOk (e.inOrder 2 3 (
    let q := runLanes (fun l s => s.hfree e.b.part (e.baseAddr x.a l)) (lanesOf e.v) e.s
    ({ e with s := q.2 } : Fe).result x.d (statusOf q.1))))
/-- HSIZE: an acquire at dev scope (R254). -/
def execHsize (x : FmtR) (s : State) : Out :=
  frontEnd (.hsize x) x.g s (fun e => e.heapOk (e.inOrder 1 3 (
    e.result x.d (fun l => if e.v.getLsbD l then w32 ((e.s.part e.b.part).hsize (e.baseAddr x.a l)) else 0))))

end Sys2Proof.Machine
end

