-- ==== Sys2Proof/Machine/Engines.lean ====
section
/-!
DEFINITION. The copy engine and the memory tiles: what their operations name and check, claim and perform, and the engine forms,
OP 0xDC to 0xE6 (R341 to R356, R359, R299).
-/

namespace Sys2Proof.Machine

/-! ## Ranges -/

/-- A range start moved by `i` bytes. -/
def EAddr.plus : EAddr → Nat → EAddr
  | .sp o, i => .sp (o + i)
  | .far b o, i => .far b (o + i)
  | .gl v, i => .gl (v + i)
  | .mem k, i => .mem (k + i)
  | .zero, _ => .zero
  | .fill w, i => .fill (w.rotateRight (8 * (i % 4)))

/-- Ranges without their first `d` bytes. -/
def dropRanges : Nat → List (EAddr × Nat) → List (EAddr × Nat)
  | _, [] => []
  | d, (a, n) :: r => if n ≤ d then dropRanges (d - n) r else (a.plus d, n - d) :: r

/-- The first `d` bytes of ranges. -/
def takeRanges : Nat → List (EAddr × Nat) → List (EAddr × Nat)
  | _, [] => []
  | d, (a, n) :: r => if d = 0 then [] else if n ≤ d then (a, n) :: takeRanges (d - n) r else [(a, d)]

/-- Bytes that ranges hold. -/
def rangesLen (l : List (EAddr × Nat)) : Nat := (l.map (·.2)).foldl (· + ·) 0

/-- A range of global addresses page by page: start and length. -/
def splitPages (va n : Nat) : List (Nat × Nat) :=
  if n = 0 then []
  else (List.range ((va + n + 65535) / 65536 - va / 65536)).map (fun i =>
    let lo := max va (65536 * (va / 65536 + i))
    (lo, min (va + n) (65536 * (va / 65536 + i + 1)) - lo))

/-- The reach of the engine forms: device memory, and peer memory for CPYP (R344). -/
def engineLimit (peer : Bool) : Xlat → Xlat
  | .at k => if keyTgt k = 0 ∨ (peer = true ∧ keyTgt k = 2) then .at k else .bad 5 25
  | x => x

/-- Translation of a global address for an engine. -/
def State.engineReach (s : State) (core : Nat) (b : Block) (need : Need) (peer : Bool) (va : Nat) : Xlat :=
  engineLimit peer (s.translate b.part core b.asid va need)

/-- Ranges with the global addresses that translate replaced by keys. -/
def State.resolve (s : State) (core : Nat) (b : Block) (need : Need) (peer : Bool) (l : List (EAddr × Nat)) : List (EAddr × Nat) :=
  l.flatMap (fun r => match r.1 with
    | .gl va => (splitPages va r.2).map (fun p => match s.engineReach core b need peer p.1 with
      | .at k => (.mem k, p.2)
      | .zero => (.zero, p.2)
      | _ => (.gl p.1, p.2))
    | _ => [r])

/-- Whether every range translates. -/
def resolved (l : List (EAddr × Nat)) : Bool := l.all (fun r => match r.1 with
  | .gl _ => false
  | _ => true)

/-- The bytes of ranges, memory by key and scratchpad bytes of the core and of the gang's other blocks above every key. -/
def feet (b : Block) (l : List (EAddr × Nat)) : List (Nat × Nat) :=
  l.filterMap (fun r => match r.1 with
    | .sp o => some (2 ^ 80 + b.sbase + o, r.2)
    | .far n o => some (2 ^ 100 + 2 ^ 24 * n + o, r.2)
    | .mem k => some (k, r.2)
    | _ => none)

/-- Whether two lists of byte ranges meet. -/
def feetMeet (l m : List (Nat × Nat)) : Bool := l.any (fun p => m.any (fun q => meets p.1 p.2 q.1 q.2))

/-- The lines of memory that ranges touch. -/
def linesOf (l : List (EAddr × Nat)) : List Nat :=
  (l.flatMap (fun r => match r.1 with
    | .mem k => linesAt k r.2
    | _ => [])).eraseDups

/-! ## Operations of a core in issue order (R347) -/

/-- What a queued operation still reads and writes. -/
structure OpFeet where
  id : Nat
  reads : List (Nat × Nat)
  writes : List (Nat × Nat)

/-- The ranges that a matrix queue entry reads and writes outside the matrix node (R309). -/
def MatWork.ranges : MatWork → List (EAddr × Nat) × List (EAddr × Nat)
  | .obldS _ _ _ n a => ([(a, n)], [])
  | .tfetch _ _ _ _ l => (l, [])
  | .accLd _ a => ([(a, 16384)], [])
  | .drainS _ a _ _ => ([], [(a, 16384)])
  | _ => ([], [])

/-- The key of the byte that a COMMITTED page gives an address, whatever the page permits. -/
def State.pageKey (s : State) (core : Nat) (b : Block) (va : Nat) : Option Nat :=
  let of := fun (bytes e : Nat) => if pteSt e = 2 then some (physKey b.part bytes e va) else none
  match s.tlbHit core b.asid va with
  | some t => of t.bytes t.entry.toNat
  | none =>
    let w := s.walkFor b.part core b.asid va
    if w.kind = .leaf then of (if w.level = 2 then 2 ^ 29 else 65536) w.entry else none

/-- Ranges with the global addresses whose pages are COMMITTED replaced by keys: an operation conflicts by the bytes that it names, also where a
page fails its check and the operation is suspended (R345, R347). -/
def State.named (s : State) (core : Nat) (b : Block) (need : Need) (peer : Bool) (l : List (EAddr × Nat)) : List (EAddr × Nat) :=
  (s.resolve core b need peer l).map (fun r => match r.1 with
    | .gl va => (((s.pageKey core b va).map EAddr.mem).getD r.1, r.2)
    | _ => r)

/-- The operations of the engines and of the matrix queue of a core. -/
def State.opFeet (s : State) (core : Nat) : List OpFeet :=
  let c := s.core core
  let of := fun (id blk : Nat) (peer : Bool) (r w : List (EAddr × Nat)) =>
    let b := c.block blk
    ({ id, reads := feet b (s.named core b .read peer r), writes := feet b (s.named core b .write peer w) } : OpFeet)
  c.copyq.map (fun o => of o.id o.blk o.peer (dropRanges o.done o.reads) (dropRanges o.done o.writes)) ++
  c.tileq.map (fun o => of o.id o.blk false o.reads o.writes) ++
  c.matq.map (fun q => of q.id q.blk false q.work.ranges.1 q.work.ranges.2)

/-- A number above those of the operations that a core holds. -/
def Core.freshOp (c : Core) : Nat :=
  (c.copyq.map (·.id) ++ c.tileq.map (·.id) ++ c.matq.map (·.id)).foldl (fun a i => max a (i + 1)) 1

/-- Whether an operation may read and write its bytes now: no earlier operation of the core conflicts with it, its own claims are the
oldest of the lines it writes, and no other claim that comes before its own holds a line it reads (R299, R347). -/
def State.mayRun (s : State) (core id : Nat) (b : Block) (reads writes : List (EAddr × Nat)) : Bool :=
  let r := feet b reads
  let w := feet b writes
  (s.opFeet core).all (fun o => id ≤ o.id || !(feetMeet o.writes w || feetMeet o.reads w || feetMeet o.writes r)) &&
  (linesOf writes).all (fun n => match (s.dirEntry n).eq with
    | [] => true
    | q :: _ => q == (core, id)) &&
  (linesOf reads).all (fun n => (s.dirEntry n).eq.all (fun q => q.1 == core && id ≤ q.2))

/-! ## Claims and destination sectors (R299, R346) -/

/-- Claim lines for an operation: every kit's copy goes, and the kit wakes (R302). -/
def State.claim (s : State) (core id : Nat) (lines : List Nat) : State :=
  lines.foldl (fun s n =>
    let d := (s.dirEntry n).invalid
    (s.woken (s.dirEntry n).kits).setDir n { d with eq := d.eq ++ [(core, id)] }) s

/-- The destination sectors of an operation. -/
def destsOf (id : Nat) (b : Block) (writes : List (EAddr × Nat)) : List (Nat × Nat × Nat) :=
  writes.filterMap (fun r => match r.1 with
    | .sp o => if r.2 = 0 then none else some (id, b.sbase + o, r.2)
    | _ => none)

/-- An operation has been issued, or is resumed: it claims its lines and lists its sectors. -/
def State.own (s : State) (core id : Nat) (b : Block) (peer : Bool) (writes : List (EAddr × Nat)) : State :=
  let s1 := s.claim core id (linesOf (s.resolve core b .write peer writes))
  let c := s1.core core
  s1.setCore core { c with dests := c.dests.filter (fun d => d.1 != id) ++ destsOf id b writes }

/-- An operation ends: its claims and sectors go. -/
def State.disown (s : State) (core id : Nat) : State :=
  let s1 := s.releaseClaims core [id]
  let c := s1.core core
  s1.setCore core { c with dests := c.dests.filter (fun d => d.1 != id) }

/-! ## Moving bytes -/

/-- Where block `b` of a block's gang is resident: its core and block table entry. -/
def State.gangAt (s : State) (core blk b : Nat) : Option (Nat × Nat) :=
  (s.gangBlocks core blk).find? (fun q => ((s.core q.1).block q.2).b == b)

/-- The bytes of a range. -/
def State.rangeBytes (s : State) (core blk : Nat) (r : EAddr × Nat) : List Byte :=
  match r.1 with
  | .sp o => readList (s.core core).scratch (s.scratchKey core blk o) r.2
  | .far b o => match s.gangAt core blk b with
    | some q => readList (s.core q.1).scratch (s.scratchKey q.1 q.2 o) r.2
    | none => List.replicate r.2 0
  | .mem k => readList s.mem k r.2
  | .fill w => (List.range r.2).map (fun i => (w >>> (8 * (i % 4))).setWidth 8)
  | _ => List.replicate r.2 0

/-- Write bytes into ranges, in order. -/
def State.putRanges (s : State) (core blk : Nat) : List (EAddr × Nat) → List Byte → State
  | [], _ => s
  | (a, n) :: r, l =>
    let v := natOf (l.take n)
    let s1 := match a with
      | .sp o => s.spWrite core blk o n v
      | .far b o => match s.gangAt core blk b with
        | some q => s.spWrite q.1 q.2 o n v
        | none => s
      | .mem k => s.putCells [(k, n, v)]
      | _ => s
    State.putRanges s1 core blk r (l.drop n)

/-- The byte ranges of memory among some ranges, line by line. -/
def memCells (l : List (EAddr × Nat)) : List (Nat × Nat) :=
  l.flatMap (fun r => match r.1 with
    | .mem k => linePieces k r.2
    | _ => [])

/-- Writes of an engine perform: windows that share their lines have acknowledged (R276, R300, R343). -/
def State.performed (s : State) (core slot : Nat) (cells : List (Nat × Nat)) : State :=
  let id := s.freshWrite
  (s.ordered core slot none cells).deliverAll id

/-- Every source byte is read before any destination byte is written (R347). -/
def State.transfer (s : State) (core blk slot : Nat) (reads writes : List (EAddr × Nat)) : State :=
  (s.putRanges core blk writes (reads.flatMap (s.rangeBytes core blk))).performed core slot (memCells writes)

/-- A poisoned word among some ranges (R304). -/
def State.poisonIn (s : State) (core blk : Nat) (l : List (EAddr × Nat)) : Option Nat :=
  l.findSome? (fun r => match r.1 with
    | .mem k => if s.poisonAt k r.2 then some k else none
    | .sp o => if s.poisonAt (spKey core (s.scratchKey core blk o)) r.2 then some o else none
    | .far b o => if (s.gangAt core blk b).any (fun q => s.poisonAt (spKey q.1 (s.scratchKey q.1 q.2 o)) r.2) then some o else none
    | _ => none)

/-! ## Counts and waits (R342, R343, R352, R356) -/

/-- A tag counter. -/
def Group.tag (g : Group) (n : Nat) : Half := SMap.get 0 g.tg n
/-- Change a tag counter. -/
def Group.setTag (g : Group) (n : Nat) (v : Half) : Group := { g with tg := SMap.set 0 g.tg n v }
/-- Whether no tag of a set counts an operation. -/
def Group.tagsDone (g : Group) (tags : Byte) : Bool := (List.range 8).all (fun n => !tags.getLsbD n || g.tag n == 0)
/-- A group that waits in CPYWAIT or MTWAIT issues its word again once what it waits for reads 0 (R352, R356). -/
def Group.wake (g : Group) : Group :=
  match g.st with
  | .waiting (.cpywait tags) => if g.tagsDone tags then { g with st := .running } else g
  | .waiting .mtwait => if g.mtc = 0 then { g with st := .running } else g
  | _ => g
/-- The number of a tag handle. -/
def tagIndex : Opnd → Nat
  | .hnd (.tg n) => n.toNat
  | _ => 0

/-- A copy operation completes: its tag falls (R343). -/
def State.copyDone (s : State) (core : Nat) (o : CopyOp) : State :=
  let s1 := s.disown core o.id
  let c := s1.core core
  let g := c.group o.slot
  s1.setCore core { (c.setGroup o.slot (g.setTag o.tag (g.tag o.tag - 1)).wake) with
    copyq := c.copyq.filter (fun p => p.id != o.id) }

/-- A tile instruction completes: MTC falls. -/
def State.tileDone (s : State) (core : Nat) (o : TileOp) : State :=
  let s1 := s.disown core o.id
  let c := s1.core core
  let g := c.group o.slot
  let g1 := { g with mtc := g.mtc - 1 }
  s1.setCore core { (c.setGroup o.slot g1.wake) with
    tileq := c.tileq.filter (fun p => p.id != o.id) }

/-! ## Checks at issue (R344) -/

/-- The order of R430 on the outcome of a check; a translation that waits comes before all, since no check is complete without it (R232). -/
def checkRank : Xlat → Nat
  | .wait | .held => 0
  | .bad 3 _ => 1
  | .bad 4 _ => 2
  | .bad 5 _ => 3
  | .bad _ _ => 4
  | .absent => 5
  | _ => 6

/-- The first of the gravest outcomes; `.zero` where no check fails. -/
def gravest : List (Nat × Xlat) → Nat × Xlat
  | [] => (0, .zero)
  | q :: r =>
    let w := gravest r
    if checkRank q.2 = 6 then w else if checkRank w.2 < checkRank q.2 then w else q

/-- Alignment. -/
def alignedAt (n a : Nat) : Nat × Xlat := (a, if a % n = 0 then .zero else .bad 3 0)

/-- A scratchpad operand of an engine: the issuing core's own allocation, outside every window (R260, R344). -/
def Fe.ownSpot (e : Fe) (a n : Nat) : Nat × Xlat :=
  if n = 0 then (a, .zero)
  else if a / 2 ^ 31 % 2 = 1 ∧ a / 2 ^ 28 % 8 = 0 ∧ 256 * dieOf e.core + a / 2 ^ 20 % 256 ≠ e.core then (a, .bad 5 24)
  else match e.s.spot e.core e.g.blk a n with
    | .bad sub => (a, .bad 5 sub)
    | .ok p => (a, if p.win.isSome then .bad 5 18 else .zero)

/-- Every page of a global range. -/
def Fe.pagesReach (e : Fe) (need : Need) (va n : Nat) : List (Nat × Xlat) :=
  (splitPages va n).map (fun p => (p.1, e.s.engineReach e.core e.b need false p.1))

/-- The ends of a global range of a bulk form. -/
def endsReach (va n : Nat) : Nat × Xlat := (va, if 2 ^ 56 < va + n then .bad 4 2 else .zero)

/-- Check a bulk form once for the group, naming the lowest lane of V. -/
def Fe.onceChecked (e : Fe) (l : List (Nat × Xlat)) (go : Out) : Out :=
  match gravest l with
  | (a, .bad c sub) => e.fault { cause := c, sub, addr := a, lanes := 1#32 <<< lowest e.v }
  | (_, .absent) => .fault .absentMemory
  | (_, .held) => e.waitIssue
  | _ => go

/-- Check every lane of V, then go on. -/
def Fe.lanesChecked (e : Fe) (f : Nat → List (Nat × Xlat)) (go : Out) : Out :=
  e.checked e.v 1 false (fun l => gravest (f l)) (fun _ => go)

/-! ## Issue (R342, R343) -/

/-- The instructions in the copy queue. -/
def Core.copyInsts (c : Core) : Nat := ((c.copyq.map (·.inst)).eraseDups).length

/-- Enter operations of one copy form, given by the ranges they read and write; the word waits while the queue is full or the tag would
overflow. -/
def Fe.copies (e : Fe) (tag : Nat) (peer : Bool) (l : List (List (EAddr × Nat) × List (EAddr × Nat))) : Out :=
  if 64 ≤ e.c.copyInsts ∨ 65535 < (e.g.tag tag).toNat + l.length then e.waitIssue
  else
    let id := e.c.freshOp
    let ops : List CopyOp := l.mapIdx (fun i q => { id := id + i, inst := id, blk := e.g.blk, slot := e.slot, tag, pc := e.g.pc,
                                                    reads := q.1, writes := q.2, peer, done := 0, susp := none })
    let c := e.c.setGroup e.slot (e.g.setTag tag (e.g.tag tag + BitVec.ofNat 16 l.length)).next
    let s := e.s.setCore e.core { c with copyq := c.copyq ++ ops }
    .next (ops.foldl (fun s o => s.own e.core o.id e.b o.peer o.writes) s)

/-- Enter a memory tile instruction: the tile with fewer queued, tile 0 on a tie (R353). -/
def Fe.tiled (e : Fe) (reads writes : List (EAddr × Nat)) (kind : TileKind) : Out :=
  let n := fun t => (e.c.tileq.filter (fun o => o.tile == t)).length
  let t := if n 1 < n 0 then 1 else 0
  if e.g.mtc = 255 ∨ 8 ≤ n t then e.waitIssue
  else
    let id := e.c.freshOp
    let g := { e.g with mtc := e.g.mtc + 1 }
    let c := e.c.setGroup e.slot g.next
    let s := e.s.setCore e.core { c with
      tileq := c.tileq ++ [{ id, blk := e.g.blk, slot := e.slot, tile := t, reads, writes, kind }] }
    .next (s.own e.core id e.b false writes)

/-- A scratchpad offset of the block's allocation. -/
def spOff (a : Nat) : EAddr := .sp (a % 2 ^ 20)

/-- A global range that has been checked, by its keys. -/
def Fe.pages (e : Fe) (need : Need) (va n : Nat) : List (EAddr × Nat) := e.s.resolve e.core e.b need false [(.gl va, n)]

/-! ## Copies (R349 to R352) -/

/-- CPY32 (R349). -/
def execCpy32 (x : FmtR3) (s : State) : Out :=
  frontEnd (.cpy32 x) x.g s (fun e =>
    if e.v = 0 then e.done e.g
    else
      let out := x.m.getLsbD 0
      let a := fun l => (e.g.rd x.a l).toNat
      let va := fun l => e.baseAddr x.b l
      let n := fun l => min (e.g.rd x.c l).toNat 32
      let need := if out then Need.write else .read
      e.lanesChecked (fun l => [alignedAt 4 (a l), alignedAt 4 (va l), e.ownSpot (a l) (if out then n l else 32)] ++
          e.pagesReach need (va l) (n l))
        (e.copies (tagIndex x.d) false ((lanesOf e.v).map (fun l =>
          let gl := e.pages need (va l) (n l)
          if out then ([(spOff (a l), n l)], gl) else (gl ++ [(.zero, 32 - n l)], [(spOff (a l), 32)])))))

/-- One end of a bulk range: its checks and its address. -/
def Fe.bulkEnd (e : Fe) (global : Bool) (o : Opnd) (n : Nat) : (Nat × Xlat) × EAddr :=
  let l := lowest e.v
  if global then (endsReach (e.baseAddr o l) n, .gl (e.baseAddr o l))
  else (e.ownSpot (e.g.rd o l).toNat n, spOff (e.g.rd o l).toNat)

/-- CPYB (R350). -/
def execCpyb (x : FmtR3) (s : State) : Out :=
  frontEnd (.cpyb x) x.g s (fun e =>
    let n := (e.g.rd x.c (lowest e.v)).toNat
    if e.v = 0 ∨ n = 0 then e.done e.g
    else
      let d := e.bulkEnd (x.m == 1 || x.m == 3) x.a n
      let r := e.bulkEnd (x.m == 0 || x.m == 3) x.b n
      e.onceChecked [d.1, r.1] (e.copies (tagIndex x.d) false [([(r.2, n)], [(d.2, n)])]))

/-- CPYFILL (R350). -/
def execCpyfill (x : FmtR3) (s : State) : Out :=
  frontEnd (.cpyfill x) x.g s (fun e =>
    let n := (e.g.rd x.c (lowest e.v)).toNat
    if e.v = 0 ∨ n = 0 then e.done e.g
    else
      let d := e.bulkEnd (x.m == 1) x.a n
      e.onceChecked [alignedAt 4 d.1.1, (d.1.1, if n % 4 = 0 then .zero else .bad 3 0), d.1]
        (e.copies (tagIndex x.d) false [([(.fill (e.g.rd x.b (lowest e.v)), n)], [(d.2, n)])]))

/-- CPYP (R350): a length above 2^40 is refused with sub-cause 30. Its issue is a release at sys scope (R346). -/
def execCpyp (x : FmtR3) (s : State) : Out :=
  frontEnd (.cpyp x) x.g s (fun e =>
    let n := e.baseAddr x.c (lowest e.v)
    if e.v = 0 ∨ n = 0 then e.done e.g
    else
      let d := e.bulkEnd true x.a n
      let r := e.bulkEnd true x.b n
      let e1 : Fe := { e with g := { e.g with peerTags := e.g.peerTags ||| (1#8 <<< tagIndex x.d) } }
      e.onceChecked [d.1, r.1, (d.1.1, if 2 ^ 40 < n then .bad 5 30 else .zero)]
        (e.inOrder 2 4 (e1.copies (tagIndex x.d) true [([(r.2, n)], [(d.2, n)])])))

/-- Whether an operation that the core holds will write some bytes, or an engine of another core claims their lines (R299, R347). -/
def State.toBeWritten (s : State) (core : Nat) (b : Block) (l : List (EAddr × Nat)) : Bool :=
  (s.opFeet core).any (fun o => feetMeet o.writes (feet b l)) || (linesOf l).any (fun n => !(s.dirEntry n).eq.isEmpty)

/-- The limits of R351 on a shape record. -/
def boxOk (r : Nat) : Bool :=
  let h := shapeOf r
  1 ≤ h.e0 && 1 ≤ h.e1 && 1 ≤ h.e2 && h.lesz ≤ 3 && field r 0xF 1 == 0 && field r 0x18 8 == 0

/-- The rows of a box: the global address of each, in ascending (i2, i1) order. -/
def Shape.rows (h : Shape) : List Nat :=
  (List.range (h.e1 * h.e2)).map (fun i =>
    ((h.va.toNat : Int) + h.s1 * ((i % h.e1 : Nat) : Int) + h.s2 * ((i / h.e1 : Nat) : Int)).toNat)

/-- Whether a row of a box starts below address 0. -/
def Shape.below (h : Shape) : Bool :=
  (List.range (h.e1 * h.e2)).any (fun i =>
    decide ((h.va.toNat : Int) + h.s1 * ((i % h.e1 : Nat) : Int) + h.s2 * ((i / h.e1 : Nat) : Int) < 0))

/-- CPYST (R351). It reads its shape record at issue, and waits while an earlier operation has still to write it (R347). Of two elements of a stored box at the same bytes one remains, by a free choice of the order. -/
def execCpyst (x : FmtR) (s : State) : Out :=
  frontEnd (.cpyst x) x.g s (fun e =>
    if e.v = 0 then e.done e.g
    else
      let l := lowest e.v
      let a := (e.g.rd x.a l).toNat
      let rec_ := (e.g.rd x.b l).toNat
      let r := match e.s.spot e.core e.g.blk rec_ 32 with
        | .ok p => e.s.spRead e.core e.g.blk p.off 32
        | .bad _ => 0
      let h := shapeOf r
      let w := 2 ^ h.lesz
      let row := h.e0 * w
      let wrong := [alignedAt w a, alignedAt w h.va.toNat,
        (h.va.toNat, if h.s1 % w = 0 ∧ h.s2 % w = 0 then .zero else .bad 3 0),
        e.ownSpot a h.size,
        (h.va.toNat, if h.below ∨ h.rows.any (fun v => decide (2 ^ 56 < v + row)) then .bad 4 2 else .zero)]
      e.onceChecked [e.ownSpot rec_ 32] (
        if e.s.toBeWritten e.core e.b [(spOff rec_, 32)] then e.waitIssue
        else if e.s.localPoison e.core e.g.blk 32 rec_ then .next (e.s.blockFatal e.core e.g.blk 0x41 0 rec_)
        else if !boxOk r then e.fault { cause := 5, sub := 22, addr := rec_, lanes := 1#32 <<< l }
        else e.onceChecked wrong (
          let sp := (List.range (h.e1 * h.e2)).map (fun i => (spOff (a + row * i), row))
          let gl := h.rows.map (fun v => (EAddr.gl v, row))
          let back := x.m.getLsbD 0 && Config.freeChoice e.s.tick % 2 == 1
          let e1 : Fe := { e with s := { e.s with tick := e.s.tick + 1 } }
          let q := if x.m.getLsbD 0 then (sp, gl) else (gl, sp)
          e1.copies (tagIndex x.d) false [if back then (q.1.reverse, q.2.reverse) else q])))

/-- The tags that a wait names. -/
def tagsOf (x : FmtR) : Byte := if x.m.getLsbD 0 then 0xFF else 1#8 <<< tagIndex x.d

/-- The acquire of the completed operations of some tags: at sys scope where a CPYP was among them (R346, R352). -/
def Fe.acquireTags (e : Fe) (tags : Byte) (go : Out) : Out := e.inOrder 1 (if e.g.peerTags &&& tags = 0 then 1 else 4) go

/-- CPYWAIT (R352). -/
def execCpywait (x : FmtR) (s : State) : Out :=
  frontEnd (.cpywait x) x.g s (fun e =>
    if e.v = 0 then e.done e.g
    else if !e.g.tagsDone (tagsOf x) then e.waitFor (.cpywait (tagsOf x))
    else e.acquireTags (tagsOf x) (e.done { e.g with peerTags := e.g.peerTags &&& ~~~(tagsOf x) }))

/-- CPYCNT (R352): a count of 0 acquires as a CPYWAIT would. With V empty it changes nothing (R342). -/
def execCpycnt (x : FmtR) (s : State) : Out :=
  frontEnd (.cpycnt x) x.g s (fun e =>
    let n := e.g.tag (tagIndex x.a)
    let r := e.result x.d (fun _ => n.setWidth 32)
    if e.v = 0 then e.done e.g
    else if n = 0 then e.acquireTags (1#8 <<< tagIndex x.a) r
    else r)

/-! ## Memory tiles (R353 to R356) -/

/-- EXT of an index (R354). -/
def tileIndex (sx : Bool) (v : Word) : Dword := if sx then v.signExtend 64 else v.setWidth 64

/-- The address of a lane of GATH and SCAT. -/
def Fe.tileAddr (e : Fe) (x : FmtR) (l : Nat) : Nat :=
  let n := BitVec.ofNat 64 (mmBytes x.m) * tileIndex (x.m.getLsbD 7) (e.g.rd x.b l)
  if x.m.getLsbD 8 then (e.g.rd x.a (lowest e.v) + n.setWidth 32).toNat else (e.g.rd64 x.a (lowest e.v) + n).toNat

/-- GATH and SCAT: `need` is what the lanes' elements must allow; `mk` makes the request of the element and the packed ranges. -/
def tileEffect (x : FmtR) (need : Need) (mk : List (EAddr × Nat) → List (EAddr × Nat) → Fe → Out) (e : Fe) : Out :=
  if e.v = 0 then e.done e.g
  else
    let w := mmBytes x.m
    let sp := x.m.getLsbD 8
    let d := (e.g.rd x.d (lowest e.v)).toNat
    let a := if sp then (e.g.rd x.a (lowest e.v)).toNat else e.baseAddr x.a (lowest e.v)
    let el := e.tileAddr x
    e.lanesChecked (fun l => [alignedAt w d, alignedAt w a, e.ownSpot d (32 * w), alignedAt w (el l)] ++
        (if sp then [e.ownSpot (el l) w] else e.pagesReach need (el l) w))
      (mk ((lanesOf e.v).flatMap (fun l => if sp then [(spOff (el l), w)] else e.pages need (el l) w))
        ((lanesOf e.v).map (fun l => (spOff (d + w * l), w))) e)

/-- GATH (R354). -/
def execGath (x : FmtR) (s : State) : Out :=
  frontEnd (.gath x) x.g s (tileEffect x .read (fun el d e => e.tiled el d .move))

/-- SCAT (R354); a scatter needs W (R216). -/
def execScat (x : FmtR) (s : State) : Out :=
  frontEnd (.scat x) x.g s (tileEffect x .write (fun el d e =>
    e.tiled d el (match fldM x.m 5 2 with
      | 0 => .move
      | op => .add (mmBytes x.m) (op == 2))))

/-- GATHBM (R355): NZ is read at issue, since the pages of the values are checked there, and the word waits while an earlier operation has
still to write it (R347); the slot itself is read when the tile reaches it. -/
def execGathbm (x : FmtR3) (s : State) : Out :=
  frontEnd (.gathbm x) x.g s (fun e =>
    if e.v = 0 then e.done e.g
    else
      let l := lowest e.v
      let w := mmBytes x.m
      let sp := x.m.getLsbD 8
      let d := (e.g.rd x.d l).toNat
      let a := if sp then (e.g.rd x.a l).toNat else e.baseAddr x.a l
      let k := (e.g.rd x.c l).toNat
      let src : Nat → List (Nat × Xlat) := fun n => if sp then [e.ownSpot a n] else e.pagesReach .read a n
      let nz := natOf ((if sp then [(spOff a, 2)] else e.pages .read a 2).flatMap (e.s.rangeBytes e.core e.g.blk))
      let n := 4 + k / 8 + (if nz ≤ k then nz * w else 0)
      e.onceChecked ([alignedAt 4 a, alignedAt 32 d, (a, if k % 32 = 0 ∧ 32 ≤ k ∧ k ≤ 4096 then .zero else .bad 3 0),
          e.ownSpot d (k * w)] ++ src (4 + k / 8))
        (if e.s.toBeWritten e.core e.b (if sp then [(spOff a, 2)] else e.pages .read a 2) then e.waitIssue
         else e.onceChecked (src n)
          (e.tiled (if sp then [(spOff a, n)] else e.pages .read a n) [(spOff d, k * w)] (.expand a k w nz))))

/-- MTWAIT: an acquire of the group's tile instructions (R356). -/
def execMtwait (x : FmtR) (s : State) : Out :=
  frontEnd (.mtwait x) x.g s (fun e =>
    if e.v = 0 then e.done e.g else if e.g.mtc ≠ 0 then e.waitFor .mtwait else e.inOrder 1 1 (e.done e.g))

/-! ## Execution (R345, R347, R353 to R355) -/

/-- What is left of a copy operation, with what translates resolved. -/
def State.copyRest (s : State) (core : Nat) (o : CopyOp) : List (EAddr × Nat) × List (EAddr × Nat) :=
  let b := (s.core core).block o.blk
  (s.resolve core b .read o.peer (dropRanges o.done o.reads), s.resolve core b .write o.peer (dropRanges o.done o.writes))

/-- Whether a debugger holds the engines of a core (R443, R444). -/
def State.enginesHeld (s : State) (core : Nat) : Bool :=
  match s.partOfDie (dieOf core) with
  | some p => (s.part p).dbgctl.getLsbD 0 && (s.part p).dbgctl.getLsbD 1
  | none => false

/-- A copy operation of a core completes. -/
def execCopyComplete (core n : Nat) (s : State) : Out :=
  match (s.core core).copyq[n]? with
  | none => .next s
  | some o =>
    let q := s.copyRest core o
    if o.susp.isSome ∨ s.enginesHeld core ∨ !(resolved q.1 && resolved q.2 && s.mayRun core o.id ((s.core core).block o.blk) q.1 q.2) then .next s
    else match s.poisonIn core o.blk q.1 with
      | some k => .next (s.blockFatal core o.blk 0x41 0 (keyPa k))
      | none => .next ((s.transfer core o.blk o.slot q.1 q.2).copyDone core o)

/-- The 256-byte piece at `d` of the ranges that an operation reads and writes. -/
def pieceOf (d : Nat) (l : List (EAddr × Nat)) : List (EAddr × Nat) := takeRanges 256 (dropRanges d l)

/-- The failures of a piece: address and outcome. -/
def State.pieceFails (s : State) (core : Nat) (b : Block) (o : CopyOp) (d : Nat) : List (Nat × Xlat) :=
  let bad := fun (need : Need) (l : List (EAddr × Nat)) => (s.resolve core b need o.peer l).filterMap (fun r => match r.1 with
    | .gl va => some (va, s.engineReach core b need o.peer va)
    | _ => none)
  bad .read (pieceOf d o.reads) ++ bad .write (pieceOf d o.writes)

/-- The failure at the lowest address. -/
def lowestFail : List (Nat × Xlat) → Option (Nat × Xlat)
  | [] => none
  | q :: r => match lowestFail r with
    | some w => if w.1 < q.1 then some w else some q
    | none => some q

/-- Suspend an operation of a group: a KIND 1 record with bit 15 of SUB set; FAULTINFO does not change (R345). -/
def State.suspendCopy (s : State) (core : Nat) (o : CopyOp) (done cause sub addr : Nat) : State :=
  let s0 := s.releaseClaims core [o.id]
  let c := s0.core core
  let b := c.block o.blk
  let g := c.group o.slot
  let fid := faultId core o.slot c.gen (g.faults + 1)
  let su : Susp := { fid, pc := o.pc, cause, sub := sub + 2 ^ 15, addr := BitVec.ofNat 64 addr, lmask := 0 }
  let s1 := s0.setCore core { (c.setGroup o.slot { g with faults := g.faults + 1 }) with
    copyq := updWhere (fun p => p.id == o.id) (fun p => { p with
      done
      susp := some su }) c.copyq
    dests := c.dests.filter (fun d => d.1 != o.id) ++ destsOf o.id b (dropRanges done o.writes) }
  s1.postFault b.part core
    { kind := 1, gen := c.gen, cause, sub := sub + 2 ^ 15, die := dieOf core, core := core % 256, faultid := fid, lmask := 0, pc := o.pc,
      addr := BitVec.ofNat 64 addr, gridseq := b.gridseq, block := b.b, detail := 0 }

/-- A piece of an operation fails its checks: the pieces before it are performed where they may be, and the operation is suspended. -/
def execEnginePieceFault (core n : Nat) (s : State) : Out :=
  match (s.core core).copyq[n]? with
  | none => .next s
  | some o =>
    let b := (s.core core).block o.blk
    let starts := (List.range ((rangesLen o.writes + 255) / 256)).filterMap (fun i => if o.done ≤ 256 * i then some (256 * i) else none)
    if o.susp.isSome ∨ s.enginesHeld core then .next s
    else match starts.find? (fun d => !(s.pieceFails core b o d).isEmpty) with
      | none => .next s
      | some d =>
        match lowestFail (s.pieceFails core b o d) with
        | some (a, .bad c sub) =>
          let r := s.resolve core b .read o.peer (takeRanges (d - o.done) (dropRanges o.done o.reads))
          let w := s.resolve core b .write o.peer (takeRanges (d - o.done) (dropRanges o.done o.writes))
          let whole := s.copyRest core o
          if s.mayRun core o.id b r w && (s.poisonIn core o.blk r).isNone && !feetMeet (feet b whole.1) (feet b whole.2) then
            .next ((s.transfer core o.blk o.slot r w).suspendCopy core o d c sub a)
          else .next (s.suspendCopy core o o.done c sub a)
        | some (_, .absent) => .fault .absentMemory
        | _ => .next s

/-- Add one lane's value at its element (R354). -/
def State.tileAdd (s : State) (core blk n : Nat) (float : Bool) (src dst : EAddr × Nat) : State :=
  let v := natOf (s.rangeBytes core blk src)
  let old := natOf (s.rangeBytes core blk dst)
  s.putRanges core blk [dst] (bytesOf n (opNew (if float then .fadd else .add) false n old v 0))

/-- The dense elements of a sparse slot (R355): the header's bitmap from byte 4, the packed values behind it. -/
def expandSlot (l : List Byte) (klen w : Nat) : List Byte :=
  let has := fun k => ((l.getD (4 + k / 8) 0).getLsbD (k % 8))
  (List.range klen).flatMap (fun k =>
    if has k then (l.drop (4 + klen / 8 + w * ((List.range k).filter has).length)).take w else List.replicate w 0)

/-- Bits set in the bitmap of a sparse slot. -/
def slotCount (l : List Byte) (klen : Nat) : Nat :=
  ((List.range klen).filter (fun k => (l.getD (4 + k / 8) 0).getLsbD (k % 8))).length

/-- The values of a slot whose NZ another access has raised from `nz` to `m` since it was checked at issue (R355). -/
def State.moreValues (s : State) (core : Nat) (o : TileOp) (a w nz m : Nat) : List (EAddr × Nat) :=
  let n := (m - nz) * w
  if n = 0 then []
  else match o.reads with
    | (.sp off, len) :: _ => [(.sp (off + len), n)]
    | l => s.resolve core ((s.core core).block o.blk) .read false [(.gl (a + rangesLen l), n)]

/-- Whether a tile reads its destination: an add does (R354, R304). -/
def TileKind.consumes : TileKind → Bool
  | .add .. => true
  | _ => false

/-- The oldest instruction of a memory tile completes; its lanes perform in ascending order (R353). -/
def execTileComplete (core tile : Nat) (s : State) : Out :=
  match (s.core core).tileq.find? (fun o => o.tile == tile) with
  | none => .next s
  | some o =>
    if s.enginesHeld core || !s.mayRun core o.id ((s.core core).block o.blk) o.reads o.writes then .next s
    else match s.poisonIn core o.blk (o.reads ++ (if o.kind.consumes then o.writes else [])) with
      | some k => .next (s.blockFatal core o.blk 0x41 0 (keyPa k))
      | none => match o.kind with
        | .move =>
          let s1 := (o.reads.zip o.writes).foldl (fun (s : State) q => s.putRanges core o.blk [q.2] (s.rangeBytes core o.blk q.1)) s
          .next ((s1.performed core o.slot (memCells o.writes)).tileDone core o)
        | .add n float =>
          let s1 := (o.reads.zip o.writes).foldl (fun s q => s.tileAdd core o.blk n float q.1 q.2) s
          .next ((s1.performed core o.slot (memCells o.writes)).tileDone core o)
        | .expand a k w nz =>
          let l := o.reads.flatMap (s.rangeBytes core o.blk)
          let m := natOf (l.take 2)
          if k < m ∨ slotCount l k ≠ m then .next ((s.coreFault core o.blk 0x22 0 a detailNone).tileDone core o)
          else
            let more := s.moreValues core o a w (if k < nz then 0 else nz) m
            if !resolved more then .next s
            else match s.poisonIn core o.blk more with
            | some k => .next (s.blockFatal core o.blk 0x41 0 (keyPa k))
            | none =>
              .next ((s.putRanges core o.blk o.writes (expandSlot (l ++ more.flatMap (s.rangeBytes core o.blk)) k w)).tileDone core o)

end Sys2Proof.Machine
end

