-- ==== Sys2Proof/Machine/Matrix.lean ====
section
/-!
DEFINITION. The matrix node: reservations, tiles, the matrix queue and its execution, OP 0xE7 to 0xF5 apart from CVDECL (R305 to R323,
R357, R358).
-/

namespace Sys2Proof.Machine

/-! ## Formats and widths (R306, R307) -/

/-- Width classes. -/
inductive WidthClass where
  | c16 | c8f | c8i | c4f | c4i
deriving DecidableEq, Repr

/-- The class of a reservation's FMT. -/
def widthClass (fmt : Nat) : Option WidthClass :=
  match fmt with
  | 2 | 3 => some .c16
  | 4 | 5 | 6 | 7 => some .c8f
  | 0x10 | 0x18 => some .c8i
  | 8 => some .c4f
  | 0x14 | 0x1C => some .c4i
  | _ => none

/-- K per MMA. -/
def WidthClass.k : WidthClass → Nat
  | .c16 => 32
  | .c8f | .c8i => 64
  | _ => 128
/-- Bits that an element occupies. -/
def WidthClass.bits : WidthClass → Nat
  | .c16 => 16
  | .c8f | .c8i => 8
  | _ => 4
/-- Whether the class holds integers. -/
def WidthClass.int : WidthClass → Bool
  | .c8i | .c4i => true
  | _ => false

/-- Bits of an element of a FMT. -/
def fmtWidth (fmt : Nat) : Nat := ((widthClass fmt).map (·.bits)).getD 8
/-- K of a FMT. -/
def fmtK (fmt : Nat) : Nat := ((widthClass fmt).map (·.k)).getD 64

/-- Round up to a multiple. -/
def roundUpTo (n m : Nat) : Nat := (n + m - 1) / m * m

/-- Bytes of a sparse row slot. -/
def slotBytes (fmt klen : Nat) : Nat := roundUpTo (4 + klen / 8 + klen * fmtWidth fmt / 8) 32

/-- A reservation record (R306), without its place. -/
def resvOf (r : Nat) : Resv :=
  { blk := 0, name := 0, off := 0, len := 0, fmt := field r 0 1, scaled := (field r 1 1).testBit 0, sparse := (field r 1 1).testBit 1,
    rows := field r 2 1, klen := field r 4 2, sofs := field r 8 4, pinned := [] }

/-- DS. -/
def Resv.dataBytes (v : Resv) : Nat :=
  if v.sparse then v.rows * slotBytes v.fmt v.klen else v.rows * v.klen * fmtWidth v.fmt / 8
/-- The range length. -/
def Resv.rangeBytes (v : Resv) : Nat :=
  roundUpTo (max v.dataBytes (if v.scaled then v.sofs + v.rows * v.klen / 32 else 0)) 256

/-- The limits of R306 on a reservation record. -/
def resvOk (r : Nat) : Bool :=
  let v := resvOf r
  match widthClass v.fmt with
  | none => false
  | some c =>
    field r 1 1 < 4 && !(v.scaled && c.int) && 1 ≤ v.rows && v.rows ≤ 64 && field r 3 1 == 0 && field r 6 2 == 0 && field r 0xC 4 == 0 &&
    v.klen != 0 && v.klen % (if v.sparse then 2 * c.k else c.k) == 0 &&
    (if v.scaled then v.sofs % 32 == 0 && v.dataBytes ≤ v.sofs else v.sofs == 0) && v.rangeBytes ≤ 131072

/-- Bytes of the operand buffer (R211). -/
def opbufBytes : Nat := 131072

/-- The lowest free run of 256-byte granules of the operand buffer. -/
def Core.obFree (c : Core) (n : Nat) : Option Nat :=
  ((List.range (opbufBytes / 256)).map (256 * ·)).find? (fun o =>
    o + n ≤ opbufBytes && !c.resv.any (fun v => meets o n v.off v.len))

/-! ## Names -/

/-- The number of an ob handle. -/
def obIndex : Opnd → Nat
  | .hnd (.ob n) => n.toNat
  | _ => 0
/-- The number of a tile. -/
def accIndex : Opnd → Nat
  | .hnd (.acc n) => n.toNat
  | _ => 0
/-- The convergence register of an MMA, if it names one. -/
def cvOf : Opnd → Option Nat
  | .hnd (.cv n) => some n.toNat
  | _ => none

/-- A block's reservation by name. -/
def Core.reservation (c : Core) (blk name : Nat) : Option Resv := c.resv.find? (fun v => v.blk == blk && v.name == name)
/-- Whether a block has claimed a tile. -/
def Core.claimed (c : Core) (blk t : Nat) : Bool := SMap.get 0 c.claims t == blk + 1

/-! ## The queue (R309) -/

/-- The tile that an entry touches. -/
def MatWork.tile : MatWork → Option Nat
  | .accZero t | .accLd t _ | .drainS t _ _ _ | .drainC t _ _ => some t
  | .mma _ t _ _ _ => some t
  | _ => none
/-- The handles that an entry names. -/
def MatWork.handles : MatWork → List Nat
  | .obldS o _ _ _ _ | .obldR o _ _ | .tfetch o _ _ _ _ | .tfrel o => [o]
  | .mma _ _ a b _ => [a, b]
  | _ => []
/-- Whether two entries must keep their order: they touch one tile, which may have passed from one block to another between them, or one
reservation of a block (R309). -/
def MatEntry.conflicts (p q : MatEntry) : Bool :=
  (p.work.tile.isSome && p.work.tile == q.work.tile) ||
  (p.blk == q.blk && !(p.work.isMma && q.work.isMma) && p.work.handles.any (fun o => q.work.handles.contains o))

/-- The drain node of a block's loaded region: the placed image and the node's destination (R310 sub-cause 8, R321). -/
def Core.drainDest (c : Core) (blk : Nat) : Option (Nat × Option Dest) :=
  c.placed.findSome? (fun p =>
    if p.2.blk == blk && p.2.region.isSome && p.2.region != some .loading then
      (p.2.nodes.find? (fun q => q.2.kind == 4)).map (fun q => (p.1, p.2.dest p.1 q.2.route))
    else none)

/-- Whether the drain port of a block cannot send now. -/
def Core.drainBlocked (c : Core) (blk : Nat) : Bool :=
  match c.drainDest blk with
  | some (pi, some d) => (c.placedAt pi).frozen || !c.space d
  | _ => true

/-- Whether entry `n` may start: no earlier entry conflicts, waits to start as a round, or is a blocked drain (R309, R321). -/
def Core.matFree (c : Core) (n : Nat) (q : MatEntry) : Bool :=
  (c.matq.take n).all (fun p => !p.conflicts q && !(p.work.isMma && !p.started) && !(p.work.isDrainC && c.drainBlocked p.blk))

/-- Whether entry `n` may be executed now: also no engine operation comes before it at its bytes (R347). -/
def State.matRun (s : State) (core n : Nat) (q : MatEntry) : Bool :=
  let c := s.core core
  c.matFree n q && s.mayRun core q.id (c.block q.blk) q.work.ranges.1 q.work.ranges.2

/-- Enter work for groups of a block. -/
def Core.matEnter (c : Core) (blk : Nat) (signers : List Nat) (work : MatWork) : Core :=
  { c with matq := c.matq ++ [{ id := c.freshOp, blk, signers, work, started := false, half := false }] }

/-- Enter work at issue; the word waits while the queue is full. -/
def Fe.matIssue (e : Fe) (work : MatWork) (f : Core → Core := id) : Out :=
  if 16 ≤ e.c.matq.length then e.waitIssue
  else e.arrives 1 <| .next (e.s.setCore e.core (f ((e.c.setGroup e.slot e.g.next).matEnter e.g.blk [e.slot] work)))

/-- The groups of a block that wait at MWAIT, with what they wait for changed; those with nothing left depart (R322). -/
def Core.mwaits (c : Core) (blk : Nat) (f : List Nat → List Nat → List Nat × List Nat) : Core :=
  (c.block blk).slots.foldl (fun (c : Core) i =>
    match (c.group i).st with
    | .waiting (.mwait ids cvs) =>
      let q := f ids cvs
      let g := c.group i
      c.setGroup i (if q.1.isEmpty && q.2.isEmpty then { g with
        st := .running
        pc := g.pc + 8 } else { g with st := .waiting (.mwait q.1 q.2) })
    | _ => c) c

/-- An entry completes. -/
def State.matDone (s : State) (core : Nat) (q : MatEntry) : State :=
  let s1 := s.disown core q.id
  let c := s1.core core
  let c := { c with matq := c.matq.filter (fun p => p.id != q.id) }
  s1.setCore core (c.mwaits q.blk (fun ids cvs => (ids.filter (· != q.id), cvs)))

/-! ## Checks (R310) -/

/-- An OB_OVERRUN. It names the lowest lane of ACT; TFETCH and TFREL, checked as engine forms are, name the lowest of V (R232, R344). -/
def Fe.overrun (e : Fe) (sub : Nat) (lane : Nat := lowest e.act) : Out := e.fault { cause := 0xB, sub, lanes := 1#32 <<< lane }

/-- A misaligned fault of a matrix form. -/
def Fe.matMis (e : Fe) (addr : Nat) (lane : Nat := lowest e.act) : Out := e.fault { cause := 3, addr, lanes := 1#32 <<< lane }

/-- A permission fault of a matrix form's scratchpad operand. -/
def Fe.matRefused (e : Fe) (a sub : Nat) : Out := e.fault { cause := 5, sub, addr := a, lanes := 1#32 <<< lowest e.act }

/-- The range at a spot of a block's own allocation, or of another block of its gang (R259). -/
def Fe.spotAddr (e : Fe) (p : Spot) : EAddr :=
  if p.core = e.core ∧ p.blk = e.g.blk then .sp p.off else .far ((e.s.core p.core).block p.blk).b p.off

/-- The scratchpad checks of R260 on a range that OBLD.s or ACCINIT.ld reads or MDRAIN.s writes, which come last; bytes inside a mapped window
are refused with sub-cause 18 (R310). -/
def Fe.matSpot (e : Fe) (a n : Nat) (go : EAddr → Out) : Out :=
  match e.s.spot e.core e.g.blk a n with
  | .bad sub => e.matRefused a sub
  | .ok p => if p.win.isSome then e.matRefused a 18 else go (e.spotAddr p)

/-- An operand of a matrix form, from the lowest lane of ACT. -/
def Fe.matOp (e : Fe) (o : Opnd) : Nat := (e.g.rd o (lowest e.act)).toNat

/-- READ A RECORD FROM SCRATCHPAD for the group, as a plain load: the checks of R260 on all of it, the waits of R282 and R346, the fills of a
mapped window (R267), poison (R304). -/
def Fe.recordRead (e : Fe) (a n : Nat) (go : Fe → Nat → Out) : Out :=
  match e.s.spot e.core e.g.blk a n with
  | .bad sub => e.matRefused a sub
  | .ok p =>
    let rs := (List.range n).map (fun i =>
      let r := e.s.localReach e.core e.g.blk .load 1 (a + i)
      (i, r.1, e.answered r.1 r.2))
    match gravest (rs.map (·.2)) with
    | (va, .wait) => e.waitFor (.translation [(lowest e.act, va)])
    | (_, .held) => e.waitIssue
    | (va, .bad c sub) => e.fault { cause := c, sub, addr := va, lanes := 1#32 <<< lowest e.act }
    | (_, .absent) => .fault .absentMemory
    | _ =>
      let keys := rs.map (fun r => (r.1, r.2.2.key))
      if e.s.destWait e.core e.g.blk n a || e.s.staleAt e.core e.slot e.g.blk n a || keys.any (fun r => r.2.any (fun k => !(e.s.dirEntry (lineOf k)).eq.isEmpty)) then
        e.waitIssue
      else
        let s1 := (e.s.fillAll e.core e.g.blk 1 (a + ·) keys).loadLines e.core e.slot 0 (laneCells keys 32)
        if s1.localPoison e.core e.g.blk n a then .next (s1.blockFatal e.core e.g.blk 0x41 0 0)
        else
          let s2 := s1.observeLocal e.core e.slot e.g.blk n a
          go { e with
            s := s2
            c := s2.core e.core } (s2.spRead p.core p.blk p.off n)

/-! ## Reservations (R306, R313) -/

/-- OBRSV: the range is zero before any later entry reads it. -/
def execObrsv (x : FmtR) (s : State) : Out :=
  frontEnd (.obrsv x) x.g s (fun e =>
    if e.act = 0 then e.done e.g
    else if (e.c.reservation e.g.blk (obIndex x.d)).isSome ∨ 32 ≤ e.c.resv.length then e.overrun 6
    else
      let a := e.matOp x.a
      e.recordRead a 16 (fun e r =>
        match e.c.obFree (resvOf r).rangeBytes with
        | none => e.overrun 6
        | some o =>
          if !resvOk r then e.overrun 6
          else
            let v := { resvOf r with blk := e.g.blk, name := obIndex x.d, off := o, len := (resvOf r).rangeBytes }
            let c := e.c.setGroup e.slot e.g.next
            .next (e.s.setCore e.core { c with
              resv := c.resv ++ [v]
              opbuf := clearRange c.opbuf o v.len })))

/-- OBREL: waits for every entry that names the handle. -/
def execObrel (x : FmtR) (s : State) : Out :=
  frontEnd (.obrel x) x.g s (fun e =>
    let n := obIndex x.d
    if e.act = 0 then e.done e.g
    else if (e.c.reservation e.g.blk n).isNone then e.overrun 1
    else if e.c.matq.any (fun q => q.blk == e.g.blk && q.work.handles.contains n) then e.waitIssue
    else
      let c := e.c.setGroup e.slot e.g.next
      .next (e.s.setCore e.core { c with resv := c.resv.filter (fun v => !(v.blk == e.g.blk && v.name == n)) }))

/-! ## Loading (R314, R315, R357, R358) -/

/-- OBLD.s. -/
def execObldS (x : FmtR3) (s : State) : Out :=
  frontEnd (.obldS x) x.g s (fun e =>
    if e.act = 0 then e.done e.g
    else
      let a := e.matOp x.a
      let o := e.matOp x.b
      let n := e.matOp x.c
      match e.c.reservation e.g.blk (obIndex x.d) with
      | none => e.overrun 1
      | some v =>
        if a % 32 ≠ 0 then e.matMis a
        else if o % 32 ≠ 0 ∨ n % 32 ≠ 0 ∨ n < 32 then e.matMis 0
        else if v.len < o + n then e.overrun 4
        else e.matSpot a n (fun q => e.matIssue (.obldS v.name a o n q)))

/-- OBLD.r. -/
def execObldR (x : FmtR3) (s : State) : Out :=
  frontEnd (.obldR x) x.g s (fun e =>
    if e.act = 0 then e.done e.g
    else
      let o := e.matOp x.b
      match e.c.reservation e.g.blk (obIndex x.d) with
      | none => e.overrun 1
      | some v =>
        if v.sparse then e.overrun 5
        else if o % 128 ≠ 0 then e.matMis 0
        else if v.len < o + 128 then e.overrun 4
        else e.matIssue (.obldR v.name o ((lanesOf e.v).map (fun l => (l, e.g.rd x.a l)))))

/-- TFETCH (R357). -/
def execTfetch (x : FmtR3) (s : State) : Out :=
  frontEnd (.tfetch x) x.g s (fun e =>
    if e.v = 0 then e.done e.g
    else
      let l := lowest e.v
      let va := e.baseAddr x.a l
      let o := (e.g.rd x.b l).toNat
      let n := (e.g.rd x.c l).toNat
      match e.c.reservation e.g.blk (obIndex x.d) with
      | none => e.overrun 1 l
      | some v =>
        if va % 32 ≠ 0 then e.matMis va l
        else if o % 32 ≠ 0 ∨ n % 32 ≠ 0 ∨ n < 32 then e.matMis 0 l
        else if v.len < o + n then e.overrun 4 l
        else e.onceChecked (e.pagesReach .read va n) (e.matIssue (.tfetch v.name o n va (e.pages .read va n))))

/-- TFREL (R358). -/
def execTfrel (x : FmtR) (s : State) : Out :=
  frontEnd (.tfrel x) x.g s (fun e =>
    if e.v = 0 then e.done e.g
    else if (e.c.reservation e.g.blk (obIndex x.d)).isNone then e.overrun 1 (lowest e.v)
    else e.matIssue (.tfrel (obIndex x.d)))

/-- Claim a tile for a block. -/
def Core.claimTile (c : Core) (blk t : Nat) : Core := { c with claims := SMap.set 0 c.claims t (blk + 1) }

/-- ACCINIT, with its scratchpad address for `.ld` (R315). -/
def accinitEffect (t : Nat) (addr : Option Nat) (e : Fe) : Out :=
  let owner := SMap.get 0 e.c.claims t
  if e.act = 0 then e.done e.g
  else if owner ≠ 0 ∧ owner ≠ e.g.blk + 1 then e.overrun 7
  else match addr with
    | none => e.matIssue (.accZero t) (fun c => c.claimTile e.g.blk t)
    | some a =>
      if a % 256 ≠ 0 then e.matMis a
      else e.matSpot a 16384 (fun q => e.matIssue (.accLd t q) (fun c => c.claimTile e.g.blk t))

/-- ACCINIT.ZERO. -/
def execAccinitZero (x : FmtR) (s : State) : Out := frontEnd (.accinitZero x) x.g s (accinitEffect (accIndex x.d) none)
/-- ACCINIT.LD. -/
def execAccinitLd (x : FmtR) (s : State) : Out :=
  frontEnd (.accinitLd x) x.g s (fun e => accinitEffect (accIndex x.d) (some (e.matOp x.a)) e)

/-! ## Tiles (R308, R316) -/

/-- A word of a tile. -/
def Core.tileWord (c : Core) (t i j : Nat) : Word := SMap.get 0 c.acc (4096 * t + 64 * i + j)

/-- Replace every word of a tile. -/
def Core.setTile (c : Core) (t : Nat) (f : Nat → Word) : Core :=
  let new := (List.range 4096).filterMap (fun i => if f i = 0 then none else some (4096 * t + i, f i))
  { c with acc := c.acc.filter (fun p => p.1 < 4096 * t) ++ new ++ c.acc.filter (fun p => 4096 * (t + 1) ≤ p.1) }

/-- Whether an entry of the queue names a tile. -/
def Core.tileBusy (c : Core) (t : Nat) : Bool := c.matq.any (fun q => q.work.tile == some t)

/-- ACCRD (R316). -/
def execAccrd (x : FmtR) (s : State) : Out :=
  frontEnd (.accrd x) x.g s (fun e =>
    let t := accIndex x.a
    if e.act = 0 then e.done e.g
    else if !e.c.claimed e.g.blk t then e.overrun 7
    else if 63 < e.matOp x.b then e.overrun 4
    else if e.c.tileBusy t then e.waitIssue
    else
      let r := e.matOp x.b
      if x.m.getLsbD 1 then e.result64 x.d (fun l => e.c.tileWord t r (2 * l + 1) ++ e.c.tileWord t r (2 * l))
      else e.result x.d (fun l => e.c.tileWord t r ((if x.m.getLsbD 0 then 32 else 0) + l)))

/-! ## Signing and firing (R317) -/

/-- A round fires: it enters the queue, or, where the block's declaration could never cover it, raises the power-share overdraw fault and
is discarded (R309, R435). -/
def State.fireRound (s : State) (core blk : Nat) (signers : List Nat) (work : MatWork) (cv : Option Nat) : State :=
  let c := s.core core
  let n := cv.getD 16
  if (c.block blk).kd.shares < 6 then
    let s1 := s.setCore core (c.mwaits blk (fun ids cvs => (ids, cvs.filter (· != n))))
    s1.coreFault core blk 0x25 0 0 detailNone
  else s.setCore core (((c.count 0x0A 1).matEnter blk signers work).mwaits blk (fun ids cvs =>
    if cvs.contains n then (ids ++ [c.freshOp], cvs.filter (· != n)) else (ids, cvs)))

/-- The checks of an MMA or MMAS; the K-step's length is doubled for MMAS. -/
def Fe.mmaCheck (e : Fe) (sparse : Bool) (x : FmtR3) (go : Resv → Resv → Out) : Out :=
  let dead := match cvOf x.c with
    | some n => (SMap.get ({} : Cv) e.b.cvs n).decl == 0
    | none => false
  match e.c.reservation e.g.blk (obIndex x.a), e.c.reservation e.g.blk (obIndex x.b) with
  | some va, some vb =>
    let k := (if sparse then 2 else 1) * fmtK va.fmt
    let k0 := fldM x.m 0 8 * k
    if dead then e.overrun 1
    else if !e.c.claimed e.g.blk (accIndex x.d) then e.overrun 7
    else if va.sparse ≠ sparse ∨ vb.sparse then e.overrun 3
    else if widthClass va.fmt ≠ widthClass vb.fmt then e.overrun 2
    else if va.klen < k0 + k ∨ vb.klen < k0 + k then e.overrun 0
    else go va vb
  | _, _ => e.overrun 1

/-- Whether reduced service lacks the form: its operands are not both bf16. A word's checks hold whatever its guard (R60, R452). -/
def Fe.mmaReduced (e : Fe) (x : FmtR3) : Bool :=
  e.s.devstate == 1 && match e.c.reservation e.g.blk (obIndex x.a), e.c.reservation e.g.blk (obIndex x.b) with
    | some va, some vb => !(va.fmt == 3 && vb.fmt == 3)
    | _, _ => false

/-- MMA and MMAS: sign a round, or fire at once. The issue is a release at blk scope (R279, R311). -/
def mmaEffect (sparse : Bool) (x : FmtR3) (e : Fe) : Out :=
  let t := accIndex x.d
  let a := obIndex x.a
  let b := obIndex x.b
  if e.mmaReduced x then e.fault { cause := 1 }
  else if e.act = 0 then e.done e.g
  else e.mmaCheck sparse x (fun _ _ => e.arrives 1 <|
    let full := decide (16 ≤ e.c.matq.length) && decide (6 ≤ e.b.kd.shares)
    let work := MatWork.mma sparse t a b x.m
    match cvOf x.c with
    | none => if full then e.waitIssue else .next ((e.put e.g.next).fireRound e.core e.g.blk [e.slot] work none)
    | some n =>
      let v := SMap.get ({} : Cv) e.b.cvs n
      if v.signers.contains e.slot then e.waitIssue
      else if !v.signers.isEmpty ∧ (v.sparse, v.d, v.a, v.b, v.m) ≠ (sparse, t, a, b, x.m) then
        e.fault { cause := 0xA, lanes := 1#32 <<< lowest e.act }
      else if v.signers.length + 1 < v.decl then
        .next ((e.put e.g.next).setBlock e.core e.g.blk
          { e.b with cvs := SMap.set ({} : Cv) e.b.cvs n { decl := v.decl, signers := v.signers ++ [e.slot], sparse, d := t, a, b, m := x.m } })
      else if full then e.waitIssue
      else
        let s1 := (e.put e.g.next).setBlock e.core e.g.blk { e.b with cvs := SMap.set ({} : Cv) e.b.cvs n { decl := v.decl } }
        .next (s1.fireRound e.core e.g.blk (v.signers ++ [e.slot]) work (some n)))

/-- MMA. -/
def execMma (x : FmtR3) (s : State) : Out := frontEnd (.mma x) x.g s (mmaEffect false x)
/-- MMAS. -/
def execMmas (x : FmtR3) (s : State) : Out := frontEnd (.mmas x) x.g s (mmaEffect true x)

/-! ## Draining and waiting (R321, R322) -/

/-- MDRAIN.s. -/
def execMdrainS (x : FmtR) (s : State) : Out :=
  frontEnd (.mdrainS x) x.g s (fun e =>
    let t := accIndex x.d
    if e.act = 0 then e.done e.g
    else if !e.c.claimed e.g.blk t then e.overrun 7
    else
      let a := e.matOp x.a
      if a % 256 ≠ 0 then e.matMis a
      else e.matSpot a 16384 (fun q => e.matIssue (.drainS t q (x.m.getLsbD 1) (x.m.getLsbD 2))))

/-- MDRAIN.c. -/
def execMdrainC (x : FmtR) (s : State) : Out :=
  frontEnd (.mdrainC x) x.g s (fun e =>
    let t := accIndex x.d
    if e.act = 0 then e.done e.g
    else if !e.c.claimed e.g.blk t then e.overrun 7
    else if (e.c.drainDest e.g.blk).isNone then e.overrun 8
    else e.matIssue (.drainC t (x.m.getLsbD 1) (x.m.getLsbD 2)))

/-- MWAIT. It names a tile unless `.all` is set, and faults where its block has not claimed it (R308). It is the acquire side of R279's row: the
group takes over what the block's groups know of writes, those that issued the entries among them (R311). -/
def execMwait (x : FmtR) (s : State) : Out :=
  frontEnd (.mwait x) x.g s (fun e =>
    let all := x.m.getLsbD 0
    let t := accIndex x.d
    let ids := (e.c.matq.filter (fun q => q.blk == e.g.blk && (all || q.work.tile == some t))).map (·.id)
    let cvs := (e.b.cvs.filter (fun p => p.2.signers.contains e.slot && (all || p.2.d == t))).map (·.1)
    if e.act = 0 then e.done e.g
    else if !all && !e.c.claimed e.g.blk t then e.overrun 7
    else
      let e1 : Fe := { e with s := e.s.learn e.core [e.slot] e.b.slots }
      if ids.isEmpty ∧ cvs.isEmpty then e1.done e.g else e1.waitFor (.mwait ids cvs))

/-! ## The sums (R318 to R320) -/

/-- Operand-buffer bytes of a reservation. -/
def Core.obRead (c : Core) (v : Resv) (o n : Nat) : Nat := readBytes c.opbuf (v.off + o) n

/-- One block of 32 elements of a row: their codes, whether each is present, and the scale code. -/
structure RowBlock where
  codes : List Nat
  here : List Bool
  scale : Nat

/-- The code of element `n` of a packed run at an offset. -/
def Core.obElem (c : Core) (v : Resv) (o n : Nat) : Nat :=
  let w := fmtWidth v.fmt
  c.obRead v (o + n * w / 8) ((w + 7) / 8) / 2 ^ (n * w % 8) % 2 ^ w

/-- Whether element `k` of a row of a sparse slot is present. -/
def Core.obHas (c : Core) (v : Resv) (slot k : Nat) : Bool := (c.obRead v (slot + 4 + k / 8) 1).testBit (k % 8)

/-- Block `q` of a row. -/
def Core.rowBlock (c : Core) (v : Resv) (row q : Nat) : RowBlock :=
  let ks := (List.range 32).map (fun i => 32 * q + i)
  let scale := if v.scaled then c.obRead v (v.sofs + row * v.klen / 32 + q) 1 else 0x7F
  if v.sparse then
    let slot := row * slotBytes v.fmt v.klen
    { here := ks.map (c.obHas v slot)
      codes := ks.map (fun k => if c.obHas v slot k then
        c.obElem v (slot + 4 + v.klen / 8) ((List.range k).filter (c.obHas v slot)).length else 0)
      scale }
  else { here := ks.map (fun _ => true), codes := ks.map (fun k => c.obElem v 0 (row * v.klen + k)), scale }

/-- The decoded value of a code of a floating FMT. -/
def obValue (fmt code : Nat) : Num :=
  let f := fmtD fmt
  f.value (code % 2 ^ f.bits)

/-- The exact scaled sum of one block; a NaN scale poisons it. -/
def blockSum (fa fb : Nat) (x y : RowBlock) : Num :=
  if x.scale = 0xFF ∨ y.scale = 0xFF then .nan
  else
    let prods := (x.codes.zip (x.here.zip y.codes)).map (fun p =>
      if p.2.1 then Num.mul (obValue fa p.1) (obValue fb p.2.2) else .fin false 0 0)
    (exactSum false prods).scale ((x.scale : Int) + (y.scale : Int) - 254)

/-- The accumulation of one floating element over its blocks, in ascending order. -/
def mmaFloat (fa fb : Nat) (xs ys : List RowBlock) (acc : Nat) : Nat :=
  (xs.zip ys).foldl (fun a p => f32.addC plainArith a (f32.narrow .rne false (blockSum fa fb p.1 p.2))) acc

/-- A code of an integer FMT. -/
def obInt (fmt code : Nat) : Int := intOfBits (intOfType fmt).1 (fmtWidth fmt) code

/-- The exact sum of the products of an integer element. -/
def mmaInt (fa fb : Nat) (xs ys : List RowBlock) : Int :=
  (xs.zip ys).foldl (fun a p => (p.1.codes.zip (p.1.here.zip p.2.codes)).foldl (fun a q =>
    if q.2.1 then a + obInt fa q.1 * obInt fb q.2.2 else a) a) 0

/-- A block with no element present, for rows of A beyond ROWS: every product is +0. -/
def zeroBlock : RowBlock := { codes := List.replicate 32 0, here := List.replicate 32 false, scale := 0x7F }

/-- The blocks of the K-step of each of the 64 rows. -/
def Core.kRows (c : Core) (v : Resv) (q0 n : Nat) : List (List RowBlock) :=
  (List.range 64).map (fun i => (List.range n).map (fun q => if i < v.rows then c.rowBlock v i (q0 + q) else zeroBlock))

/-- SKIPSPECIAL of one pair of blocks: skipped positions whose B element is NaN or Inf, or all of them where B's scale is 0xFF. -/
def skipSpecial (fb : Nat) (x y : RowBlock) : Nat :=
  ((x.here.zip y.codes).filter (fun p => !p.1 && (y.scale == 0xFF || (match obValue fb p.2 with
    | .fin _ _ _ => false
    | _ => true)))).length

/-- The new tile of a round. A row of A or B beyond its ROWS makes every product +0, and a NaN scale of the other row still poisons the block
(R318). -/
def Core.mmaTile (c : Core) (t : Nat) (va vb : Resv) (z : Bool) (xs ys : List (List RowBlock)) : Core :=
  let int := ((widthClass va.fmt).map (·.int)).getD false
  let new := (List.range 64).flatMap (fun i => (List.range 64).map (fun j =>
    let old : Word := if z then 0 else c.tileWord t i j
    let a := if j < vb.rows then xs.getD i [] else (xs.getD i []).map (fun p => { p with here := List.replicate 32 false })
    let b := ys.getD j []
    if int then BitVec.ofInt 32 (old.toInt + mmaInt va.fmt vb.fmt a b)
    else w32 (mmaFloat va.fmt vb.fmt a b old.toNat)))
  c.setTile t (fun i => new.getD i 0)

/-- A round's effect on its tile and on the block's SKIPSPECIAL count; the handles' pinned lines are unpinned (R357). -/
def Core.runMma (c : Core) (blk : Nat) (sparse : Bool) (t a b : Nat) (m : BitVec 12) : Core :=
  match c.reservation blk a, c.reservation blk b with
  | some va, some vb =>
    let n := (if sparse then 2 else 1) * fmtK va.fmt / 32
    let q0 := fldM m 0 8 * n
    let xs := c.kRows va q0 n
    let ys := c.kRows vb q0 n
    let int := ((widthClass va.fmt).map (·.int)).getD false
    let skip := if sparse && !int then
      ((xs.take va.rows).map (fun x => ((ys.take vb.rows).map (fun y =>
        ((x.zip y).map (fun p => skipSpecial vb.fmt p.1 p.2)).foldl (· + ·) 0)).foldl (· + ·) 0)).foldl (· + ·) 0 else 0
    let c1 := c.mmaTile t va vb (m.getLsbD 11) xs ys
    let c2 := c1.setBlock blk ((c1.block blk).tokenAdd 2 skip)
    { c2 with resv := updWhere (fun v => v.blk == blk && (v.name == a || v.name == b)) (fun v => { v with pinned := [] }) c2.resv }
  | _, _ => c

/-! ## Execution (R309, R314, R315, R321, R357) -/

/-- The first row slot that a fill holds whole and whose NZ exceeds KLEN or differs from the count of its bitmap: its offset in the
bytes (R314). -/
def Resv.badSlot (v : Resv) (off : Nat) (l : List Byte) : Option Nat :=
  if !v.sparse then none
  else
    let rs := slotBytes v.fmt v.klen
    ((List.range v.rows).filter (fun r => off ≤ r * rs && r * rs + rs ≤ off + l.length)).findSome? (fun r =>
      let x := l.drop (r * rs - off)
      let nz := natOf (x.take 2)
      if v.klen < nz ∨ slotCount x v.klen ≠ nz then some (r * rs - off) else none)

/-- Fill a range of a reservation, or raise SPARSE_FORMAT with the address of the slot and write nothing. -/
def State.obFill (s : State) (core blk name off sub addr : Nat) (l : List Byte) : State :=
  match (s.core core).reservation blk name with
  | none => s
  | some v => match v.badSlot off l with
    | some o => s.coreFault core blk 0x22 sub (addr + o) detailNone
    | none =>
      let c := s.core core
      s.setCore core { c with opbuf := writeList c.opbuf (v.off + off) l }

/-- Lines that the reservations of a die's cores pin, each once. -/
def State.pinnedOn (s : State) (die : Nat) : List Nat :=
  (s.cores.flatMap (fun p => if dieOf p.1 = die then p.2.resv.flatMap (·.pinned) else [])).eraseDups

/-- Pin lines for a handle, unless the die would hold more than 4 MiB of pinned lines. -/
def State.pin (s : State) (core blk name : Nat) (lines : List Nat) : State :=
  let old := s.pinnedOn (dieOf core)
  if 32768 < old.length + (lines.filter (fun n => !old.contains n)).length then s
  else
    let c := s.core core
    s.setCore core { c with
      resv := updWhere (fun v => v.blk == blk && v.name == name) (fun v => { v with pinned := (v.pinned ++ lines).eraseDups }) c.resv }

/-- Whether an entry is an ACCINIT of a tile. -/
def MatWork.inits (w : MatWork) (t : Nat) : Bool :=
  match w with
  | .accZero n | .accLd n _ => n == t
  | _ => false

/-- `.clr` and `.rel` at the end of a drain. The claim that a later ACCINIT in the queue has taken stands (R308, R309). -/
def Core.drainEnd (c : Core) (t : Nat) (clr rel : Bool) : Core :=
  let c := if clr then c.setTile t (fun _ => 0) else c
  { c with
    claims := if rel && !c.matq.any (fun q => q.work.inits t) then SMap.del c.claims t else c.claims
    drain := SMap.del c.drain t }

/-- The effect of an entry other than a drain to the carillon. -/
def State.matWork (s : State) (core blk : Nat) : MatWork → State
  | .obldS o a off n src => s.obFill core blk o off 0 a (s.rangeBytes core blk (src, n))
  | .obldR o off lanes =>
    let c := s.core core
    match c.reservation blk o with
    | none => s
    | some v => s.setCore core { c with
        opbuf := lanes.foldl (fun m p => writeBytes m (v.off + off + 4 * p.1) 4 p.2.toNat) c.opbuf }
  | .tfetch o off _ va src => (s.obFill core blk o off 1 va (src.flatMap (s.rangeBytes core blk))).pin core blk o (linesOf src)
  | .tfrel o =>
    let c := s.core core
    s.setCore core { c with
      resv := updWhere (fun v => v.blk == blk && v.name == o) (fun v => { v with pinned := [] }) c.resv }
  | .accZero t => s.setCore core ((s.core core).setTile t (fun _ => 0))
  | .accLd t src =>
    let l := s.rangeBytes core blk (src, 16384)
    s.setCore core ((s.core core).setTile t (fun i => BitVec.ofNat 32 (natOf ((l.drop (4 * i)).take 4))))
  | .mma sparse t a b m => s.setCore core ((s.core core).runMma blk sparse t a b m)
  | .drainS t dst clr rel =>
    let c := s.core core
    let l := (List.range 4096).flatMap (fun i => bytesOf 4 (SMap.get 0 c.acc (4096 * t + i)).toNat)
    let s1 := s.putRanges core blk [(dst, 16384)] l
    s1.setCore core ((s1.core core).drainEnd t clr rel)
  | .drainC _ _ _ => s

/-- A TFETCH whose block has been saved and restored translates again; until its pages translate it waits. MODEL'S CHOICE (assumption 115). -/
def MatEntry.translated (q : MatEntry) (s : State) (core : Nat) : MatEntry :=
  match q.work with
  | .tfetch ob off n va src => { q with work := .tfetch ob off n va (s.resolve core ((s.core core).block q.blk) .read false src) }
  | _ => q

/-- An entry of the matrix queue completes; an MDRAIN.c completes with its last token, and a debugger's hold stops the tile fetch unit with the
other engines (R444). -/
def execMatrixEntryComplete (core n : Nat) (s : State) : Out :=
  match ((s.core core).matq[n]?).map (fun q => q.translated s core) with
  | none => .next s
  | some q =>
    if q.work.isDrainC ∨ (q.work.isMma ∧ !q.started) ∨ (q.work.isTfetch ∧ (s.enginesHeld core || !resolved q.work.ranges.1)) ∨
        !s.matRun core n q then .next s
    else match s.poisonIn core q.blk q.work.ranges.1 with
      | some k => .next (s.blockFatal core q.blk 0x41 0 (keyPa k))
      | none => .next ((s.matWork core q.blk q.work).matDone core q)

/-- The first round of the queue that has not started does so, one at a time. -/
def execMmaRoundStart (core : Nat) (s : State) : Out :=
  let c := s.core core
  match c.matq.findIdx? (fun q => q.work.isMma && !q.started) with
  | none => .next s
  | some n => match c.matq[n]? with
    | none => .next s
    | some q =>
      if c.round.isSome ∨ !c.matFree n q then .next s
      else match c.roundRate q with
        | none => .next s
        | some half => .next (s.setCore core { c with
            matq := updWhere (fun p => p.id == q.id) (fun p => { p with
              started := true
              half }) c.matq })

/-- Token `n` of an MDRAIN.c: row n / 8, columns from 8 × (n mod 8) (R321). -/
def Core.drainTokenOf (c : Core) (t n : Nat) : Token :=
  let i := n / 8
  let j := n % 8
  tokenOf (hdrOf false (j % 4) 0 i ((if j = 7 then 1 else 0) + (if n = 511 then 2 else 0)) 0xFF) (fun l => c.tileWord t i (8 * j + l))

/-- The drain port sends the next token of the drain under way, when the channel has space. -/
def execDrainToken (core : Nat) (s : State) : Out :=
  let c := s.core core
  match c.matq.findIdx? (fun q => q.work.isDrainC) with
  | none => .next s
  | some n => match c.matq[n]? with
    | some { work := .drainC t clr rel, blk, id, signers, started, half } =>
      let q : MatEntry := { id, blk, signers, work := .drainC t clr rel, started, half }
      if !c.matFree n q ∨ c.drainBlocked blk then .next s
      else
        let k := SMap.get 0 c.drain t
        let c1 := c.send ((c.drainDest blk).bind (·.2)) (c.drainTokenOf t k)
        if k < 511 then .next (s.setCore core { c1 with drain := SMap.set 0 c1.drain t (k + 1) })
        else .next ((s.setCore core (c1.drainEnd t clr rel)).matDone core q)
    | _ => .next s

end Sys2Proof.Machine
end

