-- ==== Sys2Proof/Machine/Regroup.lean ====
section
/-!
DEFINITION. REGROUP and REGROUPB, OP 0xF8 and 0xF9: the rendezvous, the drain and the shuffle (R376 to R383).
-/

namespace Sys2Proof.Machine

/-! ## The rendezvous (R377) -/

/-- The participants of a round: the block's groups that have not ended. -/
def Core.participants (c : Core) (b : Block) : List Nat :=
  b.slots.filter (fun i => match (c.group i).st with
    | .free | .reserved | .ended => false
    | _ => true)

/-- Whether a matrix operation is pending for a group, an unfired signature included (R309). -/
def Fe.matPending (e : Fe) : Bool :=
  e.c.matq.any (fun q => q.blk == e.g.blk && q.signers.contains e.slot) || e.b.cvs.any (fun p => p.2.signers.contains e.slot)

/-- The arrival of REGROUP or REGROUPB. -/
def regroupEffect (back : Bool) (key : Opnd) (bits : Nat) (e : Fe) : Out :=
  let bad := fun n => e.fault { cause := 8, sub := n }
  let r : Rdv := e.b.rdv.getD { pc := e.g.pc, back, key, bits, arrived := [] }
  if e.g.m ≠ ~~~e.g.exitm then bad 0
  else if !e.g.stack.isEmpty then bad 1
  else if e.matPending then bad 2
  else if r.pc ≠ e.g.pc ∨ r.back ≠ back ∨ r.key ≠ key ∨ r.bits ≠ bits then bad 3
  else .next ((e.put { e.g with st := .waiting .regroup }).setBlock e.core e.g.blk
    { e.b with rdv := some { r with arrived := r.arrived ++ [e.slot] } })

/-- REGROUP. -/
def execRegroup (x : FmtR) (s : State) : Out :=
  frontEnd (.regroup x) x.g s (regroupEffect false x.a (fldM x.m 0 6))
/-- REGROUPB. -/
def execRegroupb (x : FmtR) (s : State) : Out := frontEnd (.regroupb x) x.g s (regroupEffect true .discard 0)

/-! ## Packing (R379) -/

/-- Groups that `n` threads need. -/
def groupsFor (n : Nat) : Nat := (n + 31) / 32

/-- The class with the fewest threads, the smallest key on a tie. -/
def smallest : List (Nat × Nat) → Option (Nat × Nat)
  | [] => none
  | q :: r => match smallest r with
    | some w => if w.2 < q.2 then some w else some q
    | none => some q

/-- The mixed classes: `pure` holds keys and counts, ascending, `mix` the keys mixed so far and their threads. -/
def mixKeys (p : Nat) : Nat → List (Nat × Nat) → List Nat → Nat → List Nat
  | 0, _, mix, _ => mix
  | n + 1, pure, mix, count =>
    if (pure.map (fun q => groupsFor q.2)).foldl (· + ·) 0 + groupsFor count ≤ p then mix
    else match smallest pure with
      | none => mix
      | some q => mixKeys p n (pure.filter (fun r => r.1 != q.1)) (q.1 :: mix) (count + q.2)

/-- Insert a key. -/
def insertKey (k : Nat) : List Nat → List Nat
  | [] => [k]
  | a :: r => if k < a then k :: a :: r else if k = a then a :: r else a :: insertKey k r

/-- The sequence of positions: threads in packed order, none where a position is vacant. `live` holds threads and keys, by ascending
thread; the second component is the mixed keys. -/
def packSeq (p : Nat) (live : List (Nat × Nat)) : List (Option Nat) × List Nat :=
  let keys := live.foldl (fun l q => insertKey q.2 l) []
  let of := fun k => (live.filter (fun q => q.2 == k)).map (·.1)
  let mix := mixKeys p keys.length (keys.map (fun k => (k, (of k).length))) [] 0
  let pure := (keys.filter (fun k => !mix.contains k)).flatMap (fun k =>
    (of k).map some ++ List.replicate (32 * groupsFor (of k).length - (of k).length) none)
  (pure ++ ((keys.filter mix.contains).flatMap of).map some, mix)

/-! ## Moving threads (R380, R381) -/

/-- One thread's registers go from lane `l` of a group to lane `j` of another. -/
def Group.takeThread (g : Group) (regs : Nat) (old : Group) (l j t : Nat) : Group :=
  { g with
    tids := SMap.set 0 g.tids j (t + 1)
    v := (List.range regs).foldl (fun m r => SMap.set 0 m (vkey r j) (SMap.get 0 old.v (vkey r l))) g.v
    w := (List.range 8).foldl (fun m r => SMap.set 0 m (vkey r j) (SMap.get 0 old.w (vkey r l))) g.w
    p := (List.range 7).foldl (fun m r => if (SMap.get 0 old.p r).getLsbD l then SMap.set 0 m r (SMap.get 0 m r ||| (1#32 <<< j)) else m) g.p
    amax := SMap.set 0 g.amax j (SMap.get 0 old.amax l)
    srseed := SMap.set 0 g.srseed j (SMap.get 0 old.srseed l)
    rkey := SMap.set 0 g.rkey j (SMap.get 0 old.rkey l) }

/-- A slot of the block as the shuffle leaves it: the threads at its lanes, group-scope copies from `first`. The tags and MTC are 0 in every
participant (R378); a slot whose group has ended keeps the counts of its operations that are still to complete (R341, R343). -/
def Core.shuffled (c : Core) (b : Block) (first : Group) (pc : Dword) (slot : Nat) (home : Option Nat) (mixed : Bool)
    (at_ : List (Nat × Nat)) : Group :=
  let old := c.group slot
  let m := maskOf (at_.map (·.1))
  let g : Group := { st := .running, blk := old.blk, home, age := old.age, pc, m, exitm := ~~~m, k := first.k, loopcfg := first.loopcfg,
                     trapbase := first.trapbase, clockhi := old.clockhi, rkmix := mixed, faults := old.faults
                     haltReq := old.haltReq, stepReq := old.stepReq, tg := old.tg, mtc := old.mtc, dampRec := old.dampRec }
  at_.foldl (fun g q =>
    let w := SMap.get {} b.threads q.2
    g.takeThread b.kd.regs (c.group w.slot) w.lane q.1 q.2) g

/-- A slot that holds no thread: every position is vacant, and its bit is set in the exit mask (R19). The group-level registers that REGROUP
does not change stay with the slot (R74, R382), and so do the counts of its operations that are still to complete (R341). -/
def Group.vacated (g : Group) (st : GState) : Group :=
  { st, blk := g.blk, age := g.age, exitm := 0xFFFFFFFF, clockhi := g.clockhi, faults := g.faults, k := g.k, loopcfg := g.loopcfg
    trapbase := g.trapbase, tg := g.tg, mtc := g.mtc, peerTags := g.peerTags, dampRec := g.dampRec }

/-- The loop monitor entry as REGROUP resets it, with y invalid. -/
def Group.loopReset (g : Group) : Group :=
  { g.yInvalid with
    loopH := 0
    loopCount := 0
    armPoint := 0
    hintT := 0
    hintValid := false
    hintHead := 0
    barred := false }

/-- Live threads of a block in ascending order, with their keys. -/
def Core.liveKeys (c : Core) (b : Block) (r : Rdv) : List (Nat × Nat) :=
  (b.threads.filter (fun p => p.2.live)).map (fun p =>
    (p.1, ((c.group p.2.slot).rd r.key p.2.lane).toNat % 2 ^ r.bits))

/-- The shuffle of REGROUP. -/
def Core.regroup (c : Core) (blk : Nat) (r : Rdv) : Core :=
  let b := c.block blk
  let first := c.group ((c.participants b).min?.getD 0)
  let live := c.liveKeys b r
  let q := packSeq b.slots.length live
  let at_ := fun i => ((q.1.drop (32 * i)).take 32).zipIdx.filterMap (fun z => z.1.map (fun t => (z.2, t)))
  let keyOf := fun t => ((live.find? (fun z => z.1 == t)).map (·.2)).getD 0
  let used := (List.range b.slots.length).filter (fun i => !(at_ i).isEmpty)
  let new := b.slots.zipIdx.map (fun z =>
    if (at_ z.2).isEmpty then (z.1, (c.group z.1).vacated .reserved)
    else
      let g := c.shuffled b first (r.pc + 8) z.1 none ((at_ z.2).any (fun w => q.2.contains (keyOf w.2))) (at_ z.2)
      (z.1, { g with rkey := (at_ z.2).foldl (fun m w => SMap.set 0 m w.1 (w32 (keyOf w.2))) [] }))
  let threads := used.foldl (fun m i => (at_ i).foldl (fun m w =>
    SMap.set {} m w.2 { live := true, slot := b.slots.getD i 0, lane := w.1 }) m) []
  (new.foldl (fun (c : Core) z => c.setGroup z.1 z.2) c).setBlock blk
    { b with
      rdv := none
      ngrp := used.length
      regrouped := true
      threads }

/-- The shuffle of REGROUPB on a regrouped block. -/
def Core.regroupBack (c : Core) (blk : Nat) (r : Rdv) : Core :=
  let b := c.block blk
  let first := c.group ((c.participants b).min?.getD 0)
  let live := (b.threads.filter (fun p => p.2.live)).map (·.1)
  let at_ := fun i => (live.filter (fun t => t / 32 == i)).map (fun t => (t % 32, t))
  let new := b.slots.map (fun z => match b.hslot.findIdx? (· == z) with
    | none => (z, (c.group z).vacated .reserved)
    | some i => if (at_ i).isEmpty then (z, { (c.group z).vacated .ended with home := some i })
      else (z, c.shuffled b first (r.pc + 8) z (some i) false (at_ i)))
  let threads := live.foldl (fun m t => SMap.set {} m t { live := true, slot := b.hslot.getD (t / 32) 0, lane := t % 32 }) []
  (new.foldl (fun (c : Core) z => c.setGroup z.1 z.2) c).setBlock blk
    { b with
      rdv := none
      ngrp := ((List.range b.hslot.length).filter (fun i => !(at_ i).isEmpty)).length
      regrouped := false
      threads }

/-- REGROUPB on a block in its home arrangement: the groups depart (R381). TRAPCAUSE and FAULTINFO stay: R381 lists all that this case
does, where R74's rows for the two registers say that REGROUPB clears them. MODEL'S CHOICE (assumption 106). -/
def Core.regroupHome (c : Core) (blk : Nat) : Core :=
  let b := c.block blk
  ((c.participants b).foldl (fun (c : Core) i => c.setGroup i (c.group i).depart.loopReset) c).setBlock blk { b with rdv := none }

/-- Whether a rendezvous is complete and drained: every participant waits at it with its tags and MTC at 0 (R378); a pre-emption that
has come first holds it (R383). A halt that is asked for meanwhile waits for the departure, since REGROUP is an earlier word (R443). -/
def Core.shuffleReady (c : Core) (b : Block) (r : Rdv) : Bool :=
  b.preempt.isNone && (c.participants b).all (fun i =>
    let g := c.group i
    r.arrived.contains i && g.st == .waiting .regroup && g.tg.isEmpty && g.mtc == 0)

/-- The shuffle of a block. It awaits the participants' stores and those that they have read, so that a read after a departure finds what was
stored or read before an arrival (R279, R378). What a participant knows of writes goes on to every slot of the block, whichever its threads
move to. A REGROUPB in HOME moves nothing and is no shuffle (R381, R426). -/
def execRegroupShuffle (core blk : Nat) (s : State) : Out :=
  let c := s.core core
  let b := c.block blk
  match b.rdv with
  | none => .next s
  | some r =>
    if !c.shuffleReady b r || s.unperformedBy core (c.participants b) 1 || s.unseen core (c.participants b) 1 then .next s
    else
      let s1 := s.learn core b.slots (c.participants b)
      if !r.back then .next (s1.setCore core ((c.regroup blk r).count 0x0D 1))
      else if b.regrouped then .next (s1.setCore core ((c.regroupBack blk r).count 0x0D 1))
      else .next (s1.setCore core (c.regroupHome blk))

end Sys2Proof.Machine
end

