-- ==== Sys2Proof/Machine/Placement.lean ====
section
/-!
DEFINITION. Compiler-placed regions: FXLOAD, FXRUN, FXWAIT, FXPARAM, FXDROP, and DAMP, OP 0xFA to 0xFF (R399 to R405, R411).
-/

namespace Sys2Proof.Machine

/-- RGN. -/
def rgnOf (x : FmtR) : Nat := fldM x.m 0 2

/-- The region of a block with a number. -/
def Core.regionOf (c : Core) (blk rgn : Nat) : Option (Nat × Placed) :=
  c.placed.find? (fun p => p.2.blk == blk && p.2.region.isSome && p.2.rgn == rgn)

/-- The permission fault of a form that names a region in a state its entry does not allow (R399). -/
def Fe.regionFault (e : Fe) : Out := e.fault { cause := 5, sub := 26, lanes := 1#32 <<< lowest e.act }

/-- A form that acts once for the group on a region; it waits while the region loads (R399, R400). Where ACT is empty it does nothing and
pushes no y: R75 has every word with a register result push, and R399 says only that a form acts when ACT is not empty. MODEL'S CHOICE
(assumption 89). -/
def regionForm (x : FmtR) (eff : Option (Nat × Placed) → Fe → Out) (e : Fe) : Out :=
  if e.act = 0 then e.done e.g
  else
    let r := e.c.regionOf e.g.blk (rgnOf x)
    if (r.bind (·.2.region)) = some .loading then e.waitIssue else eff r e

/-- A form whose wait has ended completes with the status of its region, whatever has become of the region since (R403, R411). -/
def fxWaited (ends : Fe → Nat → Out) (eff : Fe → Out) (e : Fe) : Out :=
  match e.g.fxEnd with
  | some n => ends { e with g := { e.g with
      fxOct := 0
      fxEnd := none } } n
  | none => eff e

/-! ## FXLOAD (R400) -/

/-- The pages of a range that a group reads, checked before any byte is used (R400). -/
def Fe.readRange (e : Fe) (va n : Nat) (go : List (EAddr × Nat) → Out) : Out :=
  let l := 1#32 <<< lowest e.act
  let rs := (splitPages va n).map (fun p => (p, e.answered p.1 (e.s.reach e.core e.b .read 1 p.1)))
  match gravest (rs.map (fun r => (r.1.1, r.2))) with
  | (a, .bad c sub) => e.fault { cause := c, sub, addr := a, lanes := l }
  | (_, .absent) => .fault .absentMemory
  | _ =>
    let waits := rs.filter (fun r => r.2 == .wait)
    if !waits.isEmpty then e.waitFor (.translation (waits.map (fun r => (lowest e.act, r.1.1))))
    else if rs.any (fun r => r.2 == .held) then e.waitIssue
    else
      let m := rs.map (fun r => (match r.2 with
        | .at k => EAddr.mem k
        | _ => EAddr.zero, r.1.2))
      if (linesOf m).any (fun n => !(e.s.dirEntry n).eq.isEmpty) then e.waitIssue
      else match e.s.poisonIn e.core e.g.blk m with
        | some k => .next (e.s.blockFatal e.core e.g.blk 0x41 0 (keyPa k))
        | none => go m

/-- The bytes of ranges. -/
def Fe.bytesIn (e : Fe) (l : List (EAddr × Nat)) : List Byte := l.flatMap (e.s.rangeBytes e.core e.g.blk)

/-- The reason and detail of a refusal, in the order of R397: the image's own checks, KIND, SPACE, BUSY. In reduced service no origin
is found (R452). -/
def Fe.refusal (e : Fe) (i : List Byte) (busy : Bool) : Option (Nat × Nat) :=
  ((imageReject i (min e.c.budget e.b.kd.shares)).or (if imKind i = 1 then none else some (9, 0xFF))).or
    ((if e.s.devstate = 1 ∨ (e.c.origin i).isNone then some (10, 0xFF) else none).or (if busy then some (11, 0xFF) else none))

/-- FXLOAD. -/
def execFxload (x : FmtR) (s : State) : Out :=
  frontEnd (.fxload x) x.g s (regionForm x (fun r e =>
    let va := e.baseAddr x.a (lowest e.act)
    if va % 64 ≠ 0 then e.fault { cause := 3, addr := va, lanes := 1#32 <<< lowest e.act }
    else e.readRange va 64 (fun h =>
      e.readRange va (max 64 (imSize (e.bytesIn h))) (fun l =>
        let i := e.bytesIn l
        match e.refusal i r.isSome with
        | some (why, detail) => e.result x.d (fun _ => BitVec.ofNat 32 (why + 256 * detail))
        | none =>
          let o := (e.c.origin i).getD (0, 0)
          let c := e.c.loadImage e.c.freePlaced e.g.blk (rgnOf x) i o.1 o.2 (some .loading) none
          let s1 := (e.s.setCore e.core c).loadLines e.core e.slot 0 (memCells l)
          let e1 : Fe := { e with
            s := s1
            c := s1.core e.core
            g := { e.g with loads := e.g.loads ++ [(rgnOf x, x.d)] } }
          e1.result x.d (fun _ => 0)))))

/-- The load of a region of a block ends: its groups may read the load's status (R400). -/
def Core.loadEnds (c : Core) (blk rgn : Nat) : Core :=
  (c.block blk).slots.foldl (fun (c : Core) i =>
    let g := c.group i
    if g.loads.any (fun q => q.1 == rgn) then c.setGroup i { g with loads := g.loads.filter (fun q => q.1 != rgn) } else c) c

/-- FXLOAD_LOAD_END (R400). -/
def execFxloadLoadEnd (core blk rgn : Nat) (s : State) : Out :=
  let c := s.core core
  match c.regionOf blk rgn with
  | some (pi, p) =>
    if p.region = some .loading then .next (s.setCore core ((c.setPlaced pi { p with region := some .loaded }).loadEnds blk rgn))
    else .next s
  | none => .next s

/-! ## FXRUN (R401) -/

/-- A stream engine begins a round (R364); an end node waits for its token anew. -/
def Node.start (d : Node) : Node :=
  match d.kind with
  | 3 => { d with
    pos := [0, 0, 0, 0]
    round := d.round + 1
    walking := true }
  | 6 => { d with
    ended := false }
  | _ => d

/-- Whether a token is on its way to a placed image. -/
def Core.flyingTo (c : Core) (pi : Nat) : Bool :=
  c.hops.any (fun h => match h.1 with
    | .chan e _ => (c.elem e).owner == pi + 1
    | .port q _ _ => q == pi)

/-- A region starts: the start token reaches every node, and no read returns what stood before it (R291). -/
def Placed.run (p : Placed) : Placed := { p with
  region := some .running
  nodes := p.nodes.map (fun q => (q.1, { q.2.start with past := [] })) }

/-- FXRUN: the release side of R279's row: the region's nodes know what the group knows of writes. It waits at issue while a token of an earlier
FXPARAM is still on its way, since no firing of the run comes before it (R402, R475; assumption 117), and while a round leaves no power share
for the carillon; a region that the limit can never cover raises the overdraw fault (R13, R435). -/
def execFxrun (x : FmtR) (s : State) : Out :=
  frontEnd (.fxrun x) x.g s (regionForm x (fun r e =>
    match r with
    | some (pi, p) =>
      if p.region = some .loaded ∨ p.region = some .done then
        if e.c.carillonHeld || e.c.flyingTo pi then e.waitIssue
        else e.arrives 1 <|
          let c := (e.c.setPlaced pi p.run).setGroup e.slot e.g.next
          let s1 := (e.s.setCore e.core c).learn e.core (p.nodes.map (fun q => nodeSlot pi q.1)) [e.slot]
          .next (if c.overdrawn then s1.placedFault e.core pi 0x25 0 0 detailNone else s1)
      else e.regionFault
    | none => e.regionFault))

/-! ## FXWAIT (R403) -/

/-- End a probe of a placed image (R369). -/
def Core.cancelProbe (c : Core) (pi : Nat) : Core := { c with probes := c.probes.filter (fun q => q.placed != pi) }

/-- FXWAIT: held while the region runs, then its status, which is that of the moment at which the wait ended. It is the acquire side of R279's
row: the group reads nothing older than what the region's nodes wrote or read. -/
def execFxwait (x : FmtR) (s : State) : Out :=
  frontEnd (.fxwait x) x.g s (fxWaited (fun e n => e.result x.d (fun _ => BitVec.ofNat 32 n)) (regionForm x (fun r e =>
    match r with
    | some (pi, p) =>
      let e1 : Fe := { e with s := e.s.setCore e.core (e.c.cancelProbe pi) }
      match p.region with
      | some .running => e.waitFor (.fxwait p.rgn)
      | some .done =>
        let e2 : Fe := { e1 with s := e1.s.learn e.core [e.slot] (p.nodes.map (fun q => nodeSlot pi q.1)) }
        e2.result x.d (fun _ => 0)
      | some .faulted => e1.result x.d (fun _ => 1)
      | _ => e.result x.d (fun _ => 2)
    | none => e.result x.d (fun _ => 2))))

/-! ## FXPARAM (R402) -/

/-- The token of an octet. -/
def Fe.paramToken (e : Fe) (x : FmtR) (o : Nat) : Token :=
  tokenOf (hdrOf (x.m.getLsbD 6) o 0 0 (fldM x.m 7 4) ((e.act >>> (8 * o)).setWidth 8)) (fun l => e.g.rd x.a (8 * o + l))

/-- Send the tokens of the octets listed while each fits; the octet that waits, if any. -/
def Fe.paramSend (e : Fe) (x : FmtR) (d : Dest) : List Nat → Core → Core × Option Nat
  | [], c => (c, none)
  | o :: r, c => if c.space d then e.paramSend x d r (c.send (some d) (e.paramToken x o)) else (c, some o)

/-- FXPARAM. It waits at issue for the room of its next token, and where its region faults or is dropped its wait ends, with its unsent
tokens (R402, R411). -/
def execFxparam (x : FmtR) (s : State) : Out :=
  frontEnd (.fxparam x) x.g s (fxWaited (fun e _ => e.done e.g) (regionForm x (fun r e =>
    match r with
    | none => e.regionFault
    | some (pi, p) =>
      if p.region = some .faulted then e.regionFault
      else match (p.ports[fldM x.m 2 4]?).bind (p.dest pi) with
        | none => e.fault { cause := 1 }
        | some d =>
          let os := [0, 1, 2, 3].filter (fun o => decide (e.g.fxOct ≤ o + 1) && ((e.act >>> (8 * o)).setWidth 8 : Byte) != 0)
          match e.paramSend x d os e.c with
          | (c, none) => .next (e.s.setCore e.core (c.setGroup e.slot { e.g.next with fxOct := 0 }))
          | (c, some o) =>
            if e.g.fxOct = o + 1 then e.waitIssue
            else .next (e.s.setCore e.core (c.setGroup e.slot { e.g with
              fxOct := o + 1
              fxRgn := rgnOf x })))))

/-! ## FXDROP (R404) -/

/-- Whether a drain of the block is queued that its loaded region takes (R321). -/
def Core.drainsInto (c : Core) (blk pi : Nat) : Bool :=
  (c.drainDest blk).any (fun d => d.1 == pi) && c.matq.any (fun q => q.blk == blk && q.work.isDrainC)

/-- FXDROP. -/
def execFxdrop (x : FmtR) (s : State) : Out :=
  frontEnd (.fxdrop x) x.g s (regionForm x (fun r e =>
    match r with
    | none => e.done e.g
    | some (pi, _) =>
      if e.c.drainsInto e.g.blk pi then e.waitIssue
      else .next (e.s.setCore e.core (((e.c.dropPlaced pi).setGroup e.slot e.g.next).wakeFx e.g.blk (rgnOf x) 2))))

/-! ## DAMP (R405) -/

/-- The copies of a block that still stream: placed image and copy. -/
def Core.streaming (c : Core) (blk : Nat) : List (Nat × Copy) :=
  c.placed.filterMap (fun p => match p.2.copy with
    | some q => if p.2.blk = blk && !q.left && q.exitIter.isNone then some (p.1, q) else none
    | none => none)

/-- A trigger that names the first iteration not yet admitted (R45). A group whose hand-over injection has not ended abandons the hand-over and
stays on the front end at H (R48, R405). -/
def Core.dampNext (c : Core) (pi : Nat) (why : DampWhy) : Core :=
  let p := c.placedAt pi
  match p.copy with
  | none => c
  | some q =>
    if q.injected then c.setPlaced pi { p with copy := some (q.dampTo q.nextIter why) }
    else (c.setGroup q.slot { (c.group q.slot) with st := .running }).dropPlaced pi

/-- DAMP. With ACT empty it does nothing and pushes no y. MODEL'S CHOICE (assumption 89). A hand-over that it has a group abandon damps no loop
and is not counted in D. MODEL'S CHOICE (assumption 114). -/
def execDamp (x : FmtR) (s : State) : Out :=
  frontEnd (.damp x) x.g s (fun e =>
    if e.act = 0 then e.done e.g
    else
      let slot := (e.g.rd x.a (lowest e.act)).toNat
      let l := (e.c.streaming e.g.blk).filter (fun q => !x.m.getLsbD 0 || q.2.slot == slot)
      let c := l.foldl (fun c q => c.dampNext q.1 .damp) e.c
      let e1 : Fe := { e with
        s := e.s.setCore e.core c
        c := c }
      e1.result x.d (fun _ => BitVec.ofNat 32 (l.filter (fun q => q.2.injected)).length))

end Sys2Proof.Machine
end

