-- ==== Sys2Proof/Machine/Region.lean ====
section
/-!
DEFINITION. What the elements' surroundings do in a RUNNING region: token arrival, memory nodes, stream engines, join and end nodes,
echo probes, and count tokens (R291, R361 to R364, R366, R369, R370, R395, R403, R423, R435).
-/

namespace Sys2Proof.Machine

/-! ## Token arrival -/

/-- A token enters the channel or port that it was sent to; tokens of one channel arrive in the order in which they were sent (R361). The
tokens that enter with an iteration of a captured loop wait on their way while the channel is full; any other token was sent into space. -/
def execChannelTokenArrive (core n : Nat) (s : State) : Out :=
  let c := s.core core
  match c.hops[n]? with
  | none => .next s
  | some (d, t) =>
    if (c.hops.take n).any (fun h => h.1 == d) || decide (c.depthOf d ≤ c.held d) then .next s
    else
      let c1 := { c with hops := c.hops.eraseIdx n }
      .next (s.setCore core (match d with
        | .chan e q => c1.setElem e ((c1.elem e).setChan q (((c1.elem e).chan q).put t))
        | .port pi node q =>
          let p := c1.placedAt pi
          let d := p.node node
          c1.setPlaced pi (p.setNode node (d.setPort q (d.port q ++ [t])))))

/-- A count token reaches its block's counter (R423). -/
def execCountToken (core blk : Nat) (s : State) : Out :=
  let b := (s.core core).block blk
  match b.tokens with
  | [] => .next s
  | (k, n) :: r =>
    let top := 2 ^ 48 - 1
    let b1 := { b with tokens := r }
    .next (s.setBlock core blk (match k with
      | 0 => { b1 with satn := min (b.satn + n) top }
      | 1 => { b1 with nann := min (b.nann + n) top }
      | _ => { b1 with skipn := min (b.skipn + n) top }))

/-! ## The turn of a node -/

/-- A node of a running region at its turn: n is 64 times the number of the placed image, plus the node record index. -/
structure NodeTurn where
  s : State
  core : Nat
  c : Core
  pi : Nat
  p : Placed
  ni : Nat
  d : Node
  b : Block

/-- The turn of a node; none where it has none: its region does not run, its copy does not stream, or it is frozen. -/
def State.nodeTurn (s : State) (core n : Nat) : Option NodeTurn :=
  let c := s.core core
  let p := c.placedAt (n / 64)
  if p.acts ∧ (p.nodes.any (fun q => q.1 == n % 64)) = true then
    some { s, core, c, pi := n / 64, p, ni := n % 64, d := p.node (n % 64), b := c.block p.blk }
  else none

/-- A core-level fault of a node: DETAIL names it (R338, R435). -/
def NodeTurn.fault (t : NodeTurn) (cause sub addr : Nat) : Out :=
  .next (t.s.placedFault t.core t.pi cause sub addr (detailOf 0xFF t.ni 0xFF 0xFF 0xFF t.p.rgnByte))

/-- Whether the destination of the node's route can take a token; a node without a route sends none. -/
def NodeTurn.room (t : NodeTurn) : Bool :=
  match t.p.dest t.pi t.d.route with
  | some q => t.c.space q
  | none => true

/-- Replace the node. -/
def Core.setNode (c : Core) (pi ni : Nat) (d : Node) : Core := c.setPlaced pi ((c.placedAt pi).setNode ni d)

/-- Check the lanes' accesses, each with its address: the node waits where the host has yet to serve a page, where a walk waits, or where an
engine claims the line; the lowest lane that fails decides (R232, R430, R435); a poisoned word kills the block (R304). -/
def NodeTurn.checked (t : NodeTurn) (n : Nat) (reads : Bool) (lanes : List (Nat × Nat × Xlat)) (go : List (Nat × Option Nat) → Out) : Out :=
  if lanes.any (fun r => r.2.2 == .wait) then .next { t.s with tick := t.s.tick + 1 }
  else if lanes.any (fun r => r.2.2 == .held) then .next t.s
  else match lanes.find? (fun r => r.2.2.isBad) with
  | some (_, a, .bad c sub) => t.fault c sub a
  | _ =>
    if lanes.any (fun r => r.2.2 == .absent) then .fault .absentMemory
    else
      let keys := lanes.filterMap (fun r => r.2.2.key)
      if keys.any (fun k => !(t.s.dirEntry (lineOf k)).eq.isEmpty) then .next t.s
      else match lanes.find? (fun r => reads && r.2.2.key.any (fun k => t.s.poisonAt k n)) with
        | some r => .next (t.s.blockFatal t.core t.p.blk 0x41 0 r.2.1)
        | none => go (lanes.map (fun r => (r.1, r.2.2.key)))

/-! ## Moments of streaming reads (R49, R291) -/

/-- The present moment. -/
def State.moment (s : State) : Moment := { mem := s.mem, cores := s.cores.map (fun p => (p.1, ⟨p.2.scratch, p.2.laneMem, p.2.marks⟩)) }

/-- The bytes of a state as they stood at a moment. -/
def State.asAt (s : State) (m : Moment) : State :=
  { s with
    mem := m.mem
    cores := s.cores.map (fun p => (p.1, match m.cores.find? (fun q => q.1 == p.1) with
      | some q => { p.2 with scratch := q.2.scratch, laneMem := q.2.laneMem, marks := q.2.marks }
      | none => p.2)) }

/-- Whether a node's reads are streaming: a stream engine's, and those of a load node of class streaming that are not ordered. -/
def Node.streams (d : Node) : Bool := d.kind == 3 || (d.kind == 1 && d.cls == 0 && mmOrd d.mm == 0)

/-- A streaming node notes the present moment: a read of its own may return what stands there now (R291). -/
def NodeTurn.note (t : NodeTurn) : State :=
  if t.d.streams then t.s.setCore t.core (t.c.setPlaced t.pi (t.p.setNode t.ni { t.d with past := t.d.past ++ [t.s.moment] })) else t.s

/-- What a streaming read of a lane sees: the present, or one of the moments noted, whichever is chosen. -/
def NodeTurn.view (t : NodeTurn) (l : Nat) : State :=
  if t.d.past.isEmpty then t.s
  else match t.d.past[Config.freeChoice (t.s.tick + l) % (t.d.past.length + 1)]? with
    | some m => t.s.asAt m
    | none => t.s

/-- The choices of an access are used up. -/
def NodeTurn.drawn (t : NodeTurn) (s : State) : State := if t.d.past.isEmpty then s else { s with tick := s.tick + 8 }

/-- A byte of a window at a moment: what the window held of it, and otherwise the global byte of that moment; `filled` is the present after the
access's fills, which names the global word (R267, R288). -/
def NodeTurn.windowByte (t : NodeTurn) (filled seen : State) (off : Nat) : Nat :=
  let m := seen.marksAt t.core t.p.blk (off / 4 * 4)
  let src := (filled.marksAt t.core t.p.blk (off / 4 * 4)).src
  if m.v || m.be.getLsbD (off % 4) then seen.spRead t.core t.p.blk off 1
  else if src = 0 then 0
  else seen.rd (src - 1 + off % 4) 1

/-- The value of a lane's scratchpad read at the moment that the lane sees (R291). -/
def NodeTurn.localSeen (t : NodeTurn) (filled : State) (n a l : Nat) : Nat :=
  match t.s.spot t.core t.p.blk a n with
  | .ok { win := some _, off, .. } =>
    natOf ((List.range n).map (fun i => BitVec.ofNat 8 (t.windowByte filled (t.view l) (off + i))))
  | _ => (t.view l).localRead t.core t.p.blk n a

/-! ## Memory nodes (R366, R395) -/

/-- The operation of an atomic's or reduction's opcode. -/
def nodeAtOp (opc : Nat) : AtOp :=
  if opc < 0xB5 then atOpOf (opc - 0xA7)
  else if opc < 0xC0 then (if opc = 0xB8 then .fadd else atOpOf (opc - 0xB5))
  else if opc = 0xC7 then .cas
  else atOpOf (opc - 0xC4)

/-- Whether a node consumes a data token, and whether a compare token. -/
def Node.needs (d : Node) : Bool × Bool :=
  let k := nodeOpClass d.opc
  (k != 1, (k == 3 || k == 5) && nodeAtOp d.opc == .cas)

/-- Whether every input that the node's operation takes has a token. -/
def Node.whole (d : Node) : Bool := !d.in0.isEmpty && (!d.needs.1 || !d.in1.isEmpty) && (!d.needs.2 || !d.in2.isEmpty)

/-- The node after it has taken its tokens. -/
def Node.taken (d : Node) : Node :=
  { d with
    in0 := d.in0.tail
    in1 := if d.needs.1 then d.in1.tail else d.in1
    in2 := if d.needs.2 then d.in2.tail else d.in2 }

/-- The lanes that perform: those live in every token taken. -/
def Node.lanes (d : Node) : List Nat :=
  let m := fun (l : List Token) => ((l.head?).map (fun t => hdrMask t.hdr)).getD 0
  let x := m d.in0 &&& (if d.needs.1 then m d.in1 else 0xFF) &&& (if d.needs.2 then m d.in2 else 0xFF)
  (List.range 8).filter (fun l => x.getLsbD l)

/-- Lane `l` of the head of a port. -/
def headOf (q : List Token) (l : Nat) : Word := ((q.head?).map (fun t => t.lane l)).getD 0

/-- The address of a lane: the base, a constant or the k pair's value at hand-over, plus the index extended and shifted; 32 bits in the
scratchpad and the lane slices. -/
def Node.addr (d : Node) (l : Nat) : Nat :=
  let i := headOf d.in0 l
  let x : Dword := (if d.sx then i.signExtend 64 else i.setWidth 64) <<< d.shift
  let a := (if d.basesrc = 0 then 0 else d.base) + x
  if d.opc < 0xC0 then a.toNat else a.toNat % 2 ^ 32

/-- The low bytes of a data lane. -/
def Node.data (q : List Token) (n l : Nat) : Nat := (headOf q l).toNat % 2 ^ (8 * n)

/-- The thread whose lane private bytes a lane of a token reaches. -/
def Node.thread (d : Node) (l : Nat) : Nat :=
  let h := ((d.in0.head?).map (·.hdr)).getD 0
  32 * (h.extractLsb' 18 5).toNat + 8 * hdrOct h + l

/-- What a lane's access comes to. -/
def NodeTurn.reach (t : NodeTurn) (l : Nat) : Nat × Xlat :=
  let n := mmBytes t.d.mm
  let a := t.d.addr l
  let k := nodeOpClass t.d.opc
  if 0xC8 ≤ t.d.opc then
    (a, if a % n ≠ 0 then .bad 3 0 else if t.b.kd.lane < a + n ∨ 32 * t.b.n ≤ t.d.thread l then .bad 5 19 else .zero)
  else if 0xC0 ≤ t.d.opc then
    t.s.localReach t.core t.p.blk (if k = 1 then .load else if k = 2 then .store else .atomic) n a
  else match k with
    | 1 => (a, t.s.reach t.core t.b .read n a)
    | 2 => (a, t.s.reach t.core t.b .write n a)
    | 3 => (a, noHost (nodeAtOp t.d.opc).hostOk (t.s.reach t.core t.b .atomic n a))
    | _ => (a, noHost false (t.s.reach t.core t.b .write n a))

/-- The state after the fills of a scratchpad access, which reach the homes of their lines as loads do (R267, R274, R297). -/
def NodeTurn.filled (t : NodeTurn) (lanes : List (Nat × Option Nat)) : State :=
  if 0xC0 ≤ t.d.opc ∧ t.d.opc < 0xC8 then
    (t.s.fillAll t.core t.p.blk (mmBytes t.d.mm) t.d.addr lanes).loadLines t.core (nodeSlot t.pi t.ni) 0 (laneCells lanes 32)
  else t.s

/-- What the lanes of an access do: the state after it, and the value of each lane for a form that has one. -/
def NodeTurn.perform (t : NodeTurn) (lanes : List (Nat × Option Nat)) : State × (Nat → Nat) :=
  let d := t.d
  let n := mmBytes d.mm
  let k := nodeOpClass d.opc
  let ls := lanes.map (·.1)
  let op := nodeAtOp d.opc
  let dat := Node.data d.in1 n
  let cmp := Node.data d.in2 n
  let slot := nodeSlot t.pi t.ni
  if 0xC8 ≤ d.opc then
    if k = 1 then (t.s, fun l => extend d.mm (readBytes ((t.view l).core t.core).laneMem (laneKey t.b (d.thread l) (d.addr l)) n))
    else ((ls.foldl (fun (s : State) l => s.cleanse (laneWordKey t.core (laneKey t.b (d.thread l) (d.addr l))) n) t.s).setCore t.core { t.c with
      laneMem := ls.foldl (fun m l => writeBytes m (laneKey t.b (d.thread l) (d.addr l)) n (dat l)) t.c.laneMem }, fun _ => 0)
  else if 0xC0 ≤ d.opc then
    let s1 := t.filled lanes
    match k with
    | 1 => (ls.foldl (fun (s : State) l => s.observeLocal t.core slot t.p.blk n (d.addr l)) s1, fun l => extend d.mm (t.localSeen s1 n (d.addr l) l))
    | 2 => (ls.foldl (fun (s : State) l => s.localWrite t.core t.p.blk n (d.addr l) (dat l)) s1, fun _ => 0)
    | _ =>
      let q := s1.localAtomics t.core t.p.blk n op d.signed d.addr dat cmp ls
      (q.1, oldOf q.2)
  else match k with
    | 1 => (t.s.loadLines t.core slot (mmCh d.mm) (laneCells lanes n), fun l => extend d.mm ((t.view l).laneRead lanes n l))
    | 2 => (t.s.storeCells t.core slot (mmCh d.mm) (storeCellsOf lanes n dat), fun _ => 0)
    | _ =>
      let a := atLanes lanes dat cmp
      let q := t.s.atomics op d.signed n a
      (q.1.ordered t.core slot none (atCells n a), oldOf q.2)

/-- The join and end nodes that a memory node is wired to. -/
def Placed.joinsOf (p : Placed) (ni : Nat) : List Nat :=
  (p.nodes.filter (fun q => (q.2.kind == 2 || q.2.kind == 6) &&
    (q.2.wired.getLsbD ni || (q.2.kind == 2 && (p.node ni).join == q.1)))).map (·.1)

/-- The memory nodes wired to a join or end node. -/
def Placed.wiredTo (p : Placed) (j : Nat) : List Nat := (p.nodes.filter (fun q => q.2.kind == 1 && (p.joinsOf q.1).contains j)).map (·.1)

/-- The join nodes that a memory node is wired to. -/
def Placed.fencesOf (p : Placed) (ni : Nat) : List Nat := (p.joinsOf ni).filter (fun j => (p.node j).kind == 2)

/-- Whether a node's outstanding requests are at their limit (R368). -/
def State.nodeFull (s : State) (core pi ni : Nat) : Bool :=
  decide (Config.nodeLimit < (s.writes.filter (fun w => w.core == core && w.slot == nodeSlot pi ni && w.gen == (s.core core).gen)).length)

/-- A join node acts as a FENCE for the nodes wired to it: an access waits while their earlier writes are not performed at its scope, nor
those that they have read (R291); an ordered access waits for its own node's; every access waits while the node's requests are at their
limit (R368). -/
def NodeTurn.held (t : NodeTurn) : Bool :=
  let owes := fun (l : List Nat) scope => t.s.unperformedBy t.core l scope || t.s.unseen t.core l scope
  (t.p.fencesOf t.ni).any (fun j => owes ((t.p.wiredTo j).map (nodeSlot t.pi)) (t.p.node j).scope) ||
  (mmOrd t.d.mm != 0 && owes [nodeSlot t.pi t.ni] (mmScp t.d.mm)) ||
  t.s.nodeFull t.core t.pi t.ni

/-- After an access of a node, no read of a node wired to one of its join nodes returns what stood before it: the join is a FENCE.acqrel
(R291). -/
def Placed.fenced (p : Placed) (ni : Nat) : Placed :=
  ((p.fencesOf ni).flatMap p.wiredTo).foldl (fun (p : Placed) w => p.setNode w { (p.node w) with past := [] }) p

/-- Whether the node sends a result: loads and atomics do. -/
def Node.returns (d : Node) : Bool := nodeOpClass d.opc == 1 || nodeOpClass d.opc == 3 || nodeOpClass d.opc == 5

/-- Whether a lane reads a poisoned word of a scratchpad or lane slice, which the fills may have brought in (R304). -/
def NodeTurn.poisoned (t : NodeTurn) (filled : State) (l : Nat) : Bool :=
  if nodeOpClass t.d.opc = 2 then false
  else if 0xC8 ≤ t.d.opc then t.s.poisonAt (laneWordKey t.core (laneKey t.b (t.d.thread l) (t.d.addr l))) (mmBytes t.d.mm)
  else if 0xC0 ≤ t.d.opc then filled.localPoison t.core t.p.blk (mmBytes t.d.mm) (t.d.addr l)
  else false

/-- Whether a scratchpad access of a node waits: an engine will write a sector of it (R346), or the window has not learnt of a write that the
node has made or read (R282, assumption 96). -/
def NodeTurn.localHeld (t : NodeTurn) (n a : Nat) : Bool :=
  t.s.destWait t.core t.p.blk n a || (nodeOpClass t.d.opc == 1 && t.s.staleAt t.core (nodeSlot t.pi t.ni) t.p.blk n a)

/-- A memory node of a region takes one token of each input and performs its access; the result carries the address token's header, with
the record's GRP, and a store or reduction completes at the join and end nodes wired to it (R366, R395). A streaming node that does not
perform notes the moment (R291). -/
def NodeTurn.regionAccess (t : NodeTurn) : Out :=
    let s := t.s
    let core := t.core
    if t.d.kind ≠ 1 ∨ !t.d.whole ∨ (t.d.returns ∧ !t.room) ∨ t.held then .next t.note
    else
      let ls := t.d.lanes
      let w := mmBytes t.d.mm
      let sp := 0xC0 ≤ t.d.opc ∧ t.d.opc < 0xC8
      if sp ∧ ls.any (fun l => t.localHeld w (t.d.addr l)) then .next s
      else t.checked (if t.d.opc < 0xC0 then w else 32) (t.d.opc < 0xC0 && nodeOpClass t.d.opc != 2) (ls.map (fun l => (l, t.reach l))) (fun lanes =>
        if ls.any (fun l => t.poisoned (t.filled lanes) l) then .next ((t.filled lanes).blockFatal core t.p.blk 0x41 0 0)
        else if mmOrd t.d.mm % 2 = 1 ∧ s.notices.any (fun n => n.owed core (mmScp t.d.mm) && n.about (laneCells lanes w)) then .next s
        else
        let q := t.perform lanes
        let q1 := t.drawn q.1
        let c0 := (q1.core core).setPlaced t.pi (((q1.core core).placedAt t.pi).fenced t.ni)
        let c := c0.setNode t.pi t.ni { t.d.taken with past := ((c0.placedAt t.pi).node t.ni).past }
        let h := ((t.d.in0.head?).map (·.hdr)).getD 0
        let h1 := (h &&& ~~~(0x1F#32 <<< 18)) ||| (BitVec.ofNat 32 (t.d.grp % 32) <<< 18)
        let c1 := if t.d.returns then
            c.send (t.p.dest t.pi t.d.route) (tokenOf h1 (fun l => if ls.contains l then BitVec.ofNat 32 (q.2 l) else 0))
          else (t.p.joinsOf t.ni).foldl (fun (c : Core) j =>
            let e := (c.placedAt t.pi).node j
            c.setNode t.pi j { e with completions := e.completions + 1 }) c
        .next (q1.setCore core c1))

/-! ## Stream engines (R363, R364) -/

/-- Extent `i` of a stream engine; 0 is taken as 1. -/
def Node.extent (d : Node) (i : Nat) : Nat := max 1 (d.ext.getD i 1)

/-- The address of element i0 + `l` of the nest at its position. -/
def Node.streamAddr (d : Node) (l : Nat) : Nat :=
  let at_ : Int := (List.range 4).foldl (fun a i => a + d.stride.getD i 0 * ((d.pos.getD i 0 + (if i = 0 then l else 0) : Nat) : Int)) d.base.toNat
  (BitVec.ofInt 64 at_).toNat % (if d.space = 0 then 2 ^ 64 else 2 ^ 32)

/-- END of the token that holds `k` elements from the position. -/
def Node.streamEnds (d : Node) (k : Nat) : Nat :=
  let last := fun i => if i = 0 then decide (d.extent 0 ≤ d.pos.getD 0 0 + k) else d.pos.getD i 0 + 1 == d.extent i
  (List.range 4).foldl (fun a i => if (List.range (i + 1)).all last then a + 2 ^ i else a) 0

/-- The position after a token, and whether the round goes on. -/
def Node.advance (d : Node) : Node :=
  let step1 := fun (r : List Nat × Bool) (i : Nat) =>
    if !r.2 then r
    else
      let v := r.1.getD i 0 + (if i = 0 then 8 else 1)
      if v < d.extent i then (r.1.set i v, false) else (r.1.set i 0, true)
  let r := (List.range 4).foldl step1 (d.pos, true)
  { d with
    pos := r.1
    walking := !r.2 }

/-- Whether a lane of a stream engine's scratchpad read waits. -/
def NodeTurn.streamHeld (t : NodeTurn) (a : Nat) : Bool :=
  t.s.destWait t.core t.p.blk 4 a || t.s.staleAt t.core (nodeSlot t.pi t.ni) t.p.blk 4 a

/-- A stream engine sends its next token (R363). -/
def execStreamToken (core n : Nat) (s : State) : Out :=
  match s.nodeTurn core n with
  | none => .next s
  | some t =>
    if t.d.kind ≠ 3 ∨ !t.d.walking ∨ (t.p.dest t.pi t.d.route).isNone ∨ !t.room then .next s
    else
      let k := min 8 (t.d.extent 0 - t.d.pos.getD 0 0)
      let ls := List.range k
      let a := t.d.streamAddr
      if t.d.space ≠ 0 ∧ ls.any (fun l => t.streamHeld (a l)) then .next s
      else t.checked (if t.d.space = 0 then 4 else 32) (t.d.space = 0)
        (ls.map (fun l => (l, if t.d.space = 0 then (a l, s.reach core t.b .read 4 (a l)) else s.localReach core t.p.blk .load 4 (a l)))) (fun lanes =>
          let me := nodeSlot t.pi t.ni
          let s0 := if t.d.space = 0 then s.loadLines core me 0 (laneCells lanes 4)
            else (s.fillAll core t.p.blk 4 a lanes).loadLines core me 0 (laneCells lanes 32)
          if t.d.space ≠ 0 ∧ ls.any (fun l => s0.localPoison core t.p.blk 4 (a l)) then .next (s0.blockFatal core t.p.blk 0x41 0 0) else
          let s1 := if t.d.space = 0 then s0 else ls.foldl (fun (s : State) l => s.observeLocal core me t.p.blk 4 (a l)) s0
          let v := fun l => if t.d.space = 0 then (t.view l).laneRead lanes 4 l else t.localSeen s1 4 (a l) l
          let h := hdrOf false (t.d.pos.getD 0 0 / 8) 0 (t.d.round - 1) (t.d.streamEnds k) (BitVec.ofNat 8 (2 ^ k - 1))
          let s2 := t.drawn s1
          let c := (s2.core core).setNode t.pi t.ni t.d.advance
          .next (s2.setCore core (c.send (t.p.dest t.pi t.d.route) (tokenOf h (fun l => if l < k then BitVec.ofNat 32 (v l) else 0)))))

/-- The field that a parameter token replaces (R364). -/
def Node.param (d : Node) (q : Token) : Node :=
  let sel := (q.lane 2).toNat % 8
  let e := (q.lane 0).toNat % 2 ^ 16
  if sel = 0 then { d with base := q.lane 1 ++ q.lane 0 }
  else if sel ≤ 4 then { d with ext := d.ext.set (sel - 1) (if e = 0 then 1 else e) }
  else d

/-- A parameter token starts the next round of a stream engine that has finished its round (R364). -/
def execStreamRound (core n : Nat) (s : State) : Out :=
  match s.nodeTurn core n with
  | none => .next s
  | some t =>
    match t.d.kind, t.d.walking, t.d.in0 with
    | 3, false, q :: r =>
      let d := (t.d.param q).start
      .next (s.setCore core (t.c.setNode t.pi t.ni { d with in0 := r }))
    | _, _, _ => .next s

/-! ## The end node (R403) -/

/-- Whether a memory node has an access to perform: all its tokens are at it or on their way. -/
def Core.accessDue (c : Core) (pi ni : Nat) : Bool :=
  let d := (c.placedAt pi).node ni
  let there := fun (q : List Token) k => !q.isEmpty || 0 < c.flying (.port pi ni k)
  there d.in0 0 && (!d.needs.1 || there d.in1 1) && (!d.needs.2 || there d.in2 2)

/-- Where a token arrives: an element, or 64 plus a node record index. -/
def Dest.point : Dest → Nat
  | .chan e _ => e
  | .port _ n _ => 64 + n

/-- The points of a placed image from which a token can come to some of its points, these among them. -/
def Core.feeders (c : Core) (pi : Nat) (goals : List Nat) : Nat → List Nat
  | 0 => goals
  | n + 1 =>
    let l := Core.feeders c pi goals n
    let p := c.placedAt pi
    let into := fun w => (p.dest pi w).any (fun d => l.contains d.point)
    let es := ((c.elemsOf pi).filter (fun e => (List.range 4).any (fun k => into (SMap.get 0 (c.elem e).routes k))))
    let ns := ((p.nodes.filter (fun q => into q.2.route)).map (fun q => 64 + q.1))
    l ++ (es ++ ns).filter (fun q => !l.contains q)

/-- Whether an access of some memory nodes of a region is still to come: a token is on its way to one, or to a point that feeds one, or such a
point is about to send: an element with a ready slot, a memory node with an access due, a stream engine in its round. R403 awaits every
access and does not say which are those of the run. MODEL'S CHOICE (assumption 116). -/
def State.accessComing (s : State) (core pi : Nat) (ns : List Nat) : Bool :=
  let c := s.core core
  let p := c.placedAt pi
  let l := c.feeders pi (ns.map (64 + ·)) ((c.elemsOf pi).length + p.nodes.length)
  c.hops.any (fun h => l.contains h.1.point && (match h.1 with
    | .chan e _ => (c.elem e).owner == pi + 1
    | .port q _ _ => q == pi)) ||
  l.any (fun q => if q < 64 then elemSlots.any (fun n => (s.slotReady core q n).isSome)
    else c.accessDue pi (q - 64) || (p.node (q - 64)).kind == 3 && (p.node (q - 64)).walking)

/-- The end node: a token with END[3] set has reached it and every access of the nodes in WIRED has performed at its SCOPE. A token with
END[3] clear is consumed. The groups that wait for the region take over what its nodes know of writes (R279). -/
def execRegionDone (core n : Nat) (s : State) : Out :=
  let c := s.core core
  let p := c.placedAt n
  match p.nodes.find? (fun q => q.2.kind == 6) with
  | none => .next s
  | some (ni, d) =>
    if p.region ≠ some .running ∨ p.frozen then .next s
    else
      let (d, more) := match d.ended, d.in0 with
        | true, _ => (d, true)
        | false, [] => (d, false)
        | false, q :: r => ({ d with
            in0 := r
            ended := hdrEnd q.hdr 3 }, hdrEnd q.hdr 3)
      let ws := p.wiredTo ni
      let p1 := p.setNode ni d
      if more ∧ !(s.accessComing core n ws) ∧ !(s.unperformedBy core (ws.map (nodeSlot n)) d.scope) then
        let waits := (c.block p.blk).slots.filter (fun i => (c.group i).st == .waiting (.fxwait p.rgn))
        .next ((s.learn core waits (p.nodes.map (fun q => nodeSlot n q.1))).setCore core
          ((c.setPlaced n { (p1.setNode ni { d with ended := false }) with region := some .done }).wakeFx p.blk p.rgn 0))
      else .next (s.setCore core (c.setPlaced n p1))

/-! ## Echo probes (R369, R370) -/

/-- What fills a channel or node port: an element and out port, or a node; none for a parameter port or the drain port. -/
def Core.source (c : Core) (pi : Nat) (d : Dest) : Option Nat :=
  let p := c.placedAt pi
  let es := (c.elems.filter (fun q => q.2.owner == pi + 1)).find? (fun q =>
    (List.range 4).any (fun k => p.dest pi (SMap.get 0 q.2.routes k) == some d))
  let ns := p.nodes.find? (fun q => q.2.kind != 4 && p.dest pi q.2.route == some d)
  (es.map (·.1)).or (ns.map (fun q => 64 + q.1))

/-- The point that drains a channel or port; none for the parameter port of a stream engine and for the drain port, where a probe dies
(R369). -/
def Placed.drainer (p : Placed) : Dest → Option Nat
  | .chan e _ => some e
  | .port _ n _ => if (p.node n).kind = 3 ∨ (p.node n).kind = 4 then none else some (64 + n)

/-- The out ports without space that keep a slot from firing. -/
def State.slotBlocked (s : State) (core ei n : Nat) : List Nat :=
  let w := ((s.core core).elem ei).slotWord n
  let f := s.firing core ei n (elemFields w)
  let m := elemForm (slotOp w)
  if !(m.inputs f && f.headTest) then []
  else match m.lanes f with
    | none => []
    | some x =>
      let ports := (m.eff f x (m.header f)).sends.map (·.1)
      ports.filter (fun k => match f.out k with
        | some d => !f.c.spaceFor d (ports.filter (fun j => f.out j == some d)).length
        | none => false)

/-- The wait-for edges of an element: a port and the point it leads to; none where an edge leads to a parameter port or the drain
port. -/
def State.elemEdges (s : State) (core pi ei : Nat) : List (Nat × Option Nat) :=
  let c := s.core core
  let p := c.placedAt pi
  elemSlots.flatMap (fun n =>
    (s.slotWaits core ei n).map (fun k => (k, c.source pi (.chan ei k))) ++
    (s.slotBlocked core ei n).map (fun k => (4 + k, (p.dest pi (SMap.get 0 (c.elem ei).routes k)).bind p.drainer)))

/-- Whether a node waits on memory: its requests are at their limit, or a response is outstanding (R369). -/
def State.nodeWaits (s : State) (core pi ni : Nat) : Bool :=
  s.nodeFull core pi ni || s.unperformedBy core [nodeSlot pi ni] 4

/-- The wait-for edges of a node. A memory node that waits on memory has none (R369). -/
def State.nodeEdges (s : State) (core pi ni : Nat) : List (Nat × Option Nat) :=
  let c := s.core core
  let p := c.placedAt pi
  let d := p.node ni
  let out := match p.dest pi d.route with
    | some q => if c.space q then [] else [(4, p.drainer q)]
    | none => []
  match d.kind with
  | 1 => if s.nodeWaits core pi ni then [] else
    let miss := fun (q : List Token) k => if q.isEmpty then [(k, c.source pi (.port pi ni k))] else []
    let ins := miss d.in0 0 ++ (if d.needs.1 then miss d.in1 1 else []) ++ (if d.needs.2 then miss d.in2 2 else [])
    if !ins.isEmpty then ins else if d.returns then out else []
  | 2 | 6 => (p.wiredTo ni).filterMap (fun w =>
      if s.unperformedBy core [nodeSlot pi w] 4 || c.accessDue pi w then some (0, some (64 + w)) else none)
  | 3 => if d.walking then out else []
  | _ => []

/-- An element waits another 4,096 cycles before it sends a probe again (R369). -/
def Element.rest (e : Element) : Element := { e with chans := e.chans.map (fun q => (q.1, { q.2 with timer := 0 })) }

/-- A blocked channel sends an echo probe; when it dies the element waits another 4,096 cycles before it sends again (R369). -/
def execProbeSend (core elem chan : Nat) (s : State) : Out :=
  let c := s.core core
  let e := c.elem elem
  let pi := e.owner - 1
  let p := c.placedAt pi
  if e.owner = 0 ∨ 4 ≤ chan ∨ p.region ≠ some .running ∨ p.frozen ∨ (e.chan chan).timer < 4096 ∨ c.probes.any (fun q => q.placed == pi) then .next s
  else
    let c1 := c.setElem elem e.rest
    .next (s.setCore core { c1 with probes := c1.probes ++ [{ placed := pi, elem, chan, place := elem, path := [] }] })

/-- The edges along which a probe may leave its place: an empty channel at the origin leads to its source alone. -/
def State.probeEdges (s : State) (core : Nat) (q : Probe) : List (Nat × Option Nat) :=
  let c := s.core core
  if q.path.isEmpty ∧ (((c.elem q.elem).chan q.chan).q).isEmpty then [(q.chan, c.source q.placed (.chan q.elem q.chan))]
  else if q.place < 64 then s.elemEdges core q.placed q.place
  else s.nodeEdges core q.placed (q.place - 64)

/-- The channels that a slot takes tokens from: its sources, MERGE's control channel, and those that TA names (R186, R202). -/
def Firing.takes (f : Firing) (op : Nat) : List Nat :=
  if op = 0 then []
  else (if (elemForm op).kind = .preds then [] else f.srcChans) ++ (if op = 0x2C then [f.lit.toNat % 4] else []) ++ f.ta

/-- The slot that waits on a channel of an element, otherwise ready before any other, or that should dequeue it; 0xFF for none. -/
def State.slotOn (s : State) (core ei chan : Nat) : Nat :=
  let w := fun n => ((s.core core).elem ei).slotWord n
  let hit := (elemSlots.find? (fun n => (s.slotLacks core ei n).contains chan)).or
    (elemSlots.find? (fun n => (s.slotWaits core ei n).contains chan))
  (hit.or (elemSlots.find? (fun n => ((s.firing core ei n (elemFields (w n))).takes (slotOp (w n))).contains chan))).getD 0xFF

/-- CARILLON_DEADLOCK: the probe has come back to its origin (R370). -/
def State.deadlocked (s : State) (core : Nat) (q : Probe) (path : List (Nat × Nat)) : State :=
  let n := s.slotOn core q.elem q.chan
  let k := if n = 0xFF then 0xFF else (((s.core core).elem q.elem).ctxmap.extractLsb' (2 * n) 2).toNat
  let s1 := s.setCore core { (s.core core) with deadlock := path.take 64 }
  s1.placedFault core q.placed 0x21 0 0 (detailOf (q.elem % 8) (q.elem / 8) k n q.chan ((s.core core).placedAt q.placed).rgnByte)

/-- A probe moves one wait-for edge, dies, or returns to its origin. -/
def execProbeForward (core : Nat) (s : State) : Out :=
  let c := s.core core
  match c.probes with
  | [] => .next s
  | q :: r =>
    let es := s.probeEdges core q
    let s1 := { s with tick := s.tick + 1 }
    let gone := s1.setCore core { (c.setElem q.elem (c.elem q.elem).rest) with probes := r }
    match es[Config.freeChoice s.tick % es.length]? with
    | some (port, some next) =>
      let path := q.path ++ [(q.place, if q.path.isEmpty then q.chan else port)]
      if next = q.elem then .next (gone.deadlocked core q path)
      else .next (s1.setCore core { c with
        probes := r ++ [{ q with
          place := next
          path := path }] })
    | _ => .next gone

end Sys2Proof.Machine
end

