-- ==== Sys2Proof/Machine/Capture.lean ====
section
/-!
DEFINITION. Captured loops: the placer and its check of a body (R36 to R38, R210), hand-over (R39, R40), iterations (R41 to R43), exit
(R44) and damp (R45, R46). An iteration is executed whole at its commit, as its group would run it on the front end (R43).
-/

namespace Sys2Proof.Machine

/-! ## Bodies (R36, R37, R210) -/

/-- The index, counted from H, of the word that a branch at index `i` targets. -/
def targetIndex (i : Nat) (x : FmtB) : Int := (i : Int) + 1 + x.ofs.toInt

/-- The word of code at an address of a block, as a fetch reads it. -/
def State.codeWord (s : State) (core : Nat) (b : Block) (pc : Nat) : Option Dword :=
  match s.translate b.part core b.asid pc .fetch with
  | .at k => some (BitVec.ofNat 64 (s.rd k 8))
  | _ => none

/-- The words from H to the backward branch that targets H, at most `n` of them; none where there is no such branch. -/
def State.bodyFrom (s : State) (core : Nat) (b : Block) (h : Dword) : (n : Nat) → (i : Nat) → Option (List Dword)
  | 0, _ => none
  | n + 1, i =>
    match s.codeWord core b (h.toNat + 8 * i) with
    | none => none
    | some w =>
      match decodeWord w with
      | .error _ => none
      | .ok (.bra x) => if targetIndex i x = 0 then some [w] else (s.bodyFrom core b h n (i + 1)).map (fun r => w :: r)
      | .ok _ => (s.bodyFrom core b h n (i + 1)).map (fun r => w :: r)

/-- Whether a read of the words from H to the backward branch waits at a home or for a walk. -/
def State.bodyHeld (s : State) (core : Nat) (b : Block) (h : Dword) : (n : Nat) → (i : Nat) → Bool
  | 0, _ => false
  | n + 1, i =>
    s.fetchHeld core b (h.toNat + 8 * i) || (match (s.codeWord core b (h.toNat + 8 * i)).map decodeWord with
      | some (.ok (.bra x)) => targetIndex i x != 0 && s.bodyHeld core b h n (i + 1)
      | some (.ok _) => s.bodyHeld core b h n (i + 1)
      | _ => false)

/-- The kind of a memory form that may stand in a body: SZ and the operand that must be the discard code. -/
def memForm : Instr → Option (BitVec 12 × Opnd)
  | .ld x | .st x | .lds x | .sts x | .ldl x | .stl x => some (x.mm, .discard)
  | .redadd x | .redmin x | .redmax x | .redfadd x => some (x.m, .discard)
  | .atadd x | .atmin x | .atmax x | .atand x | .ator x | .atxor x | .atexch x | .atinc x | .atdec x | .atfadd x | .atfmin x | .atfmax x
  | .atsadd x | .atsmin x | .atsmax x => some (x.m, x.d)
  | .atcas x | .atscas x => some (x.m, x.d)
  | _ => none

/-- The element opcodes that a form maps to (R210, R65), where it has a mapping; a MOV or a MOVI may be a literal. Memory forms, LEA64, FENCE
and BRA are checked apart. -/
def slotForms : Instr → Option (List Nat)
  | .iadd x => if x.m.getLsbD 10 then none else some [0x02]
  | .isub x => if x.m.getLsbD 10 then none else some [0x03]
  | .imul _ => some [0x04]
  | .imulh x => if x.m.getLsbD 11 then none else some [0x05]
  | .imad _ => some [0x06]
  | .imin x => if x.m.getLsbD 11 then some [0x07] else none
  | .imax x => if x.m.getLsbD 11 then some [0x08] else none
  | .and _ => some [0x09]
  | .or _ => some [0x0A]
  | .xor _ => some [0x0B]
  | .andn _ => some [0x0C]
  | .not _ => some [0x0D]
  | .shl x => if x.m.getLsbD 9 then none else some [0x0E]
  | .shr x => if x.m.getLsbD 9 then none else some [0x0F]
  | .sar x => if x.m.getLsbD 9 then none else some [0x10]
  | .popc _ => some [0x11]
  | .clz _ => some [0x12]
  | .icmp x =>
    if fldM x.m 5 2 ≠ 0 then none
    else match fldM x.m 7 3 with
      | 0 => some [0x1C]
      | 1 => some [0x1D]
      | 2 | 4 => some [if mS x.m then 0x1E else 0x20]
      | 3 | 5 => some [if mS x.m then 0x1F else 0x21]
      | _ => none
  | .isel x => match x.c with
    | .p _ => some [0x13]
    | _ => none
  | .pset x => match fldM x.m 0 8 with
    | 0x88 => some [0x28]
    | 0xEE => some [0x29]
    | 0x55 => some [0x2A]
    | _ => none
  | .mov _ | .movi _ => some []
  | .lea x => some (if fldM x.m 8 2 = 0 then [0x02] else [0x0E, 0x02])
  | .fadd x => if x.m = 0 then some [0x14] else if x.m = 0x20 then some [0x15] else none
  | .fsub x => if x.m = 0 then some [0x15] else none
  | .fmul x => if x.m = 0 then some [0x16] else none
  | .ffma x => if x.m = 0 then some [0x17] else none
  | .fmin x => if x.m = 0 then some [0x18] else none
  | .fmax x => if x.m = 0 then some [0x19] else none
  | .fcmp x =>
    if fldC x.c 4 2 ≠ 0 ∨ x.m.getLsbD 8 then none
    else match fldC x.c 6 4 with
      | 2 | 4 => some [0x22]
      | 3 | 5 => some [0x23]
      | 0 => some [0x24]
      | 9 => some [0x25]
      | _ => none
  | .cvt x => if x.c = 0x240 ∧ x.m = 0x200 then some [0x1A] else if x.c = 0x012 ∧ x.m = 0 then some [0x1B] else none
  | _ => none

/-- The code of each v, w or p register that a use names. -/
def useCodes (u : Use) : List Nat :=
  match u.o with
  | .v n => (List.range u.regs).map (n.toNat + ·)
  | .w n => (List.range u.regs).map (0x100 + n.toNat + ·)
  | .p n => if n = 7 then [] else [0x110 + n.toNat]
  | _ => []

/-- The guard of a word of a body. -/
def bodyGuard : Instr → Guard
  | .bra x => x.g
  | .movi x => x.g
  | .ld x | .st x | .lds x | .sts x | .ldl x | .stl x | .fence x => x.g
  | .imad x | .isel x | .pset x | .ffma x | .atcas x | .atscas x => x.g
  | .redadd x | .redmin x | .redmax x | .redfadd x | .atadd x | .atmin x | .atmax x | .atand x | .ator x | .atxor x | .atexch x
  | .atinc x | .atdec x | .atfadd x | .atfmin x | .atfmax x | .atsadd x | .atsmin x | .atsmax x => x.g
  | .iadd x | .isub x | .imul x | .imulh x | .imin x | .imax x | .and x | .or x | .xor x | .andn x | .not x | .shl x | .shr x | .sar x
  | .popc x | .clz x | .icmp x | .mov x | .lea x | .lea64 x | .fadd x | .fsub x | .fmul x | .fmin x | .fmax x | .fcmp x | .cvt x => x.g
  | _ => ⟨false, 7⟩

/-- Registers that a word reads or writes, its guard's predicate among them. -/
def namedCodes (i : Instr) : List Nat :=
  let g := bodyGuard i
  ((form i).uses.flatMap useCodes ++ (if g.pred = 7 then [] else [0x110 + g.pred.toNat])).eraseDups
/-- Registers that a word writes. -/
def writtenCodes (i : Instr) : List Nat := ((form i).uses.filter (·.dst)).flatMap useCodes

/-- A LEA64 that a memory node takes over: its base is loop-invariant and its result is used only as a base of memory operands (R36). -/
def leaFused (l : List Instr) (i : Instr) : Bool :=
  match i with
  | .lea64 x =>
    let d := writtenCodes i
    let base := useCodes (src64 x.a)
    !(l.flatMap writtenCodes).any base.contains &&
    l.all (fun j => j == i || ((bodyGuard j).pred == 7 || !d.contains (0x110 + (bodyGuard j).pred.toNat)) &&
      ((form j).uses.filter (fun u => (useCodes u).any d.contains)).all (fun u =>
        (memForm j).isSome && u.regs == 2 && u.o == x.d && !u.dst))
  | _ => false

/-- Whether a word may stand at index `i` of a body of `n` words. -/
def wordFits (l : List Instr) (n i : Nat) (j : Instr) : Bool :=
  let f := form j
  !(f.uses.any (fun u => isXL u.o)) &&
  (match j with
   | .bra x => if i + 1 = n then targetIndex i x == 0 else decide ((i : Int) < targetIndex i x) && decide (targetIndex i x ≤ (n : Int))
   | .fence _ => (l.drop (i + 1)).all (fun q => (memForm q).isNone)
   | .lea64 _ => leaFused l j
   | _ => match memForm j with
     | some (m, d) => d == .discard && fldM m 9 3 ≤ 2
     | none => (slotForms j).isSome)

/-- The registers that a body names: its live-ins, since every register it writes is one of them (R37). -/
def liveIns (l : List Instr) : List Nat := (l.flatMap namedCodes).eraseDups
/-- The live-outs of a body (R37). -/
def liveOuts (l : List Instr) : List Nat := (l.flatMap writtenCodes).eraseDups

/-- Whether a body is eligible (R36). -/
def bodyFits (l : List Instr) : Bool :=
  l.length ≤ 96 && (l.mapIdx (fun i j => wordFits l l.length i j)).all id &&
  (l.filter (fun j => (memForm j).isSome)).length ≤ 8 &&
  (l.filter (fun j => match j with | .fence _ => true | _ => false)).length ≤ 1 &&
  (liveIns l).length ≤ 24 && (liveOuts l).length ≤ 24

/-- The instructions of some words, where all decode. -/
def decodeAll : List Dword → Option (List Instr)
  | [] => some []
  | w :: r => match decodeWord w, decodeAll r with
    | .ok i, some l => some (i :: l)
    | _, _ => none

/-- The body of the loop at H: its words and its instructions, where it is eligible. -/
def State.eligibleBody (s : State) (core : Nat) (b : Block) (h : Dword) : Option (List Dword × List Instr) :=
  match s.bodyFrom core b h 96 0 with
  | none => none
  | some ws => match decodeAll ws with
    | some l => if bodyFits l then some (ws, l) else none
    | none => none

/-! ## The placer (R38) -/

/-- The code of a live-map entry's register (R53, R392), as `regAt` counts them. -/
def liveCode (i : List Byte) (r : Nat) : Option Nat :=
  match opndOfCode (BitVec.ofNat 10 (liveField i r % 1024)) with
  | some (.v n) => some n.toNat
  | some (.w n) => some (0x100 + n.toNat)
  | some (.p n) => some (0x110 + n.toNat)
  | _ => none

/-- The index of a live-map entry's home: a d register, or an ep bit (R392). -/
def liveHome (i : List Byte) (r : Nat) : Nat := liveField i r / 2 ^ 11 % 8

/-- Whether a live map names the live-ins of a body, each once, and marks its live-outs (R37, R392). A p register lives in one of ep0 to ep6
(R210). -/
def liveMapOk (i : List Byte) (l : List Instr) : Bool :=
  let m := (List.range (imLive i)).filterMap (fun r => (liveCode i r).map (fun c => (c, (liveField i r).testBit 10)))
  m.length == imLive i && (liveIns l).length == m.length &&
  (List.range (imLive i)).all (fun r => liveHome i r != 7 || (liveCode i r).all (fun c => decide (c < 0x110))) &&
  (liveIns l).all (fun c => (m.filter (fun q => q.1 == c)).map (·.2) == [(liveOuts l).contains c])

/-- The memory words of a body in program order: opcode, M and signed comparison of each (R57, R395). -/
def memWords (ws : List Dword) (l : List Instr) : List (Nat × Nat × Bool) :=
  ((ws.zip l).filter (fun q => (memForm q.2).isSome)).map (fun q =>
    (opOf q.1, (q.1.extractLsb' 0 12).toNat, nodeSigned (opOf q.1) && q.1.getLsbD 12))

/-- The register whose home is index `n` of the element of a record: a d register, or an ep bit where `pred` (R392). -/
def homeAt (i : List Byte) (r n : Nat) (pred : Bool) : Option Nat :=
  ((List.range (imLive i)).find? (fun v => liveHome i v == n && liveField i v / 2 ^ 14 % 8 == elField i r 0 1 &&
    liveField i v / 2 ^ 17 % 8 == elField i r 1 1 && (liveCode i v).any (fun c => decide (0x110 ≤ c) == pred))).bind (liveCode i)

/-- The operands of a form whose sources may not change places, as source A and source B of its element form: `.gt` and `.ge` map with the two
swapped (R210). -/
def slotOperands : Instr → Option (Opnd × Opnd)
  | .isub x | .andn x | .shl x | .shr x | .sar x | .fsub x => some (x.a, x.b)
  | .fadd x => if x.m = 0x20 then some (x.a, x.b) else none
  | .icmp x => if fldM x.m 7 3 = 4 ∨ fldM x.m 7 3 = 5 then some (x.b, x.a) else some (x.a, x.b)
  | .fcmp x => if fldC x.c 6 4 = 4 ∨ fldC x.c 6 4 = 5 then some (x.b, x.a) else some (x.a, x.b)
  | _ => none

/-- Whether a forward branch of a body can skip its word `n` (R210). -/
def skippable (l : List Instr) (n : Nat) : Bool :=
  l.zipIdx.any (fun q => match q.1 with
    | .bra x => decide (q.2 < n) && decide ((n : Int) < targetIndex q.2 x) && q.2 + 1 != l.length
    | _ => false)

/-- Whether a slot of an image may be what word `n` of a body, `j`, maps to under an element opcode (R210): the opcode; an ANY guard, on the
word's own predicate where its home is the element's, for a guarded word or one that a branch can skip, and otherwise none; and, where the
places of the sources matter, no source that is the home of another register. ISEL's guard is its operand C. -/
def slotServes (i : List Byte) (l : List Instr) (n : Nat) (j : Instr) (op r k : Nat) : Bool :=
  let w := elSlot i r k
  let x := elemFields w
  let g := bodyGuard j
  let pr := (x.gd.extractLsb' 4 3).toNat
  let own := fun (code : BitVec 4) (o : Opnd) =>
    decide (code.toNat < 4) || decide (11 < code.toNat) ||
    (homeAt i r (code.toNat - 4) false).all (fun c => useCodes (src o) == [c])
  let fits := match slotOperands j with
    | some (a, b) => own x.sa a && own x.sb b
    | none => true
  let skip := skippable l n
  let guarded :=
    if op = 0x13 then true
    else if g.pred = 7 ∧ !skip then pr == 7 && x.gd.getLsbD 3
    else pr != 7 && !x.gd.getLsbD 2 &&
      (skip || (homeAt i r pr true).all (fun c => c == 0x110 + g.pred.toNat && x.gd.getLsbD 3 == !g.neg))
  slotOp w == op && fits && guarded

/-- Whether a guarded word's value may leave on a channel: a SEL then follows it (R210). -/
def selCloses (i : List Byte) (ops : List Nat) (r k : Nat) : Bool :=
  let x := elemFields (elSlot i r k)
  ops.contains 0x13 || !(decide (x.da.toNat ≤ 3) || (decide (1 ≤ x.db.toNat) && decide (x.db.toNat ≤ 4)))

/-- Whether an image holds what the words of a body map to (R210): a slot that serves each element form, a SEL behind a guarded form that leaves
on a channel, a PAND where a word has both a guard and a path predicate, and one memory node for each memory word, with the word's place as
its sequence tag (R43). -/
def imageMaps (i : List Byte) (ws : List Dword) (l : List Instr) : Bool :=
  let slots := (List.range (imElems i)).flatMap (fun r => (List.range 16).map (fun n => (r, n)))
  let ops := slots.map (fun q => slotOp (elSlot i q.1 q.2))
  let ms := imNodesOf i 1
  let mw := memWords ws l
  l.zipIdx.all (fun q => ((slotForms q.1).getD []).all (fun op => slots.any (fun z => slotServes i l q.2 q.1 op z.1 z.2 &&
      ((bodyGuard q.1).pred == 7 && !skippable l q.2 || selCloses i ops z.1 z.2)))) &&
  l.zipIdx.all (fun q => ops.contains 0x28 || (bodyGuard q.1).pred == 7 || ((slotForms q.1).getD []).isEmpty || !skippable l q.2) &&
  ms.length == mw.length &&
  (mw.mapIdx (fun t q => ms.any (fun r => ndField i r 4 1 == t && ndField i r 5 1 == q.1 && ndField i r 6 2 == q.2.1 &&
    (ndField i r 9 1).testBit 3 == q.2.2))).all id

/-- Whether an image keeps what the placer promises: no MERGEU (R203), SRL 255 on the channels of loop-invariant tokens (R185), and channels that
the loop feeds which have no other source (R361) and hold an iteration's four tokens. -/
def placerOk (i : List Byte) : Bool :=
  (List.range (imElems i)).all (fun r => (List.range 16).all (fun n => slotOp (elSlot i r n) != 0x2D)) &&
  routesApart ((Config.placerEntry i).map (fun q => q.1 + 256 * q.2.1 + 65536 * q.2.2.1)) &&
  (Config.placerEntry i).all (fun q => match elemAtPos i q.1 q.2.1 with
    | some r => decide (q.2.2.1 < 4) && (if q.2.2.2 = 0 then elSrl i r q.2.2.1 == 0 else elSrl i r q.2.2.1 == 255) &&
        (elDepth i r q.2.2.1 == 0 || elDepth i r q.2.2.1 == 4) &&
        !(allRoutes i).any (fun w => routeTo w == .chan q.1 q.2.1 q.2.2.1)
    | none => false)

/-- The image that the placer writes for a request, where the body is eligible and an image is found that R397 accepts for the key and the
block's shares, whose live map is the body's and which holds what its words map to; none for an unplaceable mark. -/
def State.placerResult (s : State) (core : Nat) (b : Block) (h : Dword) (k : PlaceKey) : Option (List Byte) :=
  match s.eligibleBody core b h with
  | none => none
  | some (ws, l) => match Config.placerImage k.objid k.headofs k.layhash k.k ws with
    | none => none
    | some i =>
      if imKind i = 0 ∧ imKey i = k ∧ imageReject i (min (s.core core).budget b.kd.shares) = none ∧ liveMapOk i l ∧ imageMaps i ws l ∧ placerOk i
      then some i
      else none

/-- PLACER_COMPLETE: the placer writes a placement or an unplaceable mark for its oldest request, once it can read the body. -/
def execPlacerComplete (core : Nat) (s : State) : Out :=
  let c := s.core core
  match c.placerq with
  | [] => .next s
  | r :: rest =>
    let c1 := { c with placerq := rest }
    let b := c.block (c.group r.slot).blk
    match (s.part b.part).objects.find? (fun q => q.2.st == 2 && q.2.objid == r.objid) with
    | none => .next (s.setCore core c1)
    | some (_, o) =>
      let k : PlaceKey := ⟨r.objid, r.headofs, r.layhash, r.k⟩
      if s.bodyHeld core b (o.base + BitVec.ofNat 64 r.headofs) 96 0 then .next s
      else .next (s.setCore core (c1.enter k (s.placerResult core b (o.base + BitVec.ofNat 64 r.headofs) k)))

/-! ## Registers by code -/

/-- The register of a lane by its code. -/
def Group.regAt (g : Group) (code l : Nat) : Word :=
  if code < 0x100 then SMap.get 0 g.v (vkey code l)
  else if code < 0x110 then SMap.get 0 g.w (vkey (code - 0x100) l)
  else boolWord ((SMap.get 0 g.p (code - 0x110)).getLsbD l)

/-- Write the register of a lane by its code. -/
def Group.setReg (g : Group) (code l : Nat) (x : Word) : Group :=
  if code < 0x100 then { g with v := SMap.set 0 g.v (vkey code l) x }
  else if code < 0x110 then { g with w := SMap.set 0 g.w (vkey (code - 0x100) l) x }
  else g.setPred (code - 0x110) (1#32 <<< l) (fun _ => x)

/-- The values of registers in every lane, keyed by 32 × code + lane. -/
def Group.regs (g : Group) (codes : List Nat) : SMap Word :=
  codes.foldl (fun m c => (List.range 32).foldl (fun m l => SMap.set 0 m (32 * c + l) (g.regAt c l)) m) []

/-- Write values of registers into every lane. -/
def Group.setRegs (g : Group) (codes : List Nat) (m : SMap Word) : Group :=
  codes.foldl (fun g c => (List.range 32).foldl (fun (g : Group) l => g.setReg c l (SMap.get 0 m (32 * c + l))) g) g

/-! ## Hand-over (R39, R40) -/

/-- Copies that stream on a core. -/
def Core.copies (c : Core) : Nat := (c.placed.filter (fun p => p.2.copy.isSome)).length

/-- The lowest stream group index that no copy of a core has (R360). -/
def Core.freeStream (c : Core) : Nat :=
  ((List.range 16).find? (fun n => !c.placed.any (fun p => p.2.copy.any (fun (q : Copy) => q.gidx == n)))).getD 0

/-- Put the register with a code into its home in the four contexts of an element: octet o of the group lies in context o (R39, R392). -/
def Element.inject (e : Element) (g : Group) (code idx : Nat) : Element :=
  (List.range 4).foldl (fun (e : Element) o =>
    let t := e.ctx o
    let x := fun l => g.regAt code (8 * o + l)
    let t1 : Ctx := if code < 0x110 then { t with d := (List.range 8).foldl (fun m l => SMap.set 0 m (8 * idx + l) (x l)) t.d }
      else { t with ep := SMap.set 0 t.ep idx ((List.range 8).foldl (fun (a : Byte) l => if x l = 0 then a else a ||| (1#8 <<< l)) 0) }
    { e with ctxs := SMap.set {} e.ctxs o t1 }) e

/-- The element of a placed image at a place of its frame. -/
def Placed.elemAt (p : Placed) (x y : Nat) : Nat := 8 * (p.y0 + y) + p.x0 + x

/-- A memory node with BASESRC 2 takes the value of its k pair as its base (R36, R395). -/
def Node.based (d : Node) (g : Group) : Node :=
  if d.basesrc = 2 then { d with base := g.rd64 (.k (BitVec.ofNat 6 d.base.toNat)) 0 } else d

/-- HAND-OVER INJECTION (R39): the live-ins enter their homes, the uniform registers that serve as bases their nodes, and the loop's other
uniform registers their sticky channels (R37). -/
def Core.injectLive (c : Core) (pi : Nat) (g : Group) (q : Copy) : Core :=
  let p := c.placedAt pi
  let c0 := c.setPlaced pi { p with nodes := p.nodes.map (fun d => (d.1, d.2.based g)) }
  let c1 := (List.range (imLive p.image)).foldl (fun (c : Core) r =>
    let v := liveField p.image r
    let e := p.elemAt (v / 2 ^ 14 % 8) (v / 2 ^ 17 % 8)
    match liveCode p.image r with
    | some code => c.setElem e ((c.elem e).inject g code (v / 2 ^ 11 % 8))
    | none => c) c0
  (Config.placerEntry p.image).foldl (fun (c : Core) w =>
    let e := p.elemAt w.1 w.2.1
    let t := tokenOf (hdrOf false 0 q.gidx q.oldest.toNat 0 0xFF) (fun _ => g.kreg (w.2.2.2 - 1))
    if w.2.2.2 = 0 then c else c.setElem e ((c.elem e).setChan w.2.2.1 (((c.elem e).chan w.2.2.1).put t))) c1

/-- HAND_OVER: at the start of an iteration a candidate group whose loop has a placement in the cache is taken by a copy, where one can be
made, and its injection begins, which the first ITERATION_ADMIT ends (R48, R405); otherwise the front end runs on, and the group tries again at a later boundary (R39, R40). It waits while a round leaves no power
share for the carillon; a copy that the limit can never cover raises the overdraw fault (R13, R435). -/
def execHandOver (core slot : Nat) (s : State) : Out :=
  let c := s.core core
  let g := c.group slot
  let b := c.block g.blk
  if !(g.st == .running) || !g.candidate || g.haltReq || b.preempt.isSome || g.pc ≠ g.loopH || 16 ≤ c.copies || s.devstate == 1 ||
      c.carillonHeld then .next s
  else match (s.part b.part).objectAt b.asid g.loopH.toNat, s.eligibleBody core b g.loopH with
    | some (_, o), some (ws, l) =>
      let k : PlaceKey := ⟨o.objid, g.loopH.toNat - o.base.toNat, b.kd.layhash, g.kDepth⟩
      if s.breakIn b.part g.loopH.toNat (g.loopH.toNat + 8 * (ws.length - 1)) then .next s
      else match c.cache.find? (·.has k) with
        | some { image := some i, .. } =>
          match c.sharesFit b i, c.origin i with
          | true, some (x0, y0) =>
            let q : Copy := { slot, head := g.loopH, exitPc := g.loopH + BitVec.ofNat 64 (8 * ws.length), k := g.kDepth
                              oldest := g.loopCount, inflight := 0, permits := g.kDepth, entryMask := g.m
                              cacheKey := (k.objid, k.headofs, k.layhash, k.k), body := ws, outs := liveOuts l, ins := liveIns l
                              gidx := c.freeStream, committed := g.regs (liveIns l) }
            let pi := c.freePlaced
            let c1 := ((c.touch k).loadImage pi g.blk 0 i x0 y0 none (some q)).injectLive pi g q
            let c2 := c1.setGroup slot { g with st := .streaming }
            let s1 := s.setCore core c2
            .next (if c2.overdrawn then s1.placedFault core pi 0x25 0 0 detailNone else s1)
          | _, _ => .next s
        | _ => .next s
    | _, _ => .next s

/-! ## One iteration (R42, R43) -/

/-- The meaning of a word of a body other than a branch. -/
def execBody (i : Instr) (s : State) : Out :=
  match i with
  | .iadd x => execIadd x s
  | .isub x => execIsub x s
  | .imul x => execImul x s
  | .imad x => execImad x s
  | .imulh x => execImulh x s
  | .imin x => execImin x s
  | .imax x => execImax x s
  | .and x => execAnd x s
  | .or x => execOr x s
  | .xor x => execXor x s
  | .andn x => execAndn x s
  | .not x => execNot x s
  | .shl x => execShl x s
  | .shr x => execShr x s
  | .sar x => execSar x s
  | .popc x => execPopc x s
  | .clz x => execClz x s
  | .icmp x => execIcmp x s
  | .isel x => execIsel x s
  | .pset x => execPset x s
  | .mov x => execMov x s
  | .movi x => execMovi x s
  | .lea x => execLea x s
  | .lea64 x => execLea64 x s
  | .fadd x => execFadd x s
  | .fsub x => execFsub x s
  | .fmul x => execFmul x s
  | .ffma x => execFfma x s
  | .fmin x => execFmin x s
  | .fmax x => execFmax x s
  | .fcmp x => execFcmp x s
  | .cvt x => execCvt x s
  | .ld x => execLd x s
  | .st x => execSt x s
  | .lds x => execLds x s
  | .sts x => execSts x s
  | .ldl x => execLdl x s
  | .stl x => execStl x s
  | .redadd x => execRedadd x s
  | .redmin x => execRedmin x s
  | .redmax x => execRedmax x s
  | .redfadd x => execRedfadd x s
  | .atadd x => execAtadd x s
  | .atmin x => execAtmin x s
  | .atmax x => execAtmax x s
  | .atand x => execAtand x s
  | .ator x => execAtor x s
  | .atxor x => execAtxor x s
  | .atexch x => execAtexch x s
  | .atcas x => execAtcas x s
  | .atinc x => execAtinc x s
  | .atdec x => execAtdec x s
  | .atfadd x => execAtfadd x s
  | .atfmin x => execAtfmin x s
  | .atfmax x => execAtfmax x s
  | .atsadd x => execAtsadd x s
  | .atsmin x => execAtsmin x s
  | .atsmax x => execAtsmax x s
  | .atscas x => execAtscas x s
  | .fence x => execFence x s
  | _ => .next s

/-! ## What a load may pass (R43)

A load may perform before earlier iterations commit. It waits for what it would read from the group's own accesses, and for what orders it behind
them; both follow from the addresses of the accesses that precede it, and an address is known once the loads it comes from have performed. -/

/-- What the words before a load leave for it to wait for. -/
structure Trace where
  /-- the lanes in which a register, by its code, comes from a load that has not performed -/
  late : SMap Mask := []
  /-- bytes that stores, atomics and reductions will write with their iteration's commit: key and count -/
  stores : List (Nat × Nat) := []
  /-- bytes that loads which have not performed will read: lane, key and count -/
  loads : List (Nat × Nat × Nat) := []
  /-- lanes whose loads of global memory and the scratchpad wait, and those whose loads of lane private bytes do: for an access whose address or
  lanes are not known, and for a FENCE or an acquire -/
  shut : Mask := 0
  shutLane : Mask := 0

/-- Every later load waits. -/
def Trace.close (t : Trace) : Trace := { t with shut := 0xFFFFFFFF, shutLane := 0xFFFFFFFF }

/-- The lanes in which one of some registers is late. -/
def Trace.lateIn (t : Trace) (codes : List Nat) : Mask := codes.foldl (fun m c => m ||| SMap.get 0 t.late c) 0

/-- A register is written in the lanes `x`, from something late in the lanes `l`. -/
def Trace.wrote (t : Trace) (x l : Mask) (c : Nat) : Trace :=
  { t with late := SMap.set 0 t.late c ((SMap.get 0 t.late c &&& ~~~x) ||| (l &&& x)) }

/-- The registers of a guard. -/
def guardCodes (i : Instr) : List Nat := if (bodyGuard i).pred = 7 then [] else [0x110 + (bodyGuard i).pred.toNat]

/-- Where an access goes: global memory, the scratchpad, or lane private bytes. -/
inductive Space where
  | global | scratch | lane
deriving DecidableEq, Repr

/-- The space of a memory word of a body, and the registers of its address. -/
def memSite : Instr → Option (Space × List Nat)
  | .ld x | .st x => some (.global, useCodes (src64 x.a))
  | .lds x | .sts x => some (.scratch, useCodes (src x.a))
  | .ldl x | .stl x => some (.lane, useCodes (src x.a))
  | .atsadd x | .atsmin x | .atsmax x => some (.scratch, useCodes (src x.a))
  | .atscas x => some (.scratch, useCodes (src x.a))
  | .atcas x => some (.global, useCodes (src64 x.a))
  | .redadd x | .redmin x | .redmax x | .redfadd x | .atadd x | .atmin x | .atmax x | .atand x | .ator x | .atxor x | .atexch x
  | .atinc x | .atdec x | .atfadd x | .atfmin x | .atfmax x => some (.global, useCodes (src64 x.a))
  | _ => none

/-- The address of a lane of a memory word. -/
def Fe.siteAddr (e : Fe) (i : Instr) (l : Nat) : Nat :=
  match i with
  | .ld x | .st x => e.gaddr x l
  | .lds x | .sts x | .ldl x | .stl x => e.saddr x l
  | .atsadd x | .atsmin x | .atsmax x => (e.g.rd x.a l).toNat
  | .atscas x => (e.g.rd x.a l).toNat
  | .atcas x => e.baseAddr x.a l
  | .redadd x | .redmin x | .redmax x | .redfadd x | .atadd x | .atmin x | .atmax x | .atand x | .ator x | .atxor x | .atexch x
  | .atinc x | .atdec x | .atfadd x | .atfmin x | .atfmax x => e.baseAddr x.a l
  | _ => 0

/-- The bytes that a lane's access of `n` bytes reaches, by their keys: a load of a window word reads the global word too (R288). None where
the translation is still to come; an access that fails reaches nothing, since its iteration damps. -/
def Fe.laneFeet (e : Fe) (i : Instr) (sp : Space) (load : Bool) (n l : Nat) : Option (List (Nat × Nat)) :=
  let a := e.siteAddr i l
  let far := fun (need : Need) (va : Nat) => match e.s.reach e.core e.b need n va with
    | .at k => some [(k, n)]
    | .wait | .held => none
    | _ => some []
  match sp with
  | .lane => some [(laneWordKey e.core (laneKey e.b (e.g.tid l) a), n)]
  | .global => far (if load then .read else .write) a
  | .scratch => match e.s.spot e.core e.g.blk a n with
    | .bad _ => some []
    | .ok p =>
      let own := (spKey p.core (e.s.scratchKey p.core p.blk p.off), n)
      match p.win, load with
      | some w, true => (far .read (w.vaAt p.off)).map (fun l => own :: l)
      | _, _ => some [own]

/-- SZ, ORD and the other bits of a memory word's M field. -/
def memBits (i : Instr) : BitVec 12 := ((memForm i).map (·.1)).getD 0

/-- The destination of a load that a body may hold. -/
def loadDest : Instr → Option Opnd
  | .ld x | .lds x | .ldl x => some x.d
  | _ => none

/-- The trace behind a word of a body that stands in the lanes of `e`'s mask; `done` are the lanes in which a load has performed early. -/
def Trace.step (t : Trace) (e : Fe) (i : Instr) (done : Mask) : Trace :=
  let may := t.lateIn (guardCodes i) &&& e.g.m
  let x := e.act ||| may
  match i, memSite i with
  | .fence _, _ => if x = 0 then t else t.close
  | _, some (sp, codes) =>
    let load := (loadDest i).isSome
    let todo := if load then x &&& ~~~done else x &&& ~~~(e.g.helpers e.b)
    let feet := (lanesOf todo).map (fun l => (l, e.laneFeet i sp load (mmBytes (memBits i)) l))
    let lost := ((t.lateIn codes ||| may) &&& todo) ||| maskOf ((feet.filter (fun q => q.2.isNone)).map (·.1))
    let hid : Mask := if load ∨ lost = 0 then lost else 0xFFFFFFFF
    let t1 := match sp with
      | .lane => { t with shutLane := t.shutLane ||| hid }
      | _ => { t with shut := t.shut ||| hid }
    let known := feet.filter (fun q => !lost.getLsbD q.1)
    let t2 := if load then { t1 with loads := t1.loads ++ known.flatMap (fun q => (q.2.getD []).map (fun f => (q.1, f.1, f.2))) }
      else { t1 with stores := t1.stores ++ known.flatMap (fun q => q.2.getD []) }
    let t3 := (writtenCodes i).foldl (fun (t : Trace) c => t.wrote x todo c) t2
    if sp != .lane && mmOrd (memBits i) % 2 == 1 && todo != 0 then t3.close else t3
  | _, none =>
    let src := t.lateIn (((form i).uses.filter (fun u => !u.dst)).flatMap useCodes)
    (writtenCodes i).foldl (fun (t : Trace) c => t.wrote x ((src &&& x) ||| may) c) t

/-- What executing words of an iteration comes to. -/
inductive Swept where
  /-- all executed: the state, the lanes that exit, and what later loads have to wait for -/
  | done (s : State) (exits : Mask) (t : Trace)
  /-- a damp trigger, and the state of the trial before the word that meets it: of it only the windows' fills remain -/
  | damp (out : Bool) (s : State)
  /-- an access waits on the host, or for an engine's line -/
  | wait
  /-- the block was killed -/
  | killed (s : State)
  | absent

/-- The earlier writes of a block's groups perform. -/
def State.settle (s : State) (core : Nat) (slots : List Nat) : State :=
  (s.writes.filter (fun w => w.core == core && slots.contains w.slot)).foldl (fun s w => s.deliverAll w.id) s

/-- The reply that a group of a captured loop waits for arrives. -/
def State.answer (s : State) (core slot : Nat) : State :=
  match (s.core core).requests.find? (fun r => r.slot == slot) with
  | none => s
  | some r =>
    let s1 := s.serveAtomic core r
    match ((s1.core core).request r.id).map (fun r => (s1.replyFe core r).reply r.work) with
    | some (.next s2) => s2
    | _ => s1

/-- Execute one word of a body in the lanes `act`: the state after it, where it completes. -/
def State.bodyWord (s : State) (core slot blk : Nat) (pc : Dword) (i : Instr) (act : Mask) : Swept :=
  let at_ := fun (s : State) =>
    let s1 := s.setGroup core slot { (s.group core slot) with
      st := .running
      pc := pc
      m := act }
    execBody i { s1 with
      curCore := core
      curSlot := slot }
  let after := fun (r : Out) => match r with
    | .next s1 =>
      if !(s1.core core).hasBlock blk then Swept.killed s1
      else match (s1.group core slot).st with
        | .suspended _ => .damp false s
        | .waiting .reply => .done (s1.answer core slot) 0 {}
        | .running => if (s1.group core slot).pc = pc + 8 then .done s1 0 {} else .wait
        | _ => .wait
    | .fault _ => .absent
    | .refused _ => .wait
  match after (at_ s) with
  | .wait => after (at_ (s.settle core ((s.core core).block blk).slots))
  | r => r

/-- What a front-end word would find that issues for a group of a core in the lanes `act`. -/
def State.feOf (s : State) (core slot : Nat) (i : Instr) (act : Mask) : Fe :=
  let c := s.core core
  let g := { (c.group slot) with m := act }
  { s, core, slot, c, g, b := c.block g.blk, x := bodyGuard i, act := g.act (bodyGuard i) }

/-- The values of a captured load that performed early stand in the lanes that they were read for (R43). -/
def Group.patch (g : Group) (d : Opnd) (vals : List EarlyLoad) : Group :=
  vals.foldl (fun (g : Group) q => { (g.write d (1#32 <<< q.lane) (fun _ => q.val)) with y0 := SMap.set 0 g.y0 q.lane q.val }) g

/-- What a word of iteration `it` read early: its sequence tag is its place among the body's memory words (R43). -/
def earlyVals (early : List EarlyLoad) (it : Word) (tag : Nat) : List EarlyLoad := early.filter (fun q => q.it == it && q.tag == tag)

/-- The lanes of early loads. -/
def earlyLanes (l : List EarlyLoad) : Mask := maskOf (l.map (·.lane))

/-- An iteration under way: its number, the early loads, and the words in the whole body. -/
structure Sweep where
  it : Word
  early : List EarlyLoad
  n : Nat

/-- Execute words of a body from index `i` in the lanes `act`; `skips` holds lanes that a forward branch has taken to a later index, and
`tag` is the sequence tag of the next memory word. A load performs only in the lanes in which it has not performed early. Words that end
before the body does leave the lanes that reach the next index. -/
def State.sweep (core slot blk : Nat) (h : Dword) (q : Sweep) : List Dword → Nat → Nat → State → Mask → List (Nat × Mask) → Trace → Swept
  | [], i, _, s, act0, skips, t => .done s ((skips.filter (fun q => q.1 == i)).foldl (fun m q => m ||| q.2) act0) t
  | w :: r, i, tag, s, act0, skips, t =>
    let act := (skips.filter (fun q => q.1 == i)).foldl (fun m q => m ||| q.2) act0
    match decodeWord w with
    | .error _ => .damp false s
    | .ok (.bra x) =>
      let g := s.group core slot
      let taken := ({ g with m := act } : Group).act x.g
      let s1 := if taken = 0 ∨ taken = act then s else s.setGroup core slot g.yInvalid
      let t1 := if t.lateIn (guardCodes (.bra x)) &&& act = 0 then t else t.close
      if i + 1 = q.n then .done s1 (act &&& ~~~taken) t1
      else if targetIndex i x = (q.n : Int) then
        (if taken = 0 then State.sweep core slot blk h q r (i + 1) tag s1 act skips t1 else .damp true s1)
      else State.sweep core slot blk h q r (i + 1) tag s1 (act &&& ~~~taken) (skips ++ [((targetIndex i x).toNat, taken)]) t1
    | .ok j =>
      let tag1 := if (memForm j).isSome then tag + 1 else tag
      if act = 0 then State.sweep core slot blk h q r (i + 1) tag1 s act skips t
      else
        let e := s.feOf core slot j act
        let ev := (if (loadDest j).isSome then earlyVals q.early q.it tag else []).filter (fun v => e.act.getLsbD v.lane)
        let left := act &&& ~~~(earlyLanes ev)
        match (if left = 0 then Swept.done s 0 {} else s.bodyWord core slot blk (h + BitVec.ofNat 64 (8 * i)) j left) with
        | .done s1 _ _ =>
          let s2 := match loadDest j with
            | some d => s1.setGroup core slot ((s1.group core slot).patch d ev)
            | none => s1
          State.sweep core slot blk h q r (i + 1) tag1 s2 act skips (t.step e j (earlyLanes ev))
        | e => e

/-! ## Admission, commit, exit, damp (R41 to R46) -/

/-- The copy that a placed image of a core holds, where it streams: it is not frozen and its group has not left it. -/
def Core.copyAt (c : Core) (n : Nat) : Option (Placed × Copy) :=
  let p := c.placedAt n
  match p.copy with
  | some q => if p.frozen || q.left then none else some (p, q)
  | none => none

/-- Replace the copy of a placed image. -/
def Core.setCopy (c : Core) (n : Nat) (q : Copy) : Core := c.setPlaced n { (c.placedAt n) with copy := some q }

/-- The lanes of an octet that still run (R366). -/
def Copy.octet (q : Copy) (o : Nat) : Byte := ((q.entryMask &&& ~~~q.exited) >>> (8 * o)).setWidth 8
/-- The octets with a lane that still runs. -/
def Copy.octets (q : Copy) : List Nat := [0, 1, 2, 3].filter (fun o => q.octet o != 0)

/-- The channels that the loop feeds with each iteration. -/
def Placed.entries (p : Placed) : List Dest :=
  ((Config.placerEntry p.image).filter (fun w => w.2.2.2 == 0)).map (fun w => .chan (p.elemAt w.1 w.2.1) w.2.2.1)

/-- The tokens that enter with an iteration: one for each octet with a lane that still runs, to each channel that the loop feeds (R41,
R360). -/
def Core.enterTokens (c : Core) (p : Placed) (q : Copy) : Core :=
  p.entries.foldl (fun (c : Core) d => q.octets.foldl (fun (c : Core) o =>
    c.send (some d) (tokenOf (hdrOf false o q.gidx q.nextIter.toNat 0 (q.octet o)) (fun _ => 0))) c) c

/-- Discard the tokens of a copy whose ITER tag meets a condition, counted modulo 64 from the oldest uncommitted iteration; a sticky head
with SRL 255 is kept (R367). -/
def Core.dropIters (c : Core) (pi : Nat) (oldest : Word) (f : Nat → Bool) : Core :=
  let es := c.elemsOf pi
  let stay := fun (t : Token) => !f ((hdrIter t.hdr + 64 - oldest.toNat % 64) % 64)
  let chan := fun (q : Channel) =>
    let l := if q.srl = 255 then q.q.take 1 ++ (q.q.drop 1).filter stay else q.q.filter stay
    { q with
      q := l
      sct := if l.head? = q.q.head? then q.sct else if l.isEmpty then q.sct else q.srl }
  let p := c.placedAt pi
  let node := fun (d : Node) => { d with
    in0 := d.in0.filter stay
    in1 := d.in1.filter stay
    in2 := d.in2.filter stay }
  let c1 := es.foldl (fun (c : Core) e =>
    c.setElem e ((List.range 4).foldl (fun (x : Element) n => x.setChan n (chan (x.chan n))) (c.elem e))) c
  { (c1.setPlaced pi { p with nodes := p.nodes.map (fun d => (d.1, node d.2)) }) with
    hops := c1.hops.filter (fun h => stay h.2 || (match h.1 with
      | .chan e _ => !es.contains e
      | .port k _ _ => k != pi)) }

/-- ITERATION_ADMIT: a permit admits the next iteration, whose tokens enter once every channel that the loop feeds has space for them (R41, R362,
R368). With the first the hand-over is complete (R39). -/
def execIterationAdmit (core n : Nat) (s : State) : Out :=
  let c := s.core core
  match c.copyAt n with
  | some (p, q) =>
    if q.permits = 0 ∨ q.damp.isSome ∨ q.exitIter.isSome ∨ p.entries.any (fun d => !c.spaceFor d q.octets.length) then .next s
    else .next (s.setCore core (((c.enterTokens p q).setCopy n { q with
      permits := q.permits - 1
      inflight := q.inflight + 1
      injected := true }).count 5 (if q.injected then 0 else 1)))
  | none => .next s

/-- The copy after its oldest iteration has committed with committed values `m`, lanes `exits` leaving in it (R42, R44). When the last lane
leaves, a damp trigger still pending names a later iteration, and is dropped (R48). -/
def Copy.commit (q : Copy) (m : SMap Word) (exits : Mask) : Copy :=
  let out := q.exited ||| exits
  { q with
    oldest := q.oldest + 1
    inflight := q.inflight - 1
    permits := q.permits + 1
    committed := m
    exited := out
    early := q.early.filter (fun w => w.it != q.oldest)
    damp := if q.entryMask &&& ~~~out = 0 then none else q.damp
    exitIter := if q.entryMask &&& ~~~out = 0 then some q.oldest else none }

/-- A trial of the oldest iteration: its group holds the committed registers. -/
def State.trial (s : State) (core : Nat) (q : Copy) : State :=
  s.setGroup core q.slot ({ (s.group core q.slot) with stack := [] }.setRegs q.outs q.committed)

/-- The fills that a trial made in the windows of a block remain as cache state (R274): each word that the trial made valid is filled from the
same place, with what stands there without the trial's stores. A write-only window never fills. -/
def State.keepFills (s t : State) (core blk : Nat) : State :=
  ((s.core core).windows.filter (fun w => w.blk == blk && w.mode != 2)).foldl (fun (s : State) w =>
    (List.range (w.size / 32)).foldl (fun (s : State) i =>
      let sec := w.sb + 32 * i
      match (List.range 8).find? (fun j => !(s.marksAt core blk (sec + 4 * j)).v && (t.marksAt core blk (sec + 4 * j)).v) with
      | none => s
      | some j =>
        let src := (t.marksAt core blk (sec + 4 * j)).src
        s.fill core blk w sec (if src = 0 then none else some (src - 1 - 4 * j))) s) s

/-- The store nodes of a copy perform the accesses of a committed iteration: each sends a completion token to the join nodes that it is wired
to, for each address token that it has taken (R366). -/
def Core.completeStores (c : Core) (pi : Nat) (it : Word) : Core :=
  let p := c.placedAt pi
  (p.nodes.filter (fun q => q.2.kind == 1 && nodeOpClass q.2.opc != 1)).foldl (fun (c : Core) q =>
    let n := (q.2.in0.filter (fun t => hdrIter t.hdr == it.toNat % 64)).length
    (p.joinsOf q.1).foldl (fun (c : Core) j =>
      let e := (c.placedAt pi).node j
      c.setNode pi j { e with completions := e.completions + n }) c) c

/-- ITERATION_COMMIT: the oldest iteration executes and commits, and its tokens are gone, since the last of them has been produced (R42); or it
meets a fault or a branch out of the body, and names itself as a damp boundary; or it waits. Window words that an iteration filled stay
filled when it damps (R274). -/
def execIterationCommit (core n : Nat) (s : State) : Out :=
  let c := s.core core
  match c.copyAt n with
  | some (p, q) =>
    if q.inflight = 0 ∨ q.exitIter.isSome ∨ q.damp.any (fun d => d.1 == q.oldest) then .next s
    else
      let g := c.group q.slot
      let stop := fun (why : DampWhy) (t : State) =>
        Host.Outcome.next ((s.setCore core (c.setCopy n (q.dampTo q.oldest why))).keepFills t core p.blk)
      match State.sweep core q.slot p.blk q.head ⟨q.oldest, q.early, q.body.length⟩ q.body 0 0 (s.trial core q) (q.entryMask &&& ~~~q.exited) [] {} with
      | .damp out t => stop (if out then .branchOut q.oldest else .faulted q.oldest) t
      | .wait => .next { s with tick := s.tick + 1 }
      | .killed s1 => .next s1
      | .absent => .fault .absentMemory
      | .done s1 exits _ =>
        let g1 := s1.group core q.slot
        let s2 := s1.setGroup core q.slot { g with
          y0 := g1.y0
          y1 := g1.y1
          y0v := g1.y0v
          y1v := g1.y1v }
        let c1 := (s2.core core).count 4 (Config.capturedFirings q.head.toNat q.oldest.toNat)
        let c2 := (c1.completeStores n q.oldest).dropIters n q.oldest (· == 0)
        .next (s2.setCore core (c2.setCopy n (q.commit (g1.regs q.ins) exits)))
  | none => .next s

/-! ## Loads that perform before their iteration commits (R43) -/

/-- The state in which the words of iterations from the oldest to `m` later ones have executed, on trial, the lanes that then run, and what a
later load waits for; none where one of them damps or waits. -/
def State.ahead (core : Nat) (p : Placed) (q : Copy) : Nat → State → Mask → Option (State × Mask × Trace)
  | 0, s, act => some (s, act, {})
  | m + 1, s, act =>
    match State.ahead core p q m s act with
    | none => none
    | some (s1, a, t) =>
      match State.sweep core q.slot p.blk q.head ⟨q.oldest + BitVec.ofNat 32 m, q.early, q.body.length⟩ q.body 0 0 s1 a [] t with
      | .done s2 exits t1 => some (s2, a &&& ~~~exits, t1)
      | _ => none

/-- The index in a body of its memory word with a sequence tag, and the instruction. -/
def memWord (l : List Instr) (tag : Nat) : Option (Nat × Instr) :=
  ((l.zipIdx.filter (fun j => (memForm j.1).isSome))[tag]?).map (fun j => (j.2, j.1))

/-- Whether a load of the lanes `x` waits for what precedes it (R43): the lanes that must wait, and bytes that it shares with a store of the
group, in any lane, or with a load of its own thread that has not performed (R283). -/
def Trace.holds (t : Trace) (e : Fe) (i : Instr) (sp : Space) (x : Mask) : Bool :=
  let both := fun (a b : Nat × Nat) => meets a.1 a.2 b.1 b.2
  (x &&& (if sp == .lane then t.shutLane else t.shut)) != 0 ||
  (lanesOf x).any (fun l => match e.laneFeet i sp true (mmBytes (memBits i)) l with
    | none => true
    | some fs => fs.any (fun f => t.stores.any (both f) || t.loads.any (fun q => q.1 == l && both f (q.2.1, q.2.2))))

/-- AN EARLY LOAD (R43): access (i, tag) of some lanes, `m` iterations after the oldest, reads memory now, at the addresses that its token
carries. It is held while its address is not known, while a word before it holds it, and while its translation is not present. None where it
is held; else its values, and the state in which the group has made the read and is otherwise as it was. -/
def State.earlyLoad (s : State) (core : Nat) (p : Placed) (q : Copy) (m tag : Nat) (lanes : Mask) (addr : Nat → Nat) :
    Option (List EarlyLoad × State) :=
  match decodeAll q.body with
  | none => none
  | some l =>
    match memWord l tag, State.ahead core p q m (s.trial core q) (q.entryMask &&& ~~~q.exited) with
    | some (idx, j), some (s1, a, t) =>
      match loadDest j, memSite j, State.sweep core q.slot p.blk q.head ⟨q.oldest + BitVec.ofNat 32 m, q.early, q.body.length⟩ (q.body.take idx) 0 0 s1 a [] t with
      | some d, some (sp, codes), .done s2 act t2 =>
        let now := s.setGroup core q.slot (s2.group core q.slot)
        let e := now.feOf core q.slot j act
        let x := e.act &&& lanes
        if t2.lateIn (guardCodes j ++ codes) &&& act &&& lanes ≠ 0 ∨ t2.holds e j sp x ∨ (lanesOf x).any (fun l => e.siteAddr j l != addr l) then none
        else if x = 0 then some ([], s)
        else match now.bodyWord core q.slot p.blk (q.head + BitVec.ofNat 64 (8 * idx)) j x with
          | .done s3 _ _ =>
            some ((lanesOf x).map (fun l => ⟨q.oldest + BitVec.ofNat 32 m, tag, l, (s3.group core q.slot).rd d l⟩),
              s3.setGroup core q.slot (s.group core q.slot))
          | _ => none
      | _, _, _ => none
    | _, _ => none

/-- The memory node of a copy at its turn: a load node whose token names an iteration in flight performs early, in the lanes that the token's
LMASK names, and sends its result with the address token's header (R43, R366); a store, atomic or reduction performs with its iteration's
commit. -/
def NodeTurn.captured (t : NodeTurn) (q : Copy) : Out :=
  match t.d.in0 with
  | [] => .next t.s
  | a :: r =>
    let m := (hdrIter a.hdr + 64 - q.oldest.toNat % 64) % 64
    let o := hdrOct a.hdr
    if nodeOpClass t.d.opc ≠ 1 ∨ q.inflight ≤ m ∨ !t.room then .next t.s
    else match t.s.earlyLoad t.core t.p q m t.d.seq ((hdrMask a.hdr).setWidth 32 <<< (8 * o)) (fun l => t.d.addr (l % 8)) with
      | none => .next t.s
      | some v =>
        let at_ := fun l => ((v.1.find? (fun w => w.lane == 8 * o + l)).map (·.val)).getD 0
        let c := ((v.2.core t.core).setNode t.pi t.ni { t.d with in0 := r }).send (t.p.dest t.pi t.d.route) (tokenOf a.hdr at_)
        .next (v.2.setCore t.core (c.setCopy t.pi { q with early := q.early ++ v.1 }))

/-- MEMORY_NODE_ACCESS: the turn of a memory node of a region or of a captured loop. A stream engine reads memory in its own time: it notes
the moment (R291). -/
def execMemoryNodeAccess (core n : Nat) (s : State) : Out :=
  match s.nodeTurn core n with
  | none => .next s
  | some t => match t.p.copy with
    | some q => if t.d.kind = 1 then t.captured q else .next s
    | none => if t.d.kind = 3 then .next t.note else t.regionAccess

/-- The copy after the squash of every iteration not committed (R367): its permits return, and it leaves for a PC. -/
def Copy.squash (q : Copy) (pc : Dword) : Copy :=
  { q with
    inflight := 0
    permits := q.k
    early := []
    leaving := some pc }

/-- The squash of every iteration not committed, as a core does it: their tokens are discarded at every channel, node and hop (R367,
R371). -/
def Core.squash (c : Core) (n : Nat) (q : Copy) (pc : Dword) : Core := (c.dropIters n q.oldest (· < 64)).setCopy n (q.squash pc)

/-- LOOP_EXIT: the last octet has left in an iteration that has committed; later iterations are squashed (R44). -/
def execLoopExit (core n : Nat) (s : State) : Out :=
  let c := s.core core
  match c.copyAt n with
  | some (_, q) => if q.exitIter.isSome then .next (s.setCore core (c.squash n q q.exitPc)) else .next s
  | none => .next s

/-- LOOP_DAMP: every iteration before the boundary has committed; the boundary and later ones are squashed, and the damp record is
written (R46). -/
def execLoopDamp (core n : Nat) (why : DampWhy) (s : State) : Out :=
  let c := s.core core
  match c.copyAt n with
  | some (_, q) =>
    if q.exitIter.isNone ∧ q.damp = some (q.oldest, why) then
      let c1 := (c.count 6 1).setGroup q.slot { (c.group q.slot) with dampRec := some (q.head, q.oldest, why) }
      .next (s.setCore core (c1.squash n q q.head))
    else .next s
  | none => .next s

/-- The group as it leaves a copy for a PC: the committed live-outs are written, y is invalid, and ITER reads the iteration after the last
committed (R44, R46). After an exit it has the mask of the hand-over. After a damp the lanes that have exited stay out, since R44 freezes
them; R46 gives the mask no value and R74 does not name damp among what changes it. They wait in a pending entry at the exit PC, as the
front end's branch would have left them. MODEL'S CHOICE (assumption 86). -/
def Group.leaves (g : Group) (q : Copy) (pc : Dword) : Group :=
  let g1 := (g.setRegs q.outs q.committed).yInvalid
  let g2 := { g1 with
    st := .running
    pc := pc
    m := q.entryMask
    loopCount := q.oldest }
  if q.damp.isNone then g2
  else
    let g3 := { g2 with armPoint := q.oldest }
    let out := q.entryMask &&& q.exited
    if out = 0 ∨ 16 ≤ g.stack.length then g3
    else { g3 with
      m := q.entryMask &&& ~~~q.exited
      stack := { rcv := false, pc := q.exitPc, mask := out } :: g3.stack }

/-- LIVEOUT_WRITEBACK: the live-outs are written and the group is eligible at the exit PC, or at H after a damp; the copy is freed (R40, R44,
R46). A damped group whose stack has no entry left for the lanes that exited takes the reconvergence-stack fault at H (assumption 86). -/
def execLiveoutWriteback (core n : Nat) (s : State) : Out :=
  let c := s.core core
  let p := c.placedAt n
  match p.frozen, p.copy with
  | false, some q =>
    match q.leaving with
    | some pc =>
      let g := c.group q.slot
      let s1 := s.setCore core ((c.setGroup q.slot (g.leaves q pc)).dropPlaced n)
      let full := q.damp.isSome && (q.entryMask &&& q.exited) != 0 && decide (16 ≤ g.stack.length)
      .next (if full then s1.raise core q.slot { cause := 7 } else s1)
    | none => .next s
  | _, _ => .next s

end Sys2Proof.Machine
end

