-- ==== Sys2Proof/Machine/Hub.lean ====
section
/-!
DEFINITION. How the command processor and the other agents of the hub reach global memory (R327, R331, R494), which cores a partition may
use (R12, R454, R460), kernel descriptors and code objects as the command processor reads them (R70, R385 to R387), and the end of a
command (R329, R336).
-/

namespace Sys2Proof.Machine

/-! ## Cores of a partition -/

/-- Whether a core is usable: its die has trained, and the manifest does not list it as harvested (R453, R460). -/
def State.usable (s : State) (core : Nat) : Bool := s.dieok.getLsbD (dieOf core) && !s.harvest.contains core

/-- The cores of a die that a partition may use. -/
def State.dieCores (s : State) (die : Nat) : List Nat := ((List.range 256).map (fun i => 256 * die + i)).filter s.usable

/-- The usable cores of a partition. -/
def State.partCores (s : State) (part : Nat) : List Nat := (s.partDies part).flatMap s.dieCores

/-! ## Global addresses -/

/-- How a range of global addresses is reached: the bytes, a failing address, a claimed line (R299), or an address that no stack
holds. -/
inductive Reach where
  | ok (l : List (EAddr × Nat))
  | bad (addr : Nat)
  | wait
  | absent
deriving DecidableEq, Repr

/-- A range, page by page, by a translation; the lowest failing address decides. -/
def State.reachBy (s : State) (x : Nat → Xlat) (va n : Nat) : Reach :=
  let l := (splitPages va n).map (fun p => (p, x p.1))
  match l.find? (fun r => match r.2 with | .bad _ _ => true | _ => false) with
  | some r => .bad r.1.1
  | none =>
    if l.any (fun r => r.2 == .absent) then .absent
    else if l.any (fun r => r.2 == .held) then .wait
    else
      let m := l.map (fun r => (match r.2 with
        | .at k => EAddr.mem k
        | _ => EAddr.zero, r.1.2))
      if (linesOf m).any (fun n => !(s.dirEntry n).eq.isEmpty) then .wait else .ok m

/-- A range that the hub reaches in an address space. -/
def State.hubReach (s : State) (part asid : Nat) (need : Need) (va n : Nat) : Reach :=
  s.reachBy (fun a => s.translateHub part asid a need) va n

/-- The bytes of ranges of memory. -/
def State.hubBytes (s : State) (l : List (EAddr × Nat)) : List Byte := l.flatMap (s.rangeBytes 0 0)

/-- Write bytes over ranges of memory, at their homes (R293, R300). -/
def State.hubPut (s : State) : List (EAddr × Nat) → List Byte → State
  | [], _ => s
  | (a, n) :: r, l =>
    let s1 := match a with
      | .mem k => s.outsideWrite k (l.take n)
      | _ => s
    State.hubPut s1 r (l.drop n)

/-- Cut two lists of ranges of one length at each other's boundaries: source, destination and bytes. -/
def cutRanges : Nat → List (EAddr × Nat) → List (EAddr × Nat) → List (EAddr × EAddr × Nat)
  | n + 1, (a, i) :: r, (b, j) :: t =>
    let z := min i j
    (a, b, z) :: cutRanges n (dropRanges z ((a, i) :: r)) (dropRanges z ((b, j) :: t))
  | _, _, _ => []

/-- Words of memory that a copy of `z` bytes carries poison into (R304). -/
def State.poisonInto (s : State) : EAddr → EAddr → Nat → List Nat
  | .mem k, .mem d, z =>
    (s.poisoned.filter (fun w => decide (w < k + z) && decide (k < w + 4))).flatMap (fun w =>
      ((List.range 4).filter (fun i => decide (k ≤ w + i) && decide (w + i < k + z))).map (fun i => (d + (w + i - k)) / 4 * 4))
  | _, _, _ => []

/-- A piece of a hub copy: every byte is read, then written, and poison goes with it (R304, R331). -/
def State.hubMove (s : State) (src dst : List (EAddr × Nat)) : State :=
  let bad := ((cutRanges (src.length + dst.length) src dst).flatMap (fun q => s.poisonInto q.1 q.2.1 q.2.2)).eraseDups
  let s1 := s.hubPut dst (s.hubBytes src)
  { s1 with poisoned := s1.poisoned ++ bad.filter (fun w => !s1.poisoned.contains w) }

/-! ## Counters of commands (R329, R330, R494) -/

/-- What an access to a counter comes to. -/
inductive CounterEnd where
  | ok (s : State)
  | bad (addr : Nat)
  | wait
  | absent

/-- Change the 64-bit counter at an address, an aligned dword. -/
def State.counterPut (s : State) (part asid : Nat) (need : Need) (va : Nat) (f : Nat → Nat) : CounterEnd :=
  match s.hubReach part asid need va 8 with
  | .ok l => .ok (s.hubPut l (bytesOf 8 (f (natOf (s.hubBytes l)))))
  | .bad a => .bad a
  | .wait => .wait
  | .absent => .absent

/-! ## Kernel descriptors (R69, R70) -/

/-- A kernel descriptor from its 32 bytes. -/
def kdescOf (va : Dword) (l : List Byte) : KDesc :=
  let f := fun o n => natOf ((l.drop o).take n)
  { va
    entry := BitVec.ofNat 64 (f 0 8)
    regs := f 8 2
    block := f 0xA 2
    gang := f 0xC 2
    headroom := f 0xE 1
    shares := f 0xF 1
    scratch := f 0x10 4
    l1slice := 64 * f 0x14 1
    reducedOk := f 0x15 1 % 2 == 1
    lane := f 0x16 2
    argsize := f 0x18 4
    layhash := crc32 l }

/-- The limits of R69 on the bytes of a descriptor, and its reserved fields. -/
def kdescOk (l : List Byte) : Bool :=
  let f := fun o n => natOf ((l.drop o).take n)
  let k := kdescOf 0 l
  f 0 8 % 8 == 0 && 8 ≤ k.regs && k.regs ≤ 256 && k.regs % 8 == 0 && 1 ≤ k.block && k.block ≤ 1024 && k.gang ≤ 256 &&
  k.headroom ≤ 8 && 1 ≤ k.shares && k.shares ≤ 16 && k.scratch ≤ 393216 && f 0x14 1 ≤ 3 && f 0x15 1 ≤ 1 && k.lane ≤ 2048 &&
  k.lane % 4 == 0 && k.argsize % 8 == 0 && f 0x1C 4 == 0

/-- Groups of a block of `n` threads. -/
def groupsOf (n : Nat) : Nat := (n + 31) / 32

/-- Scratchpad claim of a kernel's block (R23). -/
def KDesc.scratchClaim (k : KDesc) : Nat := (k.scratch + 255) / 256 * 256

/-- Whether a single block of `n` threads fits R23 on an empty core, power shares apart (R24). -/
def KDesc.fitsEmpty (k : KDesc) (n : Nat) : Bool :=
  let g := groupsOf n
  (g + k.headroom) * 32 * k.regs * 4 ≤ 131072 && g + k.headroom ≤ 40 && g ≤ 32 &&
  k.scratchClaim ≤ Config.localArrayBytes - 1024 * k.l1slice && g * k.lane ≤ 2048

/-- The code object that holds an address, in state LOADED or QUARANTINED (R333, R387). -/
def Partition.objectHolding (p : Partition) (asid va : Nat) : Option CodeObj :=
  (p.objectWhere asid (fun o => decide (o.base.toNat ≤ va) && decide (va < o.base.toNat + o.size))).map (·.2)

/-- The REASON for which the command processor refuses a code object by the first bytes of its header (R1, R385). -/
def headerRefusal (l : List Byte) : Option Nat :=
  let f := fun (o n : Nat) => natOf ((l.drop o).take n)
  if f 0 4 ≠ 0x4E414B46 then some 4
  else if f 4 1 ≠ 2 ∨ f 5 1 ≠ 0 then some 1
  else if 1 < f 6 2 ∨ f 0x44 12 ≠ 0 then some 3
  else none

/-! ## Placement caches -/

/-- Remove an object's entries from every placement cache of a partition (R406). -/
def State.forgetObject (s : State) (part objid : Nat) : State :=
  s.mapCores (fun k c =>
    if (s.part part).dies.contains (dieOf k) then { c with cache := c.cache.filter (fun e => e.objid != objid) } else c)

end Sys2Proof.Machine
end

