-- ==== Sys2Proof/Machine/Commands.lean ====
section
/-!
DEFINITION. The command processor: fetching and checking records (R327 to R333, R335), the record types (R329 to R331, R334, R409), and
how commands retire or fault (R26, R336, R436, R494).
-/

namespace Sys2Proof.Machine

/-! ## Fields of a record (R329) -/

/-- A field of a record. -/
def recField (l : List Byte) (o n : Nat) : Nat := natOf ((l.drop o).take n)

/-- A field of a command's record. -/
def Command.field (c : Command) (o n : Nat) : Nat := recField c.raw o n

/-- SIGADDR and SIGVAL of a LAUNCH or COPY. -/
def Command.sig (c : Command) : Nat × Nat := (c.field 0x28 8, c.field 0x30 8)

/-- The conditions of a WAIT or BARRIER_AND: address, value, and whether the counter must equal it. -/
def Command.conds (c : Command) : List (Nat × Nat × Bool) :=
  if c.typ = 4 then [(c.field 8 8, c.field 0x10 8, c.field 4 1 % 2 == 1)]
  else (List.range (c.field 4 1 % 4)).map (fun i => (c.field (8 + 16 * i) 8, c.field (16 + 16 * i) 8, false))

/-- Blocks of a launch. -/
def recBlocks (l : List Byte) : Nat := recField l 0x20 4 * recField l 0x24 2 * recField l 0x26 2

/-! ## Layout 1 (R332) -/

/-- Layout 1 refuses the reserved fields that it has beyond those of layout 2. -/
def layout1Reserved (l : List Byte) : Bool :=
  let f := recField l
  match f 1 1 with
  | 1 => f 4 4 != 0 || f 0x26 2 != 0 || f 0x30 8 != 0
  | 2 => f 4 4 != 0 || f 0x30 8 != 0
  | 3 => f 4 4 != 0
  | 4 => f 0x18 4 != 0
  | _ => false

/-- The narrower limits of layout 1: a WAIT tests ≥ only, and a BARRIER_AND has at most two pairs. R332 gives a broken one no reason; the
model takes both as limits, LIMIT. MODEL'S CHOICE (assumption 99). -/
def layout1Limits (l : List Byte) : Bool :=
  match recField l 1 1 with
  | 4 => recField l 4 1 % 2 == 0
  | 5 => recField l 4 1 % 4 != 3
  | _ => true

/-- A layout 1 record as layout 2: the queue's address space is that of every layout 1 record (R325, R332), so that what the ARG of a WAIT or
BARRIER_AND holds in [31:16] names none. -/
def layout2Of (asid : Nat) (l : List Byte) : List Byte :=
  let head := l.take 4
  match recField l 1 1 with
  | 1 => head ++ bytesOf 4 asid ++ (l.drop 8).take 0x1A ++ [0, 0] ++ (l.drop 0x22).take 4 ++ (l.drop 0x28).take 8 ++ bytesOf 8 1 ++
      (l.drop 0x38).take 8
  | 2 => head ++ bytesOf 4 asid ++ (l.drop 8).take 0x28 ++ bytesOf 8 1 ++ (l.drop 0x38).take 8
  | 3 => head ++ bytesOf 4 (asid * 65536) ++ l.drop 8
  | 4 | 5 => head ++ bytesOf 4 (recField l 4 2 + asid * 65536) ++ l.drop 8
  | _ => l

/-! ## Checks (R333) -/

/-- Bits of ARG that a type defines, and the payload bytes that it defines, as first byte and byte after the last (R329). -/
def recLayout (l : List Byte) : Nat × List (Nat × Nat) :=
  match recField l 1 1 with
  | 1 => (0xFFFF, [(8, 0x1E), (0x20, 0x38)])
  | 2 => (0xFFFF, [(8, 0x20), (0x28, 0x38)])
  | 3 => (0xFFFF0001, [(8, 0x18)])
  | 4 => (0xFFFF0001, [(8, 0x1C)])
  | 5 => (0xFFFF0003, [(8, 8 + 16 * (recField l 4 1 % 4))])
  | 6 => (0xFFFF000F, [(8, 0x14)])
  | 7 => (0xFFF, [])
  | _ => (0, [(8, 0x10)])

/-- Whether every reserved field of a layout 2 record is zero. -/
def reservedOk (l : List Byte) : Bool :=
  let (arg, used) := recLayout l
  Nat.land (recField l 4 4) arg == recField l 4 4 && recField l 2 2 ≤ (if recField l 1 1 = 7 then 1 else 0) &&
  (List.range 64).all (fun o => o < 8 || l.getD o 0 == 0 || used.any (fun u => decide (u.1 ≤ o) && decide (o < u.2)))

/-- The address space of a record; none where its type has none. -/
def recAsid (l : List Byte) : Option Nat :=
  match recField l 1 1 with
  | 1 | 2 => some (recField l 4 2)
  | 3 | 4 | 5 | 6 => some (recField l 6 2)
  | _ => none

/-- What the checks of a record come to: accepted, with the kernel descriptor of a LAUNCH; refused, with REASON and DATA; or the check
waits at a claimed line. -/
inductive Checked where
  | accept (k : KDesc)
  | refuse (reason data : Nat)
  | wait
  | absent

/-- Whether a partition may use cores of one die enough for a gang (R15). -/
def State.gangRoom (s : State) (part g : Nat) : Bool := (s.partDies part).any (fun d => g ≤ (s.dieCores d).length)

/-- The checks of a LAUNCH beyond the fields that every record has (R1, R12, R15, R24, R70, R333, R386, R387). -/
def State.checkLaunch (s : State) (part asid : Nat) (l : List Byte) : Checked :=
  let f := recField l
  let va := f 8 8
  match (s.part part).objectHolding asid va with
  | none => .refuse 4 va
  | some o =>
    if o.st = 3 then .refuse 4 va
    else match s.hubReach part asid .read o.base.toNat 80, s.hubReach part asid .read va 32 with
      | .bad _, _ | _, .bad _ => .refuse 13 va
      | .wait, _ | _, .wait => .wait
      | .absent, _ | _, .absent => .absent
      | .ok h, .ok r => match headerRefusal (s.hubBytes h) with
       | some reason => .refuse reason va
       | none =>
        let d := s.hubBytes r
        let k := kdescOf (BitVec.ofNat 64 va) d
        let k := { k with entry := o.base + BitVec.ofNat 64 o.codeofs + k.entry }
        let n := f 0x18 2 * f 0x1A 2 * f 0x1C 2
        if !kdescOk d || ((s.part part).signedOnly && !(o.signed && o.sigOk)) then .refuse 4 (if kdescOk d then va else 0)
        else if n = 0 ∨ recBlocks l = 0 ∨ min 1024 k.block < n ∨
            (k.gang ≠ 0 ∧ (recBlocks l % k.gang ≠ 0 ∨ !s.gangRoom part k.gang)) then .refuse 4 0
        else if (s.partCores part).all (fun c => (s.core c).budget < k.shares) then .refuse 5 0
        else if !k.fitsEmpty n then .refuse 6 0
        else .accept k

/-- The checks of a layout 2 record, in order. -/
def State.checkRecord (s : State) (part : Nat) (l : List Byte) : Checked :=
  let f := recField l
  let aligned := fun (b : Bool) (go : Checked) => if b then go else .refuse 4 0
  if f 1 1 = 0 ∨ 8 < f 1 1 then .refuse 2 0
  else if !reservedOk l then .refuse 3 0
  else match recAsid l with
    | some a =>
      if !(SMap.get {} (s.part part).aspaces a).used then .refuse 12 0
      else match f 1 1 with
        | 1 => aligned (f 0x28 8 % 8 == 0) (s.checkLaunch part a l)
        | 2 => aligned (1 ≤ f 0x18 8 && f 0x18 8 ≤ 2 ^ 40 && f 0x28 8 % 8 == 0) (.accept {})
        | 3 => aligned (f 8 8 % 8 == 0) (.accept {})
        | 4 => aligned (f 8 8 % 8 == 0) (.accept {})
        | 5 => aligned (f 4 1 % 4 != 0 && (List.range (f 4 1 % 4)).all (fun i => f (8 + 16 * i) 8 % 8 == 0)) (.accept {})
        | _ => aligned (1 ≤ f 0x10 4 && f 0x10 4 ≤ 32) (.accept {})
    | none =>
      let p := s.part part
      if f 1 1 = 7 then aligned (p.qfirst ≤ f 4 2 % 4096 && f 4 2 % 4096 < p.qfirst + p.qcount) (.accept {}) else .accept {}

/-! ## Fetch (R327, R328, R335) -/

/-- Whether a command comes from a record of a queue. -/
def Command.of (c : Command) (q : Nat) : Bool := c.q == q

/-- Whether an earlier record holds its queue (R330). -/
def State.queueHeld (s : State) (q : Nat) : Bool := s.commands.any (fun p => p.2.of q && decide (3 ≤ p.2.typ) && decide (p.2.typ ≤ 5))

/-- The ready queues. -/
def State.readyQueues (s : State) : List (Nat × Queue) :=
  s.queues.filter (fun p => p.2.st == .active && decide (p.2.ridx.toNat < p.2.widx.toNat) && !s.queueHeld p.1)

/-- The queue that the next fetch turn serves: the highest PRIO, then round robin by number. -/
def State.fetchQueue (s : State) : Option (Nat × Queue) :=
  let r := s.readyQueues
  let top := r.foldl (fun a p => max a p.2.prio) 0
  let l := r.filter (fun p => p.2.prio == top)
  let last := SMap.get 0 s.rr top
  (l.find? (fun p => decide (last ≤ p.1))).or l.head?

/-- A queue enters ERROR, with a FAULTED record for the record at RIDX that no command holds (R326, R335). -/
def State.queueError (s : State) (q reason data : Nat) : State :=
  let x := s.queue q
  let s1 := (s.carry (s.commands.length + 1)).journalRaw q 0 4 0 reason 0 x.part x.ridx data
  s1.setQueue q { x with st := .error }

/-- A record has been copied: it is refused with one journal record, or becomes an accepted command (R333, R336). Where a check waits
at a claimed line, the turn is `late`. -/
def State.takeRecord (s late : State) (q : Nat) (ridx : Dword) (l : List Byte) : Out :=
  let x := s.queue q
  let ver := recField l 0 1
  let typ := recField l 1 1
  let l2 := if ver = 1 then layout2Of x.asid l else l
  let c : Command := { q, part := x.part, ver, typ, ridx, raw := l2, asid := (recAsid l2).getD 0 }
  let check :=
    if ver = 0 ∨ 2 < ver then Checked.refuse 1 0
    else if ver = 1 ∧ 5 < typ then .refuse 2 0
    else if ver = 1 ∧ typ ≠ 0 ∧ layout1Reserved l then .refuse 3 0
    else match s.checkRecord x.part l2 with
      | .accept k => if ver = 1 ∧ !layout1Limits l then .refuse 4 0 else .accept k
      | e => e
  match check with
  | .wait => .next late
  | .absent => .fault .absentMemory
  | .refuse reason data =>
    .next ((s.carry (s.commands.length + 1)).journalRaw q ver 4 typ reason 0 x.part ridx data)
  | .accept k =>
    let id := s.nextCmd
    let s1 : State := { s with
      nextCmd := id + 1
      commands := SMap.set {} s.commands id { c with
        kd := k
        total := if typ = 1 then recBlocks l2 else 0 } }
    .next (s1.journal id .accepted 0 (if typ = 8 then recField l2 8 8 else 0))

/-- RIDX advances, and its mirror is written (R327). -/
def State.advance (s : State) (q : Nat) (mirror : List (EAddr × Nat)) : State :=
  let x := s.queue q
  let top := x.prio
  let s1 : State := { (s.setQueue q { x with ridx := x.ridx + 1 }) with rr := SMap.set 0 s.rr top (q + 1) }
  s1.hubPut mirror (bytesOf 8 (x.ridx + 1).toNat)

/-- COMMAND_FETCH: one fetch turn. -/
def execCommandFetch (s : State) : Out :=
  if s.devstate ≠ 1 ∧ s.devstate ≠ 2 ∨ 16384 ≤ s.commands.length then .next s
  else match s.fetchQueue with
    | none => .next s
    | some (q, x) =>
      let va := x.base.toNat + 64 * (x.ridx.toNat % 2 ^ x.logsize)
      let m := if x.rmirror = 0 then Reach.ok [] else s.hubReach x.part x.asid .write x.rmirror.toNat 8
      match s.hubReach x.part x.asid .read va 64, m with
      | .bad a, _ => .next (s.queueError q 10 a)
      | _, .bad a => .next (s.queueError q 10 a)
      | .absent, _ | _, .absent => .fault .absentMemory
      | .wait, _ | _, .wait => .next s
      | .ok l, .ok w =>
        (s.advance q w).takeRecord s q x.ridx (s.hubBytes l)

/-! ## How commands end (R329, R336, R494) -/

/-- A command faults. -/
def State.cmdFault (s : State) (id reason data : Nat) : State := (s.journal id .faulted reason data).finish id

/-- A command retires. -/
def State.cmdRetire (s : State) (id : Nat) : State :=
  let c := s.command id
  (s.journal id .retired 0 (if c.typ = 8 then c.field 8 8 else 0)).finish id

/-- A LAUNCH or COPY retires with its completion signal; one that cannot be performed faults it with SIGNAL_FAULT. -/
def State.retireSignal (s : State) (id : Nat) : Out :=
  let c := s.command id
  let (a, v) := c.sig
  if a = 0 then .next (s.cmdRetire id)
  else match s.counterPut c.part c.asid .atomic a (fun x => (x + v) % 2 ^ 64) with
    | .ok s1 => .next (s1.cmdRetire id)
    | .bad x => .next (s.cmdFault id 15 x)
    | .wait => .next s
    | .absent => .fault .absentMemory

/-- A SIGNAL, WAIT or BARRIER_AND whose counter fails puts its queue in ERROR (R494); so does a WAIT that times out (R330). -/
def State.orderFault (s : State) (id reason data : Nat) : State :=
  let q := (s.command id).q
  let s1 := s.cmdFault id reason data
  let x := s1.queue q
  if x.st = .active then s1.setQueue q { x with st := .error } else s1

/-- Whether every earlier record of a command's queue has retired or faulted. -/
def State.oldest (s : State) (id : Nat) : Bool :=
  let c := s.command id
  s.commands.all (fun p => p.1 == id || !p.2.of c.q || decide (c.ridx.toNat < p.2.ridx.toNat))

/-- A command of a type that has been accepted and neither retired nor faulted. -/
def State.isCommand (s : State) (id typ : Nat) : Bool := s.hasCommand id && (s.command id).typ == typ

/-! ## SIGNAL, WAIT, BARRIER_AND, JOURNAL_MARK (R330) -/

/-- A SIGNAL acts once every earlier record has finished. -/
def State.signal (s : State) (id : Nat) (add : Bool) : Out :=
  let c := s.command id
  if !s.isCommand id 3 || (c.field 4 1 % 2 == 1) != add || !s.oldest id then .next s
  else
    let v := c.field 0x10 8
    match s.counterPut c.part c.asid (if add then .atomic else .write) (c.field 8 8) (fun x => if add then (x + v) % 2 ^ 64 else v) with
    | .ok s1 => .next (s1.cmdRetire id)
    | .bad a => .next (s.orderFault id 15 a)
    | .wait => .next s
    | .absent => .fault .absentMemory

/-- SIGNAL SET. -/
def execSignalSet (id : Nat) (s : State) : Out := s.signal id false
/-- SIGNAL ADD. -/
def execSignalAdd (id : Nat) (s : State) : Out := s.signal id true

/-- What reading the counters of some conditions comes to. -/
inductive CondEnd where
  | holds
  | open_
  | bad (addr : Nat)
  | wait
  | absent
deriving DecidableEq, Repr

/-- Read the counters in order. -/
def State.readConds (s : State) (part asid : Nat) : List (Nat × Nat × Bool) → CondEnd
  | [] => .holds
  | (a, v, eq) :: r =>
    match s.hubReach part asid .read a 8 with
    | .bad x => .bad x
    | .wait => .wait
    | .absent => .absent
    | .ok l =>
      let x := natOf (s.hubBytes l)
      match State.readConds s part asid r with
      | .holds => if (if eq then x == v else decide (v ≤ x)) then .holds else .open_
      | e => e

/-- A WAIT or BARRIER_AND reads its counters: it retires when its conditions hold. -/
def State.reread (s : State) (id : Nat) : Out :=
  let c := s.command id
  match s.readConds c.part c.asid c.conds with
  | .holds => .next (s.cmdRetire id)
  | .open_ | .wait => .next s
  | .bad a => .next (s.orderFault id 15 a)
  | .absent => .fault .absentMemory

/-- WAIT. -/
def execWait (id : Nat) (s : State) : Out := if s.isCommand id 4 then s.reread id else .next s

/-- BARRIER_AND: evaluated once every earlier record has finished. -/
def execBarrierAnd (id : Nat) (s : State) : Out := if s.isCommand id 5 && s.oldest id then s.reread id else .next s

/-- WAIT_REREAD: a waited counter is read again. -/
def execWaitReread (id : Nat) (s : State) : Out :=
  if s.isCommand id 4 || (s.isCommand id 5 && s.oldest id) then s.reread id else .next s

/-- WAIT_TIMEOUT: a WAIT's TIMEOUT expires. -/
def execWaitTimeout (id : Nat) (s : State) : Out :=
  if s.isCommand id 4 && (s.command id).field 0x18 4 != 0 then .next (s.orderFault id 11 0) else .next s

/-- JOURNAL_MARK. -/
def execJournalMark (id : Nat) (s : State) : Out := if s.isCommand id 8 then .next (s.cmdRetire id) else .next s

/-! ## LAUNCH and GRID_RETIRE (R19 to R21, R26, R436) -/

/-- Whether a launch is held in reduced service (R20, R452). -/
def State.launchHeld (s : State) (id : Nat) : Bool := s.devstate == 1 && !(s.command id).kd.reducedOk

/-- The units of a launch: chunks of 8 blocks, or gangs (R21). -/
def Command.unitsOf (c : Command) (id : Nat) : List Chunk :=
  let n := if c.kd.gang = 0 then 8 else c.kd.gang
  (List.range ((c.total + n - 1) / n)).map (fun i => { cmd := id, first := n * i, count := min n (c.total - n * i), next := n * i })

/-- Deal units to the distributors of some dies in turn. -/
def dealUnits (dies : List Nat) (l : List Chunk) (m : SMap (List Chunk)) : SMap (List Chunk) :=
  l.zipIdx.foldl (fun m q =>
    let d := dies.getD (q.2 % dies.length) 0
    SMap.set [] m d (SMap.get [] m d ++ [q.1])) m

/-- A launch is journaled DISPATCHED and handed to the distributors of its partition. -/
def State.dispatch (s : State) (id : Nat) : State :=
  let c := s.command id
  let s1 : State := { s with units := dealUnits (s.partDies c.part) (c.unitsOf id) s.units }
  let s2 := s1.journal id .dispatched 0 0
  s2.setCommand id { (s2.command id) with st := .dispatched }

/-- LAUNCH. -/
def execLaunch (id : Nat) (s : State) : Out :=
  if s.isCommand id 1 && (s.command id).st == .accepted && !s.launchHeld id then .next (s.dispatch id) else .next s

/-- GRID_RETIRE: every block of a grid has retired, or been killed. -/
def execGridRetire (id : Nat) (s : State) : Out :=
  let c := s.command id
  if !s.isCommand id 1 || c.st != .dispatched || c.finished < c.total then .next s
  else match c.failed with
    | some (reason, data) => .next (s.cmdFault id reason data.toNat)
    | none => s.retireSignal id

/-! ## COPY (R331) -/

/-- COPY: the copy agent starts the first piece. -/
def execCopy (id : Nat) (s : State) : Out :=
  if s.isCommand id 2 && (s.command id).st == .accepted then
    let s1 := s.journal id .dispatched 0 0
    .next (s1.setCommand id { (s1.command id) with st := .dispatched })
  else .next s

/-- COPY_RETIRE: the agent performs its next piece, of up to 256 bytes; the last piece retires the record. -/
def execCopyRetire (id : Nat) (s : State) : Out :=
  let c := s.command id
  if !s.isCommand id 2 || c.st != .dispatched then .next s
  else
    let n := min 256 (c.field 0x18 8 - c.copied)
    let src := c.field 8 8 + c.copied
    let dst := c.field 0x10 8 + c.copied
    if c.field 0x18 8 ≤ c.copied then s.retireSignal id
    else match s.hubReach c.part c.asid .read src n, s.hubReach c.part c.asid .write dst n with
      | .bad a, _ => .next (s.cmdFault id 13 a)
      | _, .bad a => .next (s.cmdFault id 13 a)
      | .absent, _ | _, .absent => .fault .absentMemory
      | .wait, _ | _, .wait => .next s
      | .ok l, .ok w =>
        let s1 := (s.hubMove l w).setCommand id { c with copied := c.copied + n }
        if c.copied + n = c.field 0x18 8 then s1.retireSignal id else .next s1

/-! ## PLACE_PRELOAD (R409) -/

/-- PLACE_PRELOAD: the area is sent to the cores of the named dies. -/
def execPlacePreload (id : Nat) (s : State) : Out :=
  let c := s.command id
  if s.isCommand id 6 && c.st == .accepted then
    .next (s.setCommand id { c with
      st := .dispatched
      cores := ((s.partDies c.part).filter (fun d => (c.field 4 1).testBit d)).flatMap s.dieCores })
  else .next s

/-- What a core reads of a placement area. -/
inductive AreaRead where
  | image (hash : Nat) (i : List Byte)
  | miss
  | bad (addr : Nat)
  | wait
  | absent

/-- A core reads slot `n` of an area of an address space (R407, R408). -/
def State.areaRead (s : State) (part core asid area n : Nat) : AreaRead :=
  let get := fun va k => s.reachBy (fun a => s.translate part core asid a .read) va k
  match get (area + 16 * n) 16 with
  | .bad a => .bad a
  | .wait => .wait
  | .absent => .absent
  | .ok l =>
    let d := s.hubBytes l
    let size := natOf ((d.drop 4).take 4)
    if natOf (d.take 1) ≠ 1 ∨ natOf (d.drop 12) % 2 ≠ 0 ∨ 16384 < size then .miss
    else match get (area + 512 + 16384 * n) size with
      | .bad a => .bad a
      | .wait => .wait
      | .absent => .absent
      | .ok r => .image (natOf ((d.drop 8).take 4)) (s.hubBytes r)

/-- Enter an image read from an area: one that is not accepted, a key already present, and a cache whose entries all serve copies are
skipped. -/
def Core.preload (c : Core) (hash : Nat) (i : List Byte) : Core :=
  let k := imKey i
  if c.areaOk hash i && !c.cache.any (·.has k) then c.enter k (some i) else c

/-- A core enters the images of the first `n` entries, ascending from entry `i`. -/
def State.preloadCore (s : State) (c : Command) (core : Nat) : (n : Nat) → (i : Nat) → Core → AreaRead × Core
  | 0, _, k => (.miss, k)
  | n + 1, i, k =>
    match s.areaRead c.part core c.asid (c.field 8 8) i with
    | .image h l => State.preloadCore s c core n (i + 1) (k.preload h l)
    | .miss => State.preloadCore s c core n (i + 1) k
    | e => (e, k)

/-- PRELOAD_RETIRE: the next core that has still to finish enters the images it accepts; when every core has, the record retires. -/
def execPreloadRetire (id : Nat) (s : State) : Out :=
  let c := s.command id
  if !s.isCommand id 6 || c.st != .dispatched then .next s
  else match c.cores with
    | [] => .next (s.cmdRetire id)
    | k :: r =>
      match s.preloadCore c k (c.field 0x10 4) 0 (s.core k) with
      | (.bad a, x) => .next ((s.setCore k x).cmdFault id 13 a)
      | (.wait, _) => .next s
      | (.absent, _) => .fault .absentMemory
      | (_, x) =>
        let s1 := (s.setCore k x).setCommand id { c with cores := r }
        .next (if r.isEmpty then s1.cmdRetire id else s1)

/-! ## QUEUE_DESTROY (R334) -/

/-- Commands of a queue other than one, oldest first. -/
def State.othersOf (s : State) (q id : Nat) : List Nat := (s.commands.filter (fun p => p.2.of q && p.1 != id)).map (·.1)

/-- The resident blocks of a launch. -/
def State.blocksOf (s : State) (cmd : Nat) : List (Nat × Nat) :=
  s.cores.flatMap (fun p => (p.2.blocks.filter (fun b => b.2.cmd == cmd)).map (fun b => (p.1, b.1)))

/-- Saved blocks of a launch. -/
def Partition.savedOf (p : Partition) (cmd : Nat) : List Nat := (p.saved.filter (fun q => q.2.cmd == cmd)).map (·.1)

/-- No block of a launch that has not started ever starts. -/
def State.dropUnits (s : State) (cmd : Nat) : State :=
  let f := fun (m : SMap (List Chunk)) =>
    (m.map (fun (p : Nat × List Chunk) => (p.1, p.2.filter (fun u => u.cmd != cmd)))).filter (fun p => !p.2.isEmpty)
  { s with
    units := f s.units
    steals := f s.steals }

/-- A command is stopped with reason KILLED: the started blocks of a launch are killed at once. -/
def State.cmdKill (s : State) (id : Nat) : State :=
  let c := s.command id
  let s1 := s.dropUnits id
  let s2 := (s1.blocksOf id).foldl (fun s q =>
    if ((s.core q.1).block q.2).cmd = id then s.killBlock q.1 q.2 8 else s) s1
  let s3 := ((s2.part c.part).savedOf id).foldl (fun s n => s.killSaved c.part n 8) s2
  s3.cmdFault id 8 (match (s3.command id).failed with
    | some (_, b) => b.toNat
    | none => 0)

/-- A queue becomes FREE; its unfetched records are discarded. -/
def State.freeQueue (s : State) (q : Nat) : State := s.setQueue q {}

/-- Destroy a queue for a command, or for a QCTL operation that names none; whether it is busy. -/
def State.destroyQueue (s : State) (q id : Nat) (force : Bool) : Bool × State :=
  if (s.queue q).st = .free then (false, s)
  else if force then (false, ((s.othersOf q id).foldl State.cmdKill s).freeQueue q)
  else if (s.othersOf q id).isEmpty then (false, s.freeQueue q)
  else (true, s)

/-- A QUEUE_DESTROY record acts. -/
def State.destroyRecord (s : State) (id : Nat) (force : Bool) : Out :=
  let c := s.command id
  if !s.isCommand id 7 || (c.field 2 1 % 2 == 1) != force then .next s
  else match s.destroyQueue (c.field 4 2 % 4096) id force with
    | (true, s1) => .next (s1.cmdFault id 7 0)
    | (false, s1) => .next (s1.cmdRetire id)

/-- QUEUE_DESTROY without FORCE. -/
def execQueueDestroy (id : Nat) (s : State) : Out := s.destroyRecord id false
/-- QUEUE_DESTROY with FORCE. -/
def execQueueDestroyForce (id : Nat) (s : State) : Out := s.destroyRecord id true

end Sys2Proof.Machine
end

