-- ==== Sys2Proof/Machine/CrossLane.lean ====
section
/-!
DEFINITION. Quad, cross-lane and group-collective instructions, OP 0x88 to 0x9D (R167 to R181). V is the lanes of ACT that are
not helper lanes.
-/

namespace Sys2Proof.Machine

/-- A 32-bit source read from lane `l`; a vacant lane delivers 0, whatever the source names (R19, R167). -/
def Group.rdAt (g : Group) (o : Opnd) (l : Nat) : Word := if g.occupied l then g.rd o l else 0

/-- A pair read from lane `l`. -/
def Group.rd64At (g : Group) (o : Opnd) (l : Nat) : Dword := if g.occupied l then g.rd64 o l else 0

/-! ## Shuffles and quads (R169, R170) -/


/-- What BND gives lane `l` when the wanted position in the segment is `q`, below 0 or at least `w` (R169). -/
def shflBound (bnd w l : Nat) (q : Int) : Option Nat :=
  let b0 := l - l % w
  match bnd with
  | 0 => some (b0 + (q % (w : Int)).toNat)
  | 1 => some (if q < 0 then b0 else b0 + w - 1)
  | 2 => none
  | _ => some l

/-- The source lane of a shuffle; none delivers 0 (R169). Forms: 0 indexed, 1 lower, 2 higher, 3 exclusive or. -/
def shflLane (form : Nat) (c : BitVec 10) (l : Nat) (n : Word) : Option Nat :=
  let w := 32 / 2 ^ fldC c 2 3
  let b0 := l - l % w
  let bnd := fldC c 0 2
  match form with
  | 3 =>
    if n.toNat < w then some (l ^^^ n.toNat)
    else match bnd with
      | 0 => some (l ^^^ (n.toNat % w))
      | b => shflBound b w l w
  | f =>
    let q : Int := match f with
      | 0 => n.toInt
      | 1 => (l % w : Nat) - (n.toNat : Int)
      | _ => ((l % w + n.toNat : Nat) : Int)
    if 0 ≤ q ∧ q < w then some (b0 + q.toNat) else shflBound bnd w l q

/-- The shuffles. -/
def shfl (form : Nat) (x : FmtR) (e : Fe) : Out :=
  e.result x.d (fun l =>
    match shflLane form x.c l (e.g.rd x.b l) with
    | some s => e.g.rdAt x.a s
    | none => 0)

/-- SHFLI (R169). -/
def execShfli (x : FmtR) (s : State) : Out := frontEnd (.shfli x) x.g s (shfl 0 x)
/-- SHFLA (R169). -/
def execShfla (x : FmtR) (s : State) : Out := frontEnd (.shfla x) x.g s (shfl 1 x)
/-- SHFLB (R169). -/
def execShflb (x : FmtR) (s : State) : Out := frontEnd (.shflb x) x.g s (shfl 2 x)
/-- SHFLX (R169). -/
def execShflx (x : FmtR) (s : State) : Out := frontEnd (.shflx x) x.g s (shfl 3 x)
/-- QSWAP (R170). -/
def execQswap (x : FmtR) (s : State) : Out :=
  frontEnd (.qswap x) x.g s (fun e => e.result x.d (fun l => e.g.rdAt x.a (l ^^^ (fldC x.c 0 2 + 1))))
/-- QBCAST (R170). -/
def execQbcast (x : FmtR) (s : State) : Out :=
  frontEnd (.qbcast x) x.g s (fun e => e.result x.d (fun l => e.g.rdAt x.a (4 * (l / 4) + fldC x.c 0 2)))

/-! ## Votes and matches (R171, R172) -/

/-- The result of VOTE: `holds` is the mask of lanes of V where the test holds. -/
def voteWord (vm : Nat) (v holds : Mask) : Word :=
  match vm with
  | 0 => boolWord (holds == v)
  | 1 => boolWord (holds != 0)
  | 2 => boolWord (holds == v || holds == 0)
  | _ => holds

/-- VOTE (R171). -/
def execVote (x : FmtR) (s : State) : Out :=
  frontEnd (.vote x) x.g s (fun e =>
    let h := maskOf ((lanesOf e.v).filter (fun l => e.g.rd x.a l != 0))
    e.result x.d (fun _ => voteWord (fldC x.c 0 2) e.v h))

/-- MATCH (R172). -/
def execMatchLanes (x : FmtR) (s : State) : Out :=
  frontEnd (.matchLanes x) x.g s (fun e =>
    let val := fun l => if fldC x.c 1 1 = 1 then e.g.rd64 x.a l else (e.g.rd x.a l).setWidth 64
    let eq := fun l => maskOf ((lanesOf e.v).filter (fun j => val j == val l))
    e.result x.d (fun l =>
      if fldC x.c 0 1 = 0 then eq l
      else if (lanesOf e.v).all (fun j => val j == val (lowest e.v)) then e.v else 0))

/-! ## Reductions and scans (R173 to R176) -/

/-- The identity of an integer operation (R173). -/
def intIdentity (op : Nat) (s : Bool) : Word :=
  match op with
  | 1 => if s then 0x7FFFFFFF else 0xFFFFFFFF
  | 2 => if s then 0x80000000 else 0
  | 3 => 0xFFFFFFFF
  | _ => 0

/-- An integer operation of REDUX (R173). -/
def intOp (op : Nat) (s : Bool) (a b : Word) : Word :=
  match op with
  | 0 => a + b
  | 1 => minWord s a b
  | 2 => maxWord s a b
  | 3 => a &&& b
  | 4 => a ||| b
  | _ => a ^^^ b

/-- The identity of a float operation: 0 add, 1 min, 2 max (R174). -/
def floatIdentity (fop : Nat) : Nat :=
  match fop with
  | 0 => 0
  | 1 => f32.infCode false
  | _ => f32.infCode true

/-- One combining step of a float operation (R174, R175). -/
def floatOp (fop : Nat) (k : Arith) (a b : Nat) : Nat :=
  match fop with
  | 0 => f32.addC k a b
  | 1 => f32.minMax false k.ftz a b
  | _ => f32.minMax true k.ftz a b

/-- A NaN result is canonical (R117). -/
def canonNaN (c : Nat) : Nat := if f32.isNaN c then f32.nanCode else c

/-- Combine two results either of which may be absent (R174). -/
def combineOpt (f : Nat → Nat → Nat) : Option Nat → Option Nat → Option Nat
  | none, b => b
  | a, none => a
  | some a, some b => some (f a b)

/-- One level of the tree: neighbours combined (R174). -/
def treeLevel (f : Nat → Nat → Nat) : List (Option Nat) → List (Option Nat)
  | a :: b :: r => combineOpt f a b :: treeLevel f r
  | l => l

/-- The tree over 32 lanes (R174). -/
def treeRoot (f : Nat → Nat → Nat) (l : List (Option Nat)) : Option Nat :=
  ((treeLevel f (treeLevel f (treeLevel f (treeLevel f (treeLevel f l))))).head?).join

/-- Combine values in list order, one step at a time; none for an empty list (R175). -/
def foldOpt (f : Nat → Nat → Nat) (l : List Nat) : Option Nat := l.foldl (fun a x => combineOpt f a (some x)) none

/-- RND and FTZ of a float reduction. -/
def redArith (m : BitVec 12) : Arith := ⟨rndOf (fldM m 9 3) 0, m.getLsbD 8, false⟩
/-- An f32 input of a reduction after FTZ. -/
def redInput (m : BitVec 12) (w : Word) : Nat := f32.flush (m.getLsbD 8) w.toNat

/-- The lanes of V that contribute to lane `l` of a scan (R173). -/
def scanLanes (v : Mask) (excl : Bool) (l : Nat) : List Nat := (lanesOf v).filter (fun j => if excl then j < l else j ≤ l)

/-- REDUX (R173). -/
def execRedux (x : FmtR) (s : State) : Out :=
  frontEnd (.redux x) x.g s (fun e =>
    let op := fldC x.c 0 3
    let sg := x.c.getLsbD 3
    let r := (lanesOf e.v).foldl (fun a j => intOp op sg a (e.g.rd x.a j)) (intIdentity op sg)
    e.result x.d (fun _ => r))

/-- SCAN (R173). -/
def execScan (x : FmtR) (s : State) : Out :=
  frontEnd (.scan x) x.g s (fun e =>
    let op := fldC x.c 0 3
    let sg := x.c.getLsbD 3
    e.result x.d (fun l =>
      (scanLanes e.v (x.c.getLsbD 4) l).foldl (fun a j => intOp op sg a (e.g.rd x.a j)) (intIdentity op sg)))

/-- REDUXF (R174). -/
def execReduxf (x : FmtR) (s : State) : Out :=
  frontEnd (.reduxf x) x.g s (fun e =>
    let fop := fldC x.c 0 2
    let leaves := (List.range 32).map (fun l => if e.v.getLsbD l then some (redInput x.m (e.g.rd x.a l)) else none)
    let r := canonNaN ((treeRoot (floatOp fop (redArith x.m)) leaves).getD (floatIdentity fop))
    e.result x.d (fun _ => w32 r))

/-- SCANF (R175). -/
def execScanf (x : FmtR) (s : State) : Out :=
  frontEnd (.scanf x) x.g s (fun e =>
    let fop := fldC x.c 0 2
    e.result x.d (fun l =>
      let xs := (scanLanes e.v (x.c.getLsbD 4) l).map (fun j => redInput x.m (e.g.rd x.a j))
      w32 (canonNaN ((foldOpt (floatOp fop (redArith x.m)) xs).getD (floatIdentity fop)))))

/-- The lanes where segments start (R176). -/
def segStarts (g : Group) (flag : Opnd) (v : Mask) : List Nat :=
  (lanesOf v).filter (fun l => l == lowest v || (g.rd flag l).getLsbD 0)

/-- The lanes of V in the segment that holds lane `l`; none below the lowest lane of V (R176). -/
def segLanes (g : Group) (flag : Opnd) (v : Mask) (l : Nat) : List Nat :=
  let starts := segStarts g flag v
  match (starts.filter (fun t => t ≤ l)).getLast? with
  | none => []
  | some a =>
    let b := ((starts.filter (fun t => l < t)).head?).getD 32
    (lanesOf v).filter (fun j => a ≤ j && j < b)

/-- A segmented combination of some lanes (R176). -/
def segValue (x : FmtR) (g : Group) (ls : List Nat) : Word :=
  let sop := fldC x.c 0 3
  let sg := x.c.getLsbD 3
  if 4 ≤ sop then
    w32 (canonNaN ((foldOpt (floatOp (sop - 4) (redArith x.m)) (ls.map (fun j => redInput x.m (g.rd x.a j)))).getD
      (floatIdentity (sop - 4))))
  else ls.foldl (fun a j => intOp sop sg a (g.rd x.a j)) (intIdentity sop sg)

/-- SEGRED (R176). -/
def execSegred (x : FmtR) (s : State) : Out :=
  frontEnd (.segred x) x.g s (fun e => e.result x.d (fun l => segValue x e.g (segLanes e.g x.b e.v l)))

/-- SEGSCAN (R176). -/
def execSegscan (x : FmtR) (s : State) : Out :=
  frontEnd (.segscan x) x.g s (fun e => e.result x.d (fun l =>
    segValue x e.g ((segLanes e.g x.b e.v l).filter (fun j => if x.c.getLsbD 4 then j < l else j ≤ l))))

/-! ## Election, masks and broadcasts (R177, R178) -/

/-- ELECT (R177). -/
def execElect (x : FmtR) (s : State) : Out :=
  frontEnd (.elect x) x.g s (fun e => e.result x.d (fun l => boolWord (e.v != 0 && l == lowest e.v)))

/-- ACTMASK (R177). -/
def execActmask (x : FmtR) (s : State) : Out :=
  frontEnd (.actmask x) x.g s (fun e => e.result x.d (fun _ => if x.c.getLsbD 0 then e.v else e.act))

/-- The source lane of BCAST and KSET (R178). -/
def Fe.bcastLane (e : Fe) (c : BitVec 10) : Nat :=
  if c.getLsbD 5 then (if e.v = 0 then lowest e.act else lowest e.v) else fldC c 0 5

/-- BCAST (R178). -/
def execBcast (x : FmtR) (s : State) : Out :=
  frontEnd (.bcast x) x.g s (fun e => e.result x.d (fun _ => e.g.rdAt x.a (e.bcastLane x.c)))

/-- Write a k pair where ACT is not empty, and push it as a 64-bit result (R178, R239). -/
def Fe.resultK64 (e : Fe) (n : Nat) (x : Dword) : Out :=
  let g := if e.act = 0 then e.g else (e.g.writeK n (x.setWidth 32)).writeK (n + 1) (x.extractLsb' 32 32)
  .next (e.put ((g.push64 e.x (.k (BitVec.ofNat 6 n)) e.act (fun _ => x)).next))

/-- The index of a k register operand. -/
def kIndex : Opnd → Nat
  | .k n => n.toNat
  | _ => 0

/-- KSET (R178). -/
def execKset (x : FmtR) (s : State) : Out :=
  frontEnd (.kset x) x.g s (fun e =>
    let l := e.bcastLane x.c
    if fldC x.c 6 1 = 1 then e.resultK64 (kIndex x.d) (e.g.rd64At x.a l) else e.resultK (kIndex x.d) (e.g.rdAt x.a l))

/-! ## Ranking, sorting and compaction (R179 to R181) -/

/-- RANK (R179). -/
def execRank (x : FmtR) (s : State) : Out :=
  frontEnd (.rank x) x.g s (fun e => e.result x.d (fun l =>
    w32 ((lanesOf e.v).filter (fun j => e.g.rd x.a j == e.g.rd x.a l && (x.c.getLsbD 0 || j < l))).length))

/-- Whether key `a` may stand before key `b` in the order asked for (R180). -/
def sortLe (s desc : Bool) (a b : Word) : Bool :=
  if desc then decide (extInt s b ≤ extInt s a) else decide (extInt s a ≤ extInt s b)

/-- Stable insertion. -/
def insertLane (le : Nat → Nat → Bool) (l : Nat) : List Nat → List Nat
  | [] => [l]
  | a :: r => if le l a then l :: a :: r else a :: insertLane le l r

/-- The lanes in stable sorted order. -/
def sortLanes (le : Nat → Nat → Bool) : List Nat → List Nat
  | [] => []
  | a :: r => insertLane le a (sortLanes le r)

/-- The position of a lane among the lanes of a mask. -/
def lanePos (m : Mask) (l : Nat) : Nat := ((lanesOf m).filter (fun j => j < l)).length

/-- SORTG (R180). -/
def execSortg (x : FmtR) (s : State) : Out :=
  frontEnd (.sortg x) x.g s (fun e =>
    let le := fun i j => sortLe (x.c.getLsbD 0) (x.c.getLsbD 1) (e.g.rd x.a i) (e.g.rd x.a j)
    let p := (sortLanes le (lanesOf e.v)).map (fun j => e.g.rd x.b j)
    e.result x.d (fun l => p.getD (lanePos e.act l) 0))

/-- The selected lanes of V (R181). -/
def Fe.selected (e : Fe) (b : Opnd) : List Nat := (lanesOf e.v).filter (fun l => (e.g.rd b l).getLsbD 0)

/-- COMPACT (R181). -/
def execCompact (x : FmtR) (s : State) : Out :=
  frontEnd (.compact x) x.g s (fun e =>
    let p := (e.selected x.b).map (fun j => e.g.rd x.a j)
    e.result x.d (fun l => p.getD (lanePos e.act l) 0))

/-- EXPAND (R181). -/
def execExpand (x : FmtR) (s : State) : Out :=
  frontEnd (.expand x) x.g s (fun e =>
    let sel := e.selected x.b
    e.result x.d (fun l =>
      if sel.contains l then e.g.rdAt x.a ((lanesOf e.act).getD (sel.filter (fun j => j < l)).length 0) else 0))

end Sys2Proof.Machine
end

