-- ==== Sys2Proof/Machine/Gresume.lean ====
section
/-!
DEFINITION. The flush of a block's windows at retirement and pre-emption, and its faults (R274, R493); the resumption of a suspended
group, engine operation or held flush; and GRESUME, OP 0xD8 (R433, R434).
-/

namespace Sys2Proof.Machine

/-! ## Flushing every window of a block (R274, R493) -/

/-- The lowest slot of a block. -/
def Block.lowSlot (b : Block) : Nat := (b.slots.min?).getD 0

/-- How the flush of a block's windows ends. -/
inductive BlockFlush where
  /-- every window is clean -/
  | done (s : State)
  /-- a window failed: its record is posted and the block is held -/
  | held (s : State)
  /-- a line is claimed, a translation waits, or a write has not performed -/
  | wait (s : State)
  | absent

/-- A window flush of a block fails: a KIND 1 record of its lowest slot, PC and LMASK 0, bit 13 of SUB set; no group changes state. -/
def State.holdFlush (s : State) (core blk cause sub addr : Nat) : State :=
  let c := s.core core
  let b := c.block blk
  let i := b.lowSlot
  let g := c.group i
  let fid := faultId core i c.gen (g.faults + 1)
  let su : Susp := { fid, pc := 0, cause, sub := sub + 2 ^ 13, addr := BitVec.ofNat 64 addr, lmask := 0 }
  let c := (c.setGroup i { g with faults := g.faults + 1 }).setBlock blk { b with flushHold := some su }
  (s.setCore core c).postFault b.part core
    { kind := 1, gen := c.gen, cause, sub := sub + 2 ^ 13, die := dieOf core, core := core % 256, faultid := fid, lmask := 0, pc := 0,
      addr := BitVec.ofNat 64 addr, gridseq := b.gridseq, block := b.b, detail := 0 }

/-- Write back windows in order, but for words that are written back already. -/
def State.flushAll (s : State) (core blk : Nat) : List Window → BlockFlush
  | [] => .done s
  | w :: r =>
    match s.flushWords core blk ((s.core core).block blk).lowSlot 64 w
      ((s.dirtyWords core blk w).filter (fun o => !(s.marksAt core blk o).f.contains 64)) with
    | .bad c sub a => .held (s.holdFlush core blk c sub a)
    | .wait => .wait s
    | .absent => .absent
    | .ok s1 => State.flushAll s1 core blk r

/-- The windows of a block. -/
def Core.windowsOf (c : Core) (blk : Nat) : List Window := c.windows.filter (fun w => w.blk == blk)

/-- Flush every window of a block at dev scope: its windows are clean when every write has performed (R271, R274). -/
def State.flushBlock (s : State) (core blk : Nat) : BlockFlush :=
  let ws := (s.core core).windowsOf blk
  match s.flushAll core blk ws with
  | .done s1 =>
    if s1.unperformed core ((s1.core core).block blk) 3 then .wait s1
    else .done (ws.foldl (fun s w => s.endFlush core blk 64 w) s1)
  | r => r

/-! ## What a FAULTID names (R434) -/

/-- A suspended group, a suspended engine operation, or a held window flush. -/
inductive Suspended where
  | group (slot : Nat) (su : Susp)
  | copy (o : CopyOp) (su : Susp)
  | flush (blk : Nat) (su : Susp)

/-- Its suspension record. -/
def Suspended.susp : Suspended → Susp
  | .group _ su => su
  | .copy _ su => su
  | .flush _ su => su

/-- The core that a FAULTID names. -/
def faultCore (id : Word) : Nat := 256 * (id.toNat / 2 ^ 30) + id.toNat / 2 ^ 22 % 256

/-- What is suspended on a core under a FAULTID. -/
def Core.suspended (c : Core) (id : Word) : Option Suspended :=
  let hit := fun (su : Option Susp) => match su with
    | some x => if x.fid = id then some x else none
    | none => none
  (c.groups.findSome? (fun p => (hit p.2.susp).map (Suspended.group p.1))).or
    ((c.copyq.findSome? (fun o => (hit o.susp).map (Suspended.copy o))).or
      (c.blocks.findSome? (fun p => (hit p.2.flushHold).map (Suspended.flush p.1))))

/-! ## Actions -/

/-- The word at a PC, read again for SKIP; none where its fetch fails. -/
def State.wordAt (s : State) (core : Nat) (b : Block) (pc : Nat) : Option Dword :=
  match s.translate b.part core b.asid pc .fetch with
  | .at k => some (BitVec.ofNat 64 (s.rd k 8))
  | _ => none

/-- SKIP writes the SKIP value to the D or LNK destination of the faulted word, at its width. -/
def Group.skipWrite (g : Group) (i : Instr) (x : Guard) (v : Dword) : Group :=
  let lo := halfOf v 0
  let hi := halfOf v 1
  match (form i).uses.find? (·.dst) with
  | none => g
  | some u => match u.o with
    | .k n =>
      let g1 := g.writeK n.toNat lo
      let g2 := if 2 ≤ u.regs then g1.writeK (n.toNat + 1) hi else g1
      if 4 ≤ u.regs then (g2.writeK (n.toNat + 2) 0).writeK (n.toNat + 3) 0 else g2
    | o =>
      if u.regs = 1 then g.write o (g.act x) (fun _ => lo)
      else if u.regs = 2 then g.write64 o (g.act x) (fun _ => v)
      else g.write128 o (g.act x) (fun i _ => if i = 0 then lo else if i = 1 then hi else 0)

/-- SKIP of a suspended group. -/
def State.skipGroup (s : State) (core slot : Nat) (su : Susp) (v : Dword) : State :=
  let g := s.group core slot
  let g1 := if su.cause = 1 ∨ su.cause = 2 then g
    else match s.wordAt core ((s.core core).block g.blk) su.pc.toNat with
      | none => g
      | some w => match decodeWord w with
        | .ok i => g.skipWrite i (guardOf w) v
        | .error _ => g
  s.setGroup core slot (g1.resumeAt (su.pc + 8))

/-- Try the flush of a held block again. -/
def State.reflush (s : State) (core blk : Nat) : Option State :=
  match (s.setBlock core blk { ((s.core core).block blk) with flushHold := none }).flushBlock core blk with
  | .done s1 | .held s1 | .wait s1 => some s1
  | .absent => none

/-- The window whose flush failed at an address: its dirty words are discarded as WINV does (R493, R273). -/
def State.discardAt (s : State) (core blk addr : Nat) : State :=
  match ((s.core core).windowsOf blk).find? (fun w => (s.dirtyWords core blk w).any (fun o => w.vaAt o == addr)) with
  | some w => s.invalidate core w
  | none => s

/-- One action on what is suspended: ACTN 0 REPLAY, 1 SKIP, otherwise KILL; none where a flush reaches memory that no stack holds. -/
def State.resumeOne (s : State) (core act : Nat) (v : Dword) : Suspended → Option State
  | .group slot su =>
    match act with
    | 0 => some (s.setGroup core slot ((s.group core slot).resumeAt su.pc))
    | 1 => some (s.skipGroup core slot su v)
    | _ => some (s.killBlock core (s.group core slot).blk 8)
  | .copy o _ =>
    match act with
    | 0 =>
      let c := s.core core
      let s1 := s.setCore core { c with
        copyq := updWhere (fun p => p.id == o.id) (fun p => { p with susp := none }) c.copyq }
      some (s1.own core o.id (c.block o.blk) o.peer (dropRanges o.done o.writes))
    | 1 => some (s.copyDone core o)
    | _ => some (s.killBlock core o.blk 8)
  | .flush blk su =>
    match act with
    | 0 => s.reflush core blk
    | 1 => (s.discardAt core blk su.addr.toNat).reflush core blk
    | _ => some (s.killBlock core blk 8)

/-- A resume by FAULTID within a partition: the status and the state (R434). -/
def State.resume (s : State) (part : Nat) (id : Word) (act : Nat) (v : Dword) : Option (Nat × State) :=
  let core := faultCore id
  let c := s.core core
  if !(s.part part).dies.contains (dieOf core) || id.toNat / 256 % 256 != c.gen.toNat then some (1, s)
  else match c.suspended id with
    | none => some (1, s)
    | some x => if x.susp.cause = 9 ∧ act < 2 then some (2, s) else (s.resumeOne core act v x).map (fun t => (0, t))

/-- Whether a SKIP of a suspended group waits for the faulted word, whose line an engine claims (R299). -/
def State.resumeHeld (s : State) (id : Word) (act : Nat) : Bool :=
  let core := faultCore id
  let c := s.core core
  match act, c.suspended id with
  | 1, some (.group slot su) => s.fetchHeld core (c.block (c.group slot).blk) su.pc.toNat
  | _, _ => false

/-! ## GRESUME (R433, R434) -/

/-- GRESUME: D is written where the issuing group still runs. -/
def gresumeEffect (x : FmtR) (act : Nat) (e : Fe) : Out :=
  if e.v = 0 then e.done e.g
  else if !(SMap.get {} (e.s.part e.b.part).aspaces e.b.asid).flten then e.fault { cause := 5, sub := 28, lanes := 1#32 <<< lowest e.v }
  else if e.s.resumeHeld (e.g.rd x.a (lowest e.v)) act then e.waitIssue
  else e.inOrder 2 3 (
    match e.s.resume e.b.part (e.g.rd x.a (lowest e.v)) act (if act = 1 then e.g.rd64 x.b (lowest e.v) else 0) with
    | none => .fault .absentMemory
    | some (st, s) =>
      let g := s.group e.core e.slot
      if g.st = .running then ({ e with s, g } : Fe).result x.d (fun _ => w32 st) else .next s)

/-- GRESUME.REPLAY. -/
def execGresumeReplay (x : FmtR) (s : State) : Out := frontEnd (.gresumeReplay x) x.g s (gresumeEffect x 0)
/-- GRESUME.SKIP. -/
def execGresumeSkip (x : FmtR) (s : State) : Out := frontEnd (.gresumeSkip x) x.g s (gresumeEffect x 1)
/-- GRESUME.KILL. -/
def execGresumeKill (x : FmtR) (s : State) : Out := frontEnd (.gresumeKill x) x.g s (gresumeEffect x 2)

end Sys2Proof.Machine
end

