-- ==== Sys2Proof/Machine/Distributor.lean ====
section
/-!
DEFINITION. The distributors: stealing units (R22), placing blocks and gangs on cores (R23, R24, R257, R264, R295, R339, R419), starting
them (R16, R18, R19, R25, R374, R375), and retiring them (R26).
-/

namespace Sys2Proof.Machine

/-! ## Fitting (R23) -/

/-- Sum of a claim over the blocks of a core. -/
def Core.sum (c : Core) (f : Block → Nat) : Nat := (c.blocks.map (fun p => f p.2)).foldl (· + ·) 0

/-- Whether ranges starting at `a` and `b` keep apart. -/
def apart (a n b m : Nat) : Bool := n == 0 || m == 0 || decide (a + n ≤ b) || decide (b + m ≤ a)

/-- Whether a block with `n` groups of a kernel fits a core, counting the claims of the blocks resident there (R23), and the core's barrier
records still hold the 4 that R416 promises it beside those that the others hold or are promised. MODEL'S CHOICE (assumption 123). -/
def Core.fits (c : Core) (k : KDesc) (n : Nat) : Bool :=
  (c.blocks.isEmpty || c.l1kib == k.l1slice) &&
  c.sum (fun b => (b.n + b.h) * b.kd.regs) * 128 + (n + k.headroom) * k.regs * 128 ≤ 131072 &&
  c.sum (fun b => b.n + b.h) + n + k.headroom ≤ Config.groupSlots &&
  c.sum (fun b => b.n) + n ≤ 32 &&
  c.sum Block.scratchBytes + k.scratchClaim ≤ Config.localArrayBytes - 1024 * k.l1slice &&
  c.sum (fun b => b.n * b.kd.lane) + n * k.lane ≤ 2048 &&
  c.sum (fun b => b.kd.shares) + k.shares ≤ c.budget && c.barsPromised none + 4 ≤ 128

/-- Whether SBASE and LBASE are free on a core (R257, R264). -/
def Core.basesFree (c : Core) (k : KDesc) (n : Nat) (x : Site) : Bool :=
  x.sbase % 256 == 0 && x.sbase + k.scratchClaim ≤ Config.localArrayBytes - 1024 * k.l1slice && x.lbase + n * k.lane ≤ 2048 &&
  c.blocks.all (fun p => apart x.sbase k.scratchClaim p.2.sbase p.2.scratchBytes && apart x.lbase (n * k.lane) p.2.lbase (p.2.n * p.2.kd.lane))

/-- Whether placing a block of a grid would raise a core's generation (R339). -/
def Core.newGen (c : Core) (cmd : Nat) : Bool :=
  c.blocks.isEmpty && (match c.lastLeft with
    | some (k, bad) => k != cmd || bad
    | none => false)

/-- Whether the generation that a placement on a core takes has no outstanding request or write (R339). -/
def State.genFree (s : State) (core cmd : Nat) : Bool :=
  let c := s.core core
  !c.newGen cmd || (c.requests.all (fun r => r.gen != c.gen + 1) && s.writes.all (fun w => w.core != core || w.gen != c.gen + 1))

/-- Whether a placement changes the L1 split of a core (R23, R295). -/
def Core.newSplit (c : Core) (k : KDesc) : Bool := c.blocks.isEmpty && c.l1kib != k.l1slice

/-- Whether the accesses of a kit's 16 cores that are in flight have completed, where a placement changes a split in it (R295). -/
def State.splitReady (s : State) (core : Nat) (k : KDesc) : Bool :=
  !(s.core core).newSplit k || (List.range 16).all (fun i =>
    let q := 16 * kitOf core + i
    (s.core q).requests.isEmpty && s.writes.all (fun w => w.core != q))

/-- Whether a core of a die takes a block at a site (R23, R295, R339). -/
def State.siteOk (s : State) (die : Nat) (k : KDesc) (n cmd : Nat) (x : Site) : Bool :=
  let c := s.core x.core
  dieOf x.core == die && s.usable x.core && c.fits k n && c.basesFree k n x && s.genFree x.core cmd && s.splitReady x.core k

/-- Whether some bases are free on a core. -/
def Core.room (c : Core) (k : KDesc) (n : Nat) : Bool :=
  let sb := 0 :: c.blocks.map (fun p => p.2.sbase + p.2.scratchBytes)
  let lb := 0 :: c.blocks.map (fun p => p.2.lbase + p.2.n * p.2.kd.lane)
  sb.any (fun a => lb.any (fun b => c.basesFree k n ⟨0, a, b⟩))

/-- The cores of a die that could take a block of a launch now. -/
def State.takers (s : State) (die : Nat) (k : KDesc) (n cmd : Nat) : List Nat :=
  (s.dieCores die).filter (fun i => (s.core i).fits k n && (s.core i).room k n && s.genFree i cmd && s.splitReady i k)

/-! ## Units -/

/-- The units of a die. -/
def State.unitsAt (s : State) (die : Nat) : List Chunk := SMap.get [] s.units die
/-- Replace the units of a die. -/
def State.setUnits (s : State) (die : Nat) (l : List Chunk) : State := { s with units := SMap.set [] s.units die l }

/-- Whether no block of a unit has started. -/
def Chunk.fresh (u : Chunk) : Bool := u.next == u.first

/-- The unit with the lowest first block. -/
def lowestUnit : List Chunk → Option Chunk
  | [] => none
  | u :: r => match lowestUnit r with
    | some w => if w.first < u.first then some w else some u
    | none => some u

/-- The unit with the highest first block. -/
def highestUnit : List Chunk → Option Chunk
  | [] => none
  | u :: r => match highestUnit r with
    | some w => if u.first < w.first then some w else some u
    | none => some u

/-- Threads of a block of a launch. -/
def Command.threads (c : Command) : Nat := c.field 0x18 2 * c.field 0x1A 2 * c.field 0x1C 2

/-- Gangs of gang launches that have blocks on a die (R419). -/
def State.gangsOn (s : State) (die : Nat) : Nat :=
  ((s.cores.flatMap (fun p => if dieOf p.1 = die then
    (p.2.blocks.filter (fun b => b.2.gangLaunch)).map (fun b => (b.2.cmd, b.2.b / b.2.gangSize)) else [])).eraseDups).length

/-- Whether a die could place a block, or a whole gang, of a launch now (R22 to R24, R419). -/
def State.couldPlace (s : State) (die cmd : Nat) : Bool :=
  let c := s.command cmd
  let n := groupsOf c.threads
  let l := (s.takers die c.kd n cmd).length
  if c.kd.gang = 0 then 1 ≤ l else c.kd.gang ≤ l && s.gangsOn die < 16

/-- Launches that are dispatched and whose units a die could place. -/
def State.nameable (s : State) (part die : Nat) : List Nat :=
  (s.commands.filter (fun c => c.2.typ == 1 && c.2.part == part && c.2.st == .dispatched && s.couldPlace die c.1)).map (·.1)

/-- Unstarted units of some launches at a die. -/
def State.freshUnits (s : State) (die : Nat) (cmds : List Nat) : List Chunk :=
  (s.unitsAt die).filter (fun u => u.fresh && cmds.contains u.cmd)

/-! ## Stealing (R22) -/

/-- Whether a die holds no unstarted unit of any dispatched launch, and none is on its way to it. -/
def State.idleDie (s : State) (die : Nat) : Bool := (s.unitsAt die).all (fun u => !u.fresh) && (SMap.get [] s.steals die).isEmpty

/-- STEAL_MESSAGE: a die with nothing to start asks the distributor that holds the most unstarted units of the launches it could place;
the victim removes its highest-numbered unstarted unit of launch `id` and sends it. A victim with none left answers with nothing. -/
def execStealMessage (id thief victim : Nat) (s : State) : Out :=
  let part := (s.command id).part
  let names := s.nameable part thief
  let dies := s.partDies part
  let most := ((dies.filter (· != thief)).map (fun d => (s.freshUnits d names).length)).foldl max 0
  if !names.contains id || !dies.contains thief || !dies.contains victim || victim == thief || !s.idleDie thief ||
      (s.freshUnits victim names).length < most then .next s
  else match highestUnit (s.freshUnits victim [id]) with
    | none => .next s
    | some u =>
      let s1 := s.setUnits victim ((s.unitsAt victim).erase u)
      .next { s1 with steals := SMap.set [] s1.steals thief [u] }

/-- STEAL_REPLY: the thief receives the unit on its way to it. -/
def execStealReply (thief : Nat) (s : State) : Out :=
  .next { (s.setUnits thief (s.unitsAt thief ++ SMap.get [] s.steals thief)) with steals := SMap.del s.steals thief }

/-! ## Starting a block (R25, R339, R374, R375) -/

/-- The kit of a core writes back and invalidates its slices (R295). -/
def State.flushKit (s : State) (kit : Nat) : State := { s with dir := mapDir (fun d => d.evict kit) s.dir }

/-- A core takes a block of a grid: its kit is in retention no more (R302), its generation rises where R339 says, and an empty core takes the
kernel's L1 split (R23, R295). -/
def State.takeCore (s : State) (core cmd : Nat) (k : KDesc) : State :=
  let c := s.core core
  let c1 := if c.newGen cmd then { c with gen := c.gen + 1 } else c
  let s1 := s.woken [kitOf core]
  if c.newSplit k then (s1.flushKit (kitOf core)).setCore core { c1 with l1kib := k.l1slice } else s1.setCore core c1

/-- Free group slots of a core, ascending. -/
def Core.freeSlots (c : Core) : List Nat := (List.range Config.groupSlots).filter (fun i => (c.group i).st == .free)

/-- The lowest block table entry that is free. R25 and R374 give no order in which entries are taken. MODEL'S CHOICE (assumption 85). -/
def Core.freeBlockId (c : Core) : Nat := ((List.range 32).find? (fun i => !c.hasBlock i)).getD 0

/-- Threads of home group `i` of a block of `n` threads, helper threads of an occupied quad among them, as lane and thread plus 1. -/
def homeThreads (n i : Nat) : SMap Nat :=
  ((List.range 32).filter (fun l => decide (32 * i + l < (n + 3) / 4 * 4))).map (fun l => (l, 32 * i + l + 1))


/-- A home group as it starts; SRSEED is 0x5A3C xor t (R74). -/
def startGroup (blk order n i faults : Nat) (entry arg : Dword) : Group :=
  let t := homeThreads n i
  let m := maskOf (t.map (·.1))
  { st := .running
    blk
    home := some i
    age := order
    pc := entry
    m
    exitm := ~~~m
    k := SMap.set 0 (SMap.set 0 [] 0 (arg.setWidth 32)) 1 (arg.extractLsb' 32 32)
    tids := t
    srseed := t.map (fun q => (q.1, 0x5A3C ^^^ BitVec.ofNat 16 (q.2 - 1)))
    faults := BitVec.ofNat 8 faults }

/-- Block `b` of a launch starts at a site. -/
def State.startBlock (s : State) (cmd b : Nat) (x : Site) : State :=
  let m := s.command cmd
  let s1 := s.takeCore x.core cmd m.kd
  let c := s1.core x.core
  let n := groupsOf m.threads
  let slots := c.freeSlots.take (n + m.kd.headroom)
  let homes := slots.take n
  let blk := c.freeBlockId
  let f := m.field
  let blkv : Block :=
    { b, cmd, gridseq := m.acceptSeq, part := m.part, asid := m.asid, kd := m.kd, arg := BitVec.ofNat 64 (f 0x10 8)
      bx := f 0x18 2, by_ := f 0x1A 2, bz := f 0x1C 2, gx := f 0x20 4, gy := f 0x24 2, gz := f 0x26 2
      gangSize := if m.kd.gang = 0 then 1 else m.kd.gang
      gangLaunch := m.kd.gang != 0
      order := s1.starts
      n
      h := m.kd.headroom
      hslot := homes
      slots
      ngrp := n
      sbase := x.sbase
      lbase := x.lbase
      threads := (List.range n).flatMap (fun i => (homeThreads m.threads i).map (fun q =>
        (q.2 - 1, { live := true, slot := homes.getD i 0, lane := q.1 }))) }
  let c1 := homes.zipIdx.foldl (fun (c : Core) q =>
    c.setGroup q.1 (startGroup blk s1.starts m.threads q.2 (c.group q.1).faults.toNat m.kd.entry blkv.arg)) c
  let c2 := (slots.drop n).foldl (fun (c : Core) i =>
    c.setGroup i { st := .reserved, blk, age := s1.starts, exitm := 0xFFFFFFFF, faults := (c.group i).faults }) c1
  let s2 : State := { (s1.setCore x.core (c2.setBlock blk blkv)) with starts := s1.starts + 1 }
  s2.setCommand cmd { (s2.command cmd) with started := (s2.command cmd).started + 1 }

/-- Start the blocks from `b` on at sites. -/
def State.startAll (s : State) (cmd : Nat) : List Site → Nat → State
  | [], _ => s
  | x :: r, b => State.startAll (s.startBlock cmd b x) cmd r (b + 1)

/-- BLOCK_PLACE: the distributor of a die places the next block of its lowest unit of launch `id`, or the whole of its lowest gang, at
sites of its choice. -/
def execBlockPlace (id die : Nat) (sites : List Site) (s : State) : Out :=
  let c := s.command id
  let n := groupsOf c.threads
  let fits := sites.all (s.siteOk die c.kd n id) && sites.map (·.core) == (sites.map (·.core)).eraseDups
  if !s.isCommand id 1 || !fits then .next s
  else match lowestUnit ((s.unitsAt die).filter (fun u => u.cmd == id)) with
    | none => .next s
    | some u =>
      let rest := (s.unitsAt die).erase u
      if c.kd.gang ≠ 0 then
        if sites.length = u.count ∧ s.gangsOn die < 16 then .next ((s.setUnits die rest).startAll id sites u.first) else .next s
      else if sites.length = 1 then
        let left := if u.next + 1 = u.first + u.count then rest else rest ++ [{ u with next := u.next + 1 }]
        .next ((s.setUnits die left).startAll id sites u.next)
      else .next s

/-! ## Retirement (R26) -/

/-- Whether a block has nothing left to do: every lane has exited, every tag and MTC is 0, no engine or matrix operation is pending, every
count token has arrived (R423), and every store and atomic has performed. -/
def State.finished (s : State) (core blk : Nat) : Bool :=
  let c := s.core core
  let b := c.block blk
  b.ngrp == 0 && b.slots.all (fun i => (c.group i).tg.isEmpty && (c.group i).mtc == 0) &&
  c.copyq.all (fun o => o.blk != blk) && c.tileq.all (fun o => o.blk != blk) && c.matq.all (fun q => q.blk != blk) &&
  b.cvs.all (fun p => p.2.signers.isEmpty) && b.tokens.isEmpty && !s.unperformedBy core (c.writersOf blk) 4 &&
  c.requests.all (fun r => r.blk != blk || r.slot == 63)

/-- BLOCK_RETIRE: the block's windows are flushed, and it leaves its core. -/
def execBlockRetire (core blk : Nat) (s : State) : Out :=
  let b := (s.core core).block blk
  if !(s.core core).hasBlock blk || b.flushHold.isSome || !s.finished core blk then .next s
  else match s.flushBlock core blk with
    | .absent => .fault .absentMemory
    | .held s1 | .wait s1 => .next s1
    | .done s1 =>
      let s2 := s1.leave core blk false
      .next (s2.gangSettle (dieOf core) 64)

end Sys2Proof.Machine
end

