-- ==== Sys2Proof/Machine/Registers.lean ====
section
/-!
DEFINITION. The register page of a partition's function: doorbells, queue and address-space control, the commit pool, TLB invalidation,
host resumption, pre-emption requests, power budgets, save areas, rings and performance counters (R221, R222, R325, R326, R334, R338,
R425, R434, R439, R448 to R451, R457, R495, R496).
-/

namespace Sys2Proof.Machine

/-! ## Functions and their pages (R447, R449)

A function below 4 is the physical function of the partition of that number; 4 + i is virtual function i of the port's 16 (assumption 55). -/

/-- The page of a partition's physical function. -/
def Partition.page (x : Partition) : Page :=
  {
    qctl := x.qctl
    tlbinvVa := x.tlbinvVa
    tlbinvCtl := x.tlbinvCtl
    fresumeId := x.fresumeId
    fresumeAct := x.fresumeAct
    fresumeSkip := x.fresumeSkip
    fresumeStatus := x.fresumeStatus
    preemptGrid := x.preemptGrid
    preemptBlock := x.preemptBlock
    preemptCtl := x.preemptCtl
    pwrbudget := x.pwrbudget
    csaAddr := x.csaAddr
    asctl := x.asctl
    asdesc := x.asdesc
    pmccore := x.pmccore }
/-- Put the registers of a page in place. -/
def Partition.withPage (y : Partition) (x : Page) : Partition :=
  { y with
    qctl := x.qctl
    tlbinvVa := x.tlbinvVa
    tlbinvCtl := x.tlbinvCtl
    fresumeId := x.fresumeId
    fresumeAct := x.fresumeAct
    fresumeSkip := x.fresumeSkip
    fresumeStatus := x.fresumeStatus
    preemptGrid := x.preemptGrid
    preemptBlock := x.preemptBlock
    preemptCtl := x.preemptCtl
    pwrbudget := x.pwrbudget
    csaAddr := x.csaAddr
    asctl := x.asctl
    asdesc := x.asdesc
    pmccore := x.pmccore }

/-- The partition that a function reaches, if any: management assigns a virtual function's. -/
def State.functionPart (s : State) (f : Nat) : Option Nat :=
  if f < 4 then some f
  else match if f < 20 then Config.vfPart (f - 4) else none with
    | some p => if (s.part p).dies.isEmpty then none else some p
    | none => none
/-- Whether a function reaches a queue of its partition. -/
def reachesQueue (f q : Nat) : Bool := decide (f < 4) || Config.vfQueue (f - 4) q
/-- Whether a function reaches an address space of its partition. -/
def reachesSpace (f asid : Nat) : Bool := decide (f < 4) || Config.vfSpace (f - 4) asid

/-- An access of a function through its own register page: a virtual function's registers stand in for those of its partition's physical
function while the access acts. A virtual function without a partition reaches nothing. -/
def State.onPage (s : State) (f : Nat) (act : Nat → State → Out) : Out :=
  if f < 4 then act f s
  else match s.functionPart f with
    | none => .next s
    | some p =>
      match act p (s.setPart p ((s.part p).withPage (SMap.get {} s.vfs (f - 4)))) with
      | .next t => .next ({ (t.setPart p ((t.part p).withPage (s.part p).page)) with vfs := SMap.set {} t.vfs (f - 4) (t.part p).page })
      | o => o

/-! ## Doorbells (R326, R340, R460) -/

/-- Whether a queue lies in a partition's range. -/
def Partition.hasQueue (p : Partition) (q : Nat) : Bool := decide (p.qfirst ≤ q) && decide (q < p.qfirst + p.qcount)

/-- A doorbell write through a function's page is ignored and counted: in DOORBELLIGN of its partition, or for a page that has none, as
while in RESET, in the page's own count (R460). -/
def State.doorbellIgnored (s : State) (p : Nat) : State :=
  if s.parts.any (fun q => q.1 == p) then s.setPart p { (s.part p) with doorbellign := bump (s.part p).doorbellign }
  else { s with strayBells := SMap.set 0 s.strayBells p (bump (SMap.get 0 s.strayBells p)) }

/-- DOORBELL: WIDX of queue `d` % 4,096 takes the value written through the page of function `d` / 4,096. A function sees only its own
queues: the doorbell of another is a write that is ignored (R326, assumption 55). -/
def execDoorbell (d : Nat) (w : Dword) (s : State) : Out :=
  let f := d / 4096
  let q := d % 4096
  let x := s.queue q
  match s.functionPart f with
  | none => .next (s.doorbellIgnored f)
  | some p =>
    if s.devstate = 0 || !(s.part p).hasQueue q || !reachesQueue f q || x.st == .free || decide (w.toNat < x.widx.toNat) then
      .next (s.doorbellIgnored p)
    else
      let s1 := s.setQueue q { x with widx := w }
      if x.st = .active ∧ 2 ^ x.logsize < w.toNat - x.ridx.toNat then .next (s1.queueError q 14 0) else .next s1

/-! ## QCTL (R325, R334, R496) -/

/-- A QCTL operation ends: what QCTL then reads. An operation is one step of the model, so that no read falls into it and STATUS 15 is never
seen. MODEL'S CHOICE (assumption 121). -/
def State.qctlEnds (s : State) (p q op status result : Nat) : State :=
  s.setPart p { (s.part p) with
    qctl := BitVec.ofNat 64 (q % 4096 + op * 2 ^ 12 + status * 2 ^ 16 + result % 2 ^ 44 * 2 ^ 20) }

/-- A queue from its QTAB entry; none where a field breaks its limits (R325). -/
def State.queueOf (s : State) (part : Nat) (l : List Byte) : Option Queue :=
  let f := recField l
  if f 0 8 % 64 = 0 ∧ 4 ≤ f 8 1 ∧ f 8 1 ≤ 16 ∧ f 9 1 ≤ 7 ∧ f 0xC 4 = 0 ∧ f 0x18 8 = 0 ∧
      (SMap.get {} (s.part part).aspaces (f 0xA 2)).used then
    some { st := .active
           part
           base := BitVec.ofNat 64 (f 0 8)
           logsize := f 8 1
           prio := f 9 1
           asid := f 0xA 2
           rmirror := BitVec.ofNat 64 (f 0x10 8) }
  else none

/-- QCTL CREATE by the physical function. -/
def qctlCreate (q : Nat) (p : Nat) (s : State) : Out :=
  let x := s.part p
  let a := x.qtbase + 32 * (q - x.qfirst)
  if !x.hasQueue q then .next (s.qctlEnds p q 1 1 0)
  else if (s.queue q).st ≠ .free then .next (s.qctlEnds p q 1 2 0)
  else if s.partBytes p < a + 32 then .fault .absentMemory
  else match s.queueOf p (readList s.mem (partKey p a) 32) with
    | none => .next (s.qctlEnds p q 1 3 0)
    | some c => .next ((s.setQueue q c).qctlEnds p q 1 0 0)

/-- A QCTL operation of a function on a queue: one that the function does not reach lies outside its range (R447, R496). -/
def State.qctlBy (s : State) (f q op : Nat) (act : Nat → State → Out) : Out :=
  s.onPage f (fun p s => if reachesQueue f q then act p s else .next (s.qctlEnds p q op 1 0))

/-- QCTL CREATE. -/
def execQctlCreate (f q : Nat) (s : State) : Out := s.qctlBy f q 1 (qctlCreate q)

/-- QCTL, read RIDX, by the physical function. -/
def qctlReadRidx (q : Nat) (p : Nat) (s : State) : Out :=
  if !(s.part p).hasQueue q then .next (s.qctlEnds p q 2 1 0)
  else if (s.queue q).st = .free then .next (s.qctlEnds p q 2 2 0)
  else .next (s.qctlEnds p q 2 0 (s.queue q).ridx.toNat)

/-- QCTL, read RIDX. -/
def execQctlReadRidx (f q : Nat) (s : State) : Out := s.qctlBy f q 2 (qctlReadRidx q)

/-- QCTL DESTROY, with or without FORCE. -/
def State.qctlDestroy (s : State) (p q op : Nat) : State :=
  if !(s.part p).hasQueue q then s.qctlEnds p q op 1 0
  else if (s.queue q).st = .free then s.qctlEnds p q op 2 0
  else match s.destroyQueue q 0 (op == 4) with
    | (true, s1) => s1.qctlEnds p q op 4 0
    | (false, s1) => s1.qctlEnds p q op 0 0

/-- QCTL DESTROY without FORCE. -/
def execQctlDestroy (f q : Nat) (s : State) : Out := s.qctlBy f q 3 (fun p s => .next (s.qctlDestroy p q 3))
/-- QCTL DESTROY with FORCE. -/
def execQctlDestroyForce (f q : Nat) (s : State) : Out := s.qctlBy f q 4 (fun p s => .next (s.qctlDestroy p q 4))

/-! ## ASCTL (R450) -/

/-- An ASCTL operation ends: what ASCTL then reads. -/
def State.asctlEnds (s : State) (p asid op status : Nat) : State :=
  s.setPart p { (s.part p) with asctl := BitVec.ofNat 64 (asid % 65536 + op * 2 ^ 16 + status * 2 ^ 20) }

/-- An address space from a descriptor; none where a field is refused. -/
def aspaceOf (l : List Byte) : Option ASpace :=
  let f := recField l
  if f 0 8 % 131072 = 0 ∧ f 8 4 < 2 ^ 20 ∧ f 0xC 2 < 8 ∧ (l.drop 0xE).all (· == 0) then
    some { used := true
           ptroot := f 0 8
           pasid := f 8 4
           pgen := (f 0xC 2).testBit 0
           heapen := (f 0xC 2).testBit 1
           flten := (f 0xC 2).testBit 2 }
  else none

/-- The descriptor at ASDESC. -/
def State.descriptor (s : State) (p : Nat) : Option ASpace :=
  let a := (s.part p).asdesc.toNat
  if s.partBytes p < a + 64 then none else aspaceOf (readList s.mem (partKey p a) 64)

/-- Replace an address space. -/
def State.setSpace (s : State) (p asid : Nat) (x : ASpace) : State :=
  s.setPart p { (s.part p) with aspaces := SMap.set {} (s.part p).aspaces asid x }

/-- ASCTL CREATE by the physical function. -/
def asctlCreate (asid : Nat) (p : Nat) (s : State) : Out :=
  let old := SMap.get {} (s.part p).aspaces asid
  if old.used then .next (s.asctlEnds p asid 1 1)
  else match if asid = 0 ∨ 65536 ≤ asid then none else s.descriptor p with
    | none => .next (s.asctlEnds p asid 1 2)
    | some x => .next ((s.setSpace p asid x).asctlEnds p asid 1 0)

/-- ASCTL UPDATE: the enable bits change at once; PTROOT and PASID for a range at a TLBINV of it that begins after the UPDATE. -/
def asctlUpdate (asid : Nat) (p : Nat) (s : State) : Out :=
  let old := SMap.get {} (s.part p).aspaces asid
  if !old.used then .next (s.asctlEnds p asid 2 1)
  else match s.descriptor p with
    | none => .next (s.asctlEnds p asid 2 2)
    | some x =>
      .next ((s.setSpace p asid { old with
        pgen := x.pgen
        heapen := x.heapen
        flten := x.flten
        nextRoot := some (x.ptroot, x.pasid)
        oldDrains := (s.drains.filter (fun d => d.1 == p && d.2.1 == asid)).length }).asctlEnds p asid 2 0)

/-- Whether a queue, an accepted command or a resident block of a partition names an address space. -/
def State.spaceNamed (s : State) (p asid : Nat) : Bool :=
  s.queues.any (fun q => q.2.st != .free && q.2.part == p && q.2.asid == asid) ||
  s.commands.any (fun c => c.2.part == p && c.2.asid == asid) ||
  s.cores.any (fun c => c.2.blocks.any (fun b => b.2.part == p && b.2.asid == asid))

/-- ASCTL DESTROY by the physical function. -/
def asctlDestroy (asid : Nat) (p : Nat) (s : State) : Out :=
  if !(SMap.get {} (s.part p).aspaces asid).used then .next (s.asctlEnds p asid 3 1)
  else if s.spaceNamed p asid then .next (s.asctlEnds p asid 3 3)
  else .next ((s.setSpace p asid {}).asctlEnds p asid 3 0)

/-- An ASCTL operation of a function: one on a space that the function does not reach reads STATUS 1, as on a space that does not exist.
R447 gives such an operation no status. MODEL'S CHOICE (assumption 55). -/
def State.asctlBy (s : State) (f asid op : Nat) (act : Nat → State → Out) : Out :=
  s.onPage f (fun p s => if reachesSpace f asid then act p s else .next (s.asctlEnds p asid op 1))

/-- ASCTL CREATE. -/
def execAsctlCreate (f asid : Nat) (s : State) : Out := s.asctlBy f asid 1 (asctlCreate asid)
/-- ASCTL UPDATE. -/
def execAsctlUpdate (f asid : Nat) (s : State) : Out := s.asctlBy f asid 2 (asctlUpdate asid)
/-- ASCTL DESTROY. -/
def execAsctlDestroy (f asid : Nat) (s : State) : Out := s.asctlBy f asid 3 (asctlDestroy asid)

/-! ## Commit pool (R222) -/

/-- POOLADD: a frame joins the pool; one that would overfill the ring, or that is no frame of device memory, is refused and counted, by the physical function. -/
def pooladd (val : Dword) (p : Nat) (s : State) : Out :=
  let x := s.part p
  let f := val.toNat
  if x.poolCap ≤ x.poolFree ∨ f % 65536 ≠ 0 ∨ s.partBytes p < f + 65536 then
    .next (s.setPart p { x with poolRefuse := bump x.poolRefuse })
  else .next (s.poolReturn p f)

/-- POOLADD: a frame joins the pool; one that would overfill the ring, or that is no frame of device memory, is refused and counted. -/
def execPooladd (f : Nat) (val : Dword) (s : State) : Out := s.onPage f (pooladd val)

/-! ## TLB invalidation (R221) -/

/-- Tiles of a TLBINV.CTL value. -/
def tlbinvTiles (v : Dword) : Nat := v.toNat % 2 ^ 32
/-- ASID of a TLBINV.CTL value. -/
def tlbinvAsid (v : Dword) : Nat := v.toNat / 2 ^ 32 % 65536

/-- TLBINV: a write of TLBINV.CTL starts an invalidation of the range that TLBINV.VA opens, by the physical function. -/
def tlbinv (val : Dword) (p : Nat) (s : State) : Out :=
  let x := s.part p
  let s1 := s.setPart p { x with tlbinvCtl := BitVec.ofNat 64 (val.toNat % 2 ^ 48) }
  .next { s1 with drains := s1.drains ++ [(p, tlbinvAsid val, x.tlbinvVa.toNat / 65536 * 65536, 65536 * tlbinvTiles val)] }

/-- TLBINV: a write of TLBINV.CTL starts an invalidation of the range that TLBINV.VA opens. -/
def execTlbinv (f : Nat) (val : Dword) (s : State) : Out := s.onPage f (fun p s => if reachesSpace f (tlbinvAsid val) then tlbinv val p s else .next s)

/-- Whether ranges of an operation hold a translation already made. -/
def translatedIn (l : List (EAddr × Nat)) : Bool := l.any (fun r => match r.1 with
  | .mem _ => true
  | _ => false)

/-- Whether a block of a core has an access translated and not yet performed. -/
def State.translatedAhead (s : State) (core blk : Nat) : Bool :=
  let c := s.core core
  c.requests.any (fun r => r.blk == blk && r.slot != 63) || c.tileq.any (fun o => o.blk == blk) ||
  c.copyq.any (fun o => o.blk == blk && (translatedIn o.reads || translatedIn o.writes)) ||
  c.matq.any (fun q => q.blk == blk && (match q.work with
    | .tfetch _ _ _ _ l => translatedIn l
    | _ => false)) ||
  s.unperformedBy core (c.writersOf blk) 4

/-- A range of the space goes on with the root and PASID of the latest UPDATE, where the invalidation that has drained began after it. -/
def ASpace.rooted (x : ASpace) (va n : Nat) : ASpace :=
  if x.oldDrains ≠ 0 then { x with oldDrains := x.oldDrains - 1 }
  else match x.nextRoot with
    | some r => { x with moved := (va, n, r) :: x.moved }
    | none => x

/-- TLBINV_COMPLETE: the oldest invalidation of a partition has drained: every access translated with an old entry has performed, the
entries go, and BUSY clears when no other is under way. -/
def execTlbinvComplete (p : Nat) (s : State) : Out :=
  match s.drains.find? (fun d => d.1 == p) with
  | none => .next s
  | some d =>
    let (_, asid, va, n) := d
    if s.cores.any (fun c => (s.part p).dies.contains (dieOf c.1) &&
        c.2.blocks.any (fun b => b.2.asid == asid && s.translatedAhead c.1 b.1)) then .next s
    else
      let s1 : State := { (s.shootdown p asid va n true) with drains := s.drains.erase d }
      .next (s1.setSpace p asid ((SMap.get {} (s1.part p).aspaces asid).rooted va n))

/-! ## FRESUME (R434) -/

/-- A write of FRESUME's ACTN resumes what its FAULTID names. -/
def State.fresume (s : State) (p : Nat) (fid : Word) (act : Nat) (v : Dword) : Out :=
  if s.resumeHeld fid act then .next s
  else match s.resume p fid act v with
  | none => .fault .absentMemory
  | some (status, s1) =>
    .next (s1.setPart p { (s1.part p) with
      fresumeId := fid
      fresumeAct := BitVec.ofNat 64 act
      fresumeSkip := v
      fresumeStatus := status })

/-- FRESUME, REPLAY. -/
def execFresumeReplay (f : Nat) (fid : Word) (s : State) : Out := s.onPage f (fun p s => s.fresume p fid 0 (s.part p).fresumeSkip)
/-- FRESUME, SKIP. -/
def execFresumeSkip (f : Nat) (fid : Word) (val : Dword) (s : State) : Out := s.onPage f (fun p s => s.fresume p fid 1 val)
/-- FRESUME, KILL. -/
def execFresumeKill (f : Nat) (fid : Word) (s : State) : Out := s.onPage f (fun p s => s.fresume p fid 2 (s.part p).fresumeSkip)

/-! ## Pre-emption requests (R439, R449) -/

/-- The launch of a partition that has started blocks, by the SEQ of its ACCEPTED record. -/
def State.gridOf (s : State) (p : Nat) (seq : Nat) : Option Nat :=
  (s.commands.find? (fun c => c.2.part == p && c.2.typ == 1 && c.2.acceptSeq == seq && c.2.started != 0)).map (·.1)

/-- Whether a pre-emption has saved a block of a launch: it has started and has not retired (R449). -/
def State.savedOf (s : State) (p id b : Nat) : Bool := (s.part p).saved.any (fun q => q.2.cmd == id && q.2.blocks.any (fun x => x.block.b == b))

/-- DEADLINE of a PREEMPT.CTL value. -/
def preemptDeadlineOf (v : Dword) : Nat := v.toNat % 2 ^ 25
/-- ONE. -/
def preemptOne (v : Dword) : Bool := v.getLsbD 32

/-- PREEMPT.CTL takes a value, and its STATUS; the blocks named wait for their save areas. -/
def State.preemptRequest (s : State) (p : Nat) (v : Dword) (status : Nat) (blocks : List (Nat × Nat)) : State :=
  let x := s.part p
  let new := blocks.filter (fun q => !x.preemptWait.any (fun w => w.1 == q.1 && w.2.1 == q.2))
  s.setPart p { x with
    preemptCtl := BitVec.ofNat 64 (preemptDeadlineOf v + (if preemptOne v then 2 ^ 32 else 0) + status * 2 ^ 60)
    preemptWait := x.preemptWait ++ new.map (fun q => (q.1, q.2, preemptDeadlineOf v)) }

/-- Whether a DEADLINE is in range. -/
def deadlineOk (v : Dword) : Bool := 1024 ≤ preemptDeadlineOf v && preemptDeadlineOf v ≤ 2 ^ 24

/-- PREEMPT.CTL with ONE clear: every started block of the grid, by the physical function. -/
def preemptGrid (val : Dword) (p : Nat) (s : State) : Out :=
  if preemptOne val then .next s
  else match s.gridOf p (s.part p).preemptGrid.toNat with
    | none => .next (s.preemptRequest p val 1 [])
    | some id => if deadlineOk val then .next (s.preemptRequest p val 0 (s.blocksOf id)) else .next (s.preemptRequest p val 2 [])

/-- PREEMPT.CTL with ONE clear: every started block of the grid. -/
def execPreemptGrid (f : Nat) (val : Dword) (s : State) : Out := s.onPage f (preemptGrid val)

/-- PREEMPT.CTL with ONE set: the block that PREEMPT.BLOCK names, with its gang, by the physical function. -/
def preemptBlock (val : Dword) (p : Nat) (s : State) : Out :=
  if !preemptOne val then .next s
  else match s.gridOf p (s.part p).preemptGrid.toNat with
    | none => .next (s.preemptRequest p val 1 [])
    | some id =>
      if !deadlineOk val then .next (s.preemptRequest p val 2 [])
      else match (s.blocksOf id).find? (fun q => ((s.core q.1).block q.2).b == (s.part p).preemptBlock.toNat) with
        | none => .next (s.preemptRequest p val (if s.savedOf p id (s.part p).preemptBlock.toNat then 0 else 3) [])
        | some q => .next (s.preemptRequest p val 0 (s.gangBlocks q.1 q.2))

/-- PREEMPT.CTL with ONE set: the block that PREEMPT.BLOCK names, with its gang. -/
def execPreemptBlock (f : Nat) (val : Dword) (s : State) : Out := s.onPage f (preemptBlock val)

/-! ## Power, save areas, rings (R338, R449, R457, R495) -/

/-- PWRBUDGET: [7:0] core, [15:8] die, [23:16] budget, by the physical function. -/
def pwrbudget (val : Dword) (p : Nat) (s : State) : Out :=
  let v := val.toNat % 2 ^ 24
  let core := 256 * (v / 256 % 256) + v % 256
  let b := v / 65536
  if b < 8 ∨ 16 < b ∨ !(s.part p).dies.contains (dieOf core) then .next s
  else
    let s1 := s.setCore core { (s.core core) with budget := b }
    .next (s1.setPart p { (s1.part p) with pwrbudget := BitVec.ofNat 64 v })

/-- PWRBUDGET: [7:0] core, [15:8] die, [23:16] budget. -/
def execPwrbudget (f : Nat) (val : Dword) (s : State) : Out := s.onPage f (pwrbudget val)

/-- CSAADD: a write of its size adds a save area to the pool, by the physical function. -/
def csaadd (val : Dword) (p : Nat) (s : State) : Out :=
  let x := s.part p
  if 4096 ≤ x.csa.length ∨ s.partBytes p < x.csaAddr.toNat + val.toNat then .next s
  else .next (s.setPart p { x with csa := x.csa ++ [(x.csaAddr.toNat, val.toNat)] })

/-- CSAADD: a write of its size adds a save area to the pool. -/
def execCsaadd (f : Nat) (val : Dword) (s : State) : Out := s.onPage f (csaadd val)

/-- How many fault records wait outside the rings. -/
def State.waitingFaults (s : State) : Nat :=
  (s.overflow.map (fun p => p.2.length)).foldl (· + ·) 0 + (s.cores.map (fun p => p.2.heldFaults.length)).foldl (· + ·) 0

/-- Write waiting fault records while the ring of a partition has room. -/
def State.drainAll (s : State) (p : Nat) : State := s.drainFaults p s.waitingFaults

/-- FQR_WRITE: the service frees records, by the physical function. -/
def fqrWrite (val : Dword) (p : Nat) (s : State) : Out :=
  let x := s.part p
  if val.toNat < x.fqr.toNat ∨ x.fqw.toNat < val.toNat then .next s
  else .next ((s.setPart p { x with fqr := val }).drainAll p)

/-- FQR_WRITE: the service frees records. -/
def execFqrWrite (f : Nat) (val : Dword) (s : State) : Out := s.onPage f (fqrWrite val)

/-- Whether a queue of a partition is ACTIVE. -/
def State.anyActive (s : State) (p : Nat) : Bool := s.queues.any (fun q => q.2.st == .active && q.2.part == p)

/-- FQBASE_WRITE, by the physical function. -/
def fqbaseWrite (val : Dword) (p : Nat) (s : State) : Out :=
  if s.anyActive p || val.toNat % 64 != 0 || decide (s.partBytes p ≤ val.toNat) then .next s
  else .next ((s.setPart p { (s.part p) with fqbase := val.toNat }).drainAll p)

/-- FQBASE_WRITE. -/
def execFqbaseWrite (f : Nat) (val : Dword) (s : State) : Out := if f < 4 then fqbaseWrite val f s else .next s

/-! ## Registers with no row of their own (R448, R449, R495) -/

/-- A write that keeps the old value when a queue is ACTIVE or the value breaks its row. -/
def State.guarded (s : State) (ok : Bool) (s1 : State) : State := if ok then s1 else s

/-- The core that PMCCORE selects, where it belongs to the partition. -/
def State.pmcTarget (s : State) (p : Nat) : Option Nat :=
  let v := (s.part p).pmccore
  let core := 256 * (v % 4) + v / 4
  if (s.part p).dies.contains (v % 4) then some core else none

/-- Change the performance counters of the selected core. -/
def State.pmcPut (s : State) (p : Nat) (f : Core → Core) : State :=
  match s.pmcTarget p with
  | some k => s.setCore k (f (s.core k))
  | none => s

/-- The offset at which the model numbers the registers of the debug port. -/
def debugPort : Nat := 0x10000

/-- Whether a QCTL value has an operation code that names none (R496). -/
def qctlUnknown (v : Nat) : Bool := !([1, 2, 3, 4].contains (v / 2 ^ 12 % 16))

/-- Whether an ASCTL value has an operation code that names none. -/
def asctlUnknown (v : Nat) : Bool := !([1, 2, 3].contains (v / 2 ^ 16 % 16))

/-- A write to a register by its offset; a QCTL operation code that names none is refused (R496). ASCTL reports one in its STATUS too (R495):
R450 gives it no status of its own, and the model gives that of a refused field. MODEL'S CHOICE (assumption 121). -/
def State.registerWrite (s : State) (p off : Nat) (val : Dword) : State :=
  let x := s.part p
  let v := val.toNat
  let free := !s.anyActive p
  let pa := fun (n : Nat) => v % n == 0 && decide (v < s.partBytes p)
  let put := fun (y : Partition) => s.setPart p y
  if off = 0x08 then (if qctlUnknown v then s.qctlEnds p (v % 4096) (v / 2 ^ 12 % 16) 5 0 else s)
  else if off = 0x18 then put { x with tlbinvVa := val }
  else if off = 0x40 then put { x with preemptGrid := val }
  else if off = 0x50 then put { x with preemptBlock := val }
  else if off = 0x110 then s.guarded (v % 4096 == 0) (put { x with jmirror := val })
  else if off = 0x128 then
    s.guarded (free && 6 ≤ v % 32 && v % 32 ≤ 16) ((put { x with fqlog := v % 32 }).drainAll p)
  else if off = 0x140 then s.guarded (free && pa 64) (put { x with chmbase := v })
  else if off = 0x148 then s.guarded (free && 6 ≤ v % 32 && v % 32 ≤ 16) (put { x with chmlog := v % 32 })
  else if off = 0x158 then s.guarded (x.chmr.toNat ≤ v && v ≤ x.chmw.toNat) (put { x with chmr := val })
  else if off = 0x160 then s.guarded (free && pa 4096) (put { x with qtbase := v })
  else if off = 0x168 then
    s.guarded free (put { x with
      qfirst := v % 4096
      qcount := v / 65536 % 4096 })
  else if off = 0x170 then s.guarded (free && pa 1) (put { x with poolbase := v })
  else if off = 0x178 then
    s.guarded (free && 8 ≤ v % 32 && v % 32 ≤ 24) (put { x with
      poolLog := v % 32
      lowwater := v / 2 ^ 32 })
  else if off = 0x180 then s.guarded (free && v % 2 ^ 21 == 0) (put { x with heapbase := v })
  else if off = 0x188 then s.guarded (free && v % 2 ^ 21 == 0) (put { x with heapsize := v })
  else if off = 0x190 then s.guarded (free && pa 1) (put { x with heaptab := v })
  else if off = 0x1A0 then s.guarded (pa 256) (put { x with csaAddr := val })
  else if off = 0x1C0 then (if asctlUnknown v then s.asctlEnds p (v % 65536) (v / 2 ^ 16 % 16) 2 else s)
  else if off = 0x1C8 then put { x with asdesc := val }
  else if off = 0x200 then put { x with pmccore := v % 1024 }
  else if off = 0x208 then s.pmcPut p (fun c => { c with pmctl := BitVec.ofNat 8 v })
  else if off = 0x210 then s.pmcPut p (fun c => { c with pmcsel := val })
  else if 0x240 ≤ off ∧ off < 0x280 ∧ off % 8 = 0 then
    s.pmcPut p (fun c => { c with pmc := SMap.set 0 c.pmc ((off - 0x240) / 8) val })
  else if off = debugPort + 0x10 then put { x with dbgpc := val }
  else if off = debugPort + 0x18 then s.guarded (pa 4096) (put { x with dbgring := v })
  else s

/-- The registers of a page that only a physical function's has (R449), and the debug port. -/
def pfOnly (off : Nat) : Bool :=
  [0x110, 0x120, 0x128, 0x140, 0x148, 0x160, 0x168, 0x170, 0x178, 0x180, 0x188, 0x190].contains off || decide (debugPort ≤ off)

/-- REGISTER_WRITE; a virtual function's write of a PF register is ignored (R449). -/
def execRegisterWrite (f off : Nat) (val : Dword) (s : State) : Out :=
  if 4 ≤ f ∧ pfOnly off then .next s else s.onPage f (fun p s => .next (s.registerWrite p off val))

/-! ## What registers read (R448, R449, R451) -/

/-- DEVSTATE. -/
def State.devstateReg (s : State) : Nat :=
  s.devstate + s.dieok.toNat * 2 ^ 4 +
  ((List.range 12).map (fun i => if (SMap.get {} s.links i).up then 2 ^ (8 + i) else 0)).foldl (· + ·) 0 +
  (if s.mfst then 2 ^ 20 else 0)

/-- A register of the page as it reads; a register that cannot be read gives 0. -/
def State.readRegister (s : State) (p off : Nat) : Dword :=
  let x := s.part p
  let n := fun (k : Nat) => BitVec.ofNat 64 k
  let pm := fun (f : Core → Dword) => match s.pmcTarget p with
    | some k => f (s.core k)
    | none => 0
  match off with
  | 0x000 => n s.devstateReg
  | 0x008 => x.qctl
  | 0x020 => x.tlbinvCtl ||| (if s.drains.any (fun d => d.1 == p) then n (2 ^ 63) else 0)
  | 0x028 => n x.fresumeStatus
  | 0x048 => x.pwrbudget
  | 0x058 => x.preemptCtl ||| (if x.preemptWait.isEmpty then 0 else n (2 ^ 63))
  | 0x080 => x.stalegen.setWidth 64
  | 0x088 => x.fqlost.setWidth 64
  | 0x090 => x.heapfail.setWidth 64
  | 0x098 => x.poolRefuse.setWidth 64
  | 0x0A0 => x.doorbellign.setWidth 64
  | 0x0A8 => x.chmlost.setWidth 64
  | 0x100 => n s.jhead
  | 0x108 => n s.jbase
  | 0x110 => x.jmirror
  | 0x120 => n x.fqbase
  | 0x128 => n x.fqlog
  | 0x130 => x.fqw
  | 0x138 => x.fqr
  | 0x140 => n x.chmbase
  | 0x148 => n x.chmlog
  | 0x150 => x.chmw
  | 0x158 => x.chmr
  | 0x160 => n x.qtbase
  | 0x168 => n (x.qfirst + x.qcount * 65536)
  | 0x170 => n x.poolbase
  | 0x178 => n (x.poolLog + x.lowwater * 2 ^ 32)
  | 0x180 => n x.heapbase
  | 0x188 => n x.heapsize
  | 0x190 => n x.heaptab
  | 0x1B0 => n (x.csa.length + x.csa.foldl (fun a q => max a q.2) 0 / 1024 * 2 ^ 32)
  | 0x1C0 => x.asctl
  | 0x1D0 => n (p + (x.dies.map (fun d => 2 ^ (4 + d))).foldl (· + ·) 0 + Nat.log2 s.parts.length * 2 ^ 8)
  | 0x200 => n x.pmccore
  | 0x208 => pm (fun c => c.pmctl.setWidth 64)
  | 0x210 => pm (fun c => c.pmcsel)
  | k => if 0x240 ≤ k ∧ k < 0x280 ∧ k % 8 = 0 then pm (fun c => SMap.get 0 c.pmc ((k - 0x240) / 8)) else 0

/-- A register of a function's page as it reads: a PF register reads zero through a virtual function's, and so does every register of a
function without a partition. -/
def State.readPage (s : State) (f off : Nat) : Dword :=
  if f < 4 then s.readRegister f off
  else match s.functionPart f with
    | none => 0
    | some p => if pfOnly off then 0 else (s.setPart p ((s.part p).withPage (SMap.get {} s.vfs (f - 4)))).readRegister p off

end Sys2Proof.Machine
end

