-- ==== Sys2Proof/Machine/Preempt.lean ====
section
/-!
DEFINITION. Pre-emption and restore (R32, R47, R323, R359, R408, R410, R427, R439 to R442).
-/

namespace Sys2Proof.Machine

/-! ## Sizes (R441) -/

/-- Round up to a multiple of 64. -/
def pad64 (n : Nat) : Nat := (n + 63) / 64 * 64
/-- Round up to a multiple of 256. -/
def pad256 (n : Nat) : Nat := (n + 255) / 256 * 256
/-- The sum of a list. -/
def total (l : List Nat) : Nat := l.foldl (· + ·) 0

/-- The most bytes that the KIND 2 image of a placed image can take (R410). -/
def imageNeed (i : List Byte) : Nat := imEnd i + 2048 * imElems i + 512 * imNodes i + 3136

/-- The open barrier records of a block. -/
def Core.barsOf (c : Core) (blk : Nat) : List BarRec := c.bars.filter (fun r => r.blk == blk)
/-- The reservations of a block. -/
def Core.resvOfBlock (c : Core) (blk : Nat) : List Resv := c.resv.filter (fun r => r.blk == blk)
/-- The tiles that a block has claimed. -/
def Core.tilesOf (c : Core) (blk : Nat) : List Nat := (c.claims.filter (fun p => p.2 == blk + 1)).map (·.1)
/-- The copy operations of a block. -/
def Core.copiesOf (c : Core) (blk : Nat) : List CopyOp := c.copyq.filter (fun o => o.blk == blk)
/-- The placed images of a block with their numbers. -/
def Core.placedIn (c : Core) (blk : Nat) : List (Nat × Placed) := c.placed.filter (fun p => p.2.blk == blk)

/-- The most bytes that the save area of a block can take. -/
def State.areaNeed (s : State) (core blk : Nat) : Nat :=
  let c := s.core core
  let b := c.block blk
  total ([64, 768 * b.slots.length, (4 * b.kd.regs + 48) * b.live.length, b.scratchBytes, 32 * b.n * b.kd.lane,
    192 * (c.barsOf blk).length + 144 * b.gsets.length, 512, 48 * (c.windowsOf blk).length,
    total ((c.resvOfBlock blk).map (fun r => 32 + r.len)) + 16400 * (c.tilesOf blk).length, 64 * (c.copiesOf blk).length, 24,
    total ((c.placedIn blk).map (fun p => imageNeed p.2.image))].map pad64)

/-! ## The request and its deadline (R439, R440, R47) -/

/-- The deadline of a request that names a block and has not been answered. -/
def Partition.awaits (p : Partition) (core blk : Nat) : Option Nat :=
  (p.preemptWait.find? (fun (q : Nat × Nat × Nat) => q.1 == core && q.2.1 == blk)).map (fun (q : Nat × Nat × Nat) => q.2.2)

/-- A request reaches a block: it issues nothing more, and its streaming copies damp. -/
def State.preemptTake (s : State) (core blk : Nat) (r : Preempt) : State :=
  let c := s.core core
  let c1 := (c.streaming blk).foldl (fun (c : Core) q => c.dampNext q.1 .preempt) c
  s.setCore core (c1.setBlock blk { (c1.block blk) with preempt := some r })

/-- PREEMPT_ARRIVE: a save area is taken for the block, or for its whole gang, whose blocks the request reaches together; while the pool has
none large enough, the request waits. -/
def execPreemptArrive (core blk : Nat) (s : State) : Out :=
  let c := s.core core
  let b := c.block blk
  let p := s.part b.part
  if !c.hasBlock blk || b.preempt.isSome then .next s
  else match p.awaits core blk with
    | none => .next s
    | some deadline =>
      let gang := s.gangBlocks core blk
      let own := pad256 ((gang.map (fun q => s.areaNeed q.1 q.2)).foldl max 0)
      let dir := if b.gangLaunch then pad256 (16 * b.gangSize) else 0
      match p.csa.find? (fun a => decide (dir + own * b.gangSize ≤ a.2)) with
      | none => .next s
      | some a =>
        let s1 := s.setPart b.part { p with csa := p.csa.erase a }
        .next (gang.foldl (fun s q => s.preemptTake q.1 q.2
          { deadline, area := a.1, size := a.2, ofs := dir + own * ((s.core q.1).block q.2).rank, own, expired := false }) s1)

/-- A placed image freezes: a damp under way is abandoned, while an exit stands. Reads that have not performed are issued again after it, and
return nothing older (R410). -/
def Placed.freeze (p : Placed) : Placed := { p with
  frozen := true
  nodes := p.nodes.map (fun q => (q.1, { q.2 with past := [] }))
  copy := p.copy.map (fun (q : Copy) => if q.exitIter.isSome then q else { q with
    damp := none
    leaving := none }) }

/-- PREEMPT_DEADLINE: the images of the block that still stream or run freeze, and their probes end (R369). Each is a freeze of event 0x07
(R47, R49, R426). -/
def execPreemptDeadline (core blk : Nat) (s : State) : Out :=
  let c := s.core core
  let b := c.block blk
  match b.preempt with
  | none => .next s
  | some r =>
    if r.expired then .next s
    else
      let l := (c.placedIn blk).filter (fun p => p.2.region != some .loading)
      let c1 := l.foldl (fun (c : Core) p => (c.setPlaced p.1 p.2.freeze).cancelProbe p.1) c
      let c2 := c1.count 7 (l.filter (fun p => p.2.copy.isSome || p.2.region == some .running)).length
      .next (s.setCore core (c2.setBlock blk { b with preempt := some { r with expired := true } }))

/-! ## When a block can be saved (R440, R323, R359) -/

/-- Whether a placed image holds its block no longer: it neither streams, nor runs, nor loads, or it is frozen. -/
def Placed.still (p : Placed) : Bool := p.frozen || (p.copy.isNone && p.region != some .loading && p.region != some .running)

/-- Whether the matrix entries of a block have completed, but for a drain that stalls at a frozen region and what waits behind it. -/
def Core.matStill (c : Core) (blk : Nat) (r : Preempt) : Bool :=
  match c.matq.find? (fun q => q.blk == blk) with
  | none => true
  | some q => r.expired && q.work.isDrainC && c.drainBlocked blk

/-- Whether a group waits for an access in flight. -/
def GState.inFlight : GState → Bool
  | .waiting (.translation _) | .waiting .reply => true
  | _ => false

/-- Whether everything in flight of a block has completed or been suspended. -/
def State.stillBlock (s : State) (core blk : Nat) (r : Preempt) : Bool :=
  let c := s.core core
  let b := c.block blk
  let imgs := c.placedIn blk
  b.flushHold.isNone && imgs.all (fun p => p.2.still) &&
  c.hops.all (fun h => match h.1 with
    | .chan e _ => imgs.all (fun p => p.1 + 1 != (c.elem e).owner)
    | .port q _ _ => imgs.all (fun p => p.1 != q)) &&
  (c.copiesOf blk).all (fun o => o.susp.isSome) && c.tileq.all (fun o => o.blk != blk) && c.matStill blk r && b.tokens.isEmpty &&
  !s.unperformedBy core (c.writersOf blk) 4 && c.requests.all (fun q => q.blk != blk || q.slot == 63) && b.slots.all (fun i => !(c.group i).st.inFlight && (c.group i).answer.isNone) &&
  (s.gangBlocks core blk).all (fun q => ((s.core q.1).block q.2).preempt.isSome)

/-! ## Bytes of a save area (R441) -/

/-- The bytes of values, each with its size. -/
def packed (l : List (Nat × Nat)) : List Byte := l.flatMap (fun p => bytesOf p.2 p.1)

/-- Bytes whose places R441 does not give. -/
def freeBytes (tick sec n : Nat) : List Byte := (List.range n).map (Config.areaByte tick sec)

/-- The code of a wait reason. -/
def waitCode : GState → Nat
  | .waiting (.bar _) => 1
  | .waiting (.gbar _) => 2
  | .waiting (.cpywait _) => 3
  | .waiting .mtwait => 4
  | .waiting (.mwait _ _) => 5
  | .waiting (.fxwait _) => 6
  | .waiting .join => 7
  | .waiting .regroup => 8
  | _ => 0

/-- The order of R373's list of STATE. -/
def GState.index : GState → Nat
  | .free => 0
  | .reserved => 1
  | .running => 2
  | .waiting _ => 3
  | .suspended _ => 4
  | .streaming => 5
  | .halted => 6
  | .ended => 7

/-- The words of a sparse map from key 0. -/
def wordsOf (m : SMap Word) (n : Nat) : List (Nat × Nat) := (List.range n).map (fun i => ((SMap.get 0 m i).toNat, 4))

/-- The group record of a slot, the `rank`-th of its block. -/
def groupRecord (g : Group) (rank : Nat) : List Byte :=
  packed ([((Config.areaCode 0 g.st.index).toNat, 1), (waitCode g.st, 1), (g.blk, 1), (g.home.getD 0xFF, 1), (g.skip, 1),
    (if g.rkmix then 1 else 0, 1), (g.mtc.toNat, 1), (g.faults.toNat, 1), (g.pc.toNat, 8), (g.m.toNat, 4), (g.exitm.toNat, 4), (rank, 4),
    (g.stack.length, 4), (match g.st with
      | .suspended fid => fid.toNat
      | _ => 0, 4), (0, 4), (g.trapbase.toNat, 8), (g.trapN.toNat, 4), (g.trapRet.toNat, 8), (g.loopcfg.toNat, 4)] ++
    wordsOf g.faultinfo 6 ++ [(g.clockhi.toNat, 8), (g.loopH.toNat, 8), (g.loopCount.toNat, 4), (g.armPoint.toNat, 4),
    (g.hintHead.toNat, 8), (g.hintT.toNat, 1), (if g.hintValid then 1 else 0, 1), (0, 6)] ++
    (List.range 8).map (fun i => ((SMap.get 0 g.tg i).toNat, 2)) ++ [(0, 16)] ++ wordsOf g.k 64) ++
  (let l := g.stack.reverse.flatMap (fun e => packed [(e.pc.toNat, 8), (e.mask.toNat, 4),
      ((Config.areaCode 1 (if e.rcv then 1 else 0)).toNat, 1), (0, 3)])
   l ++ List.replicate (256 - l.length) 0) ++ List.replicate 96 0

/-- Bytes cut or filled with zeros to a size. -/
def sized (n : Nat) (l : List Byte) : List Byte := l.take n ++ List.replicate (n - l.length) 0

/-- The word with some bits set. -/
def bitSet (l : List Nat) : Nat := total (l.eraseDups.map (2 ^ ·))

/-! R441 names the fields of the records that follow and not their places: each holds its fields in the order in which R412, R384, R306 and R341
name them, and then zeros. MODEL'S CHOICE (assumption 16). -/

/-- The record of a live thread: after SRSEED, the predicates, LIVE, RKEY, slot and lane. -/
def threadRecord (c : Core) (regs : Nat) (q : ThreadPos) : List Byte :=
  let g := c.group q.slot
  packed ((List.range regs).map (fun i => ((SMap.get 0 g.v (32 * i + q.lane)).toNat, 4)) ++
    (List.range 8).map (fun i => ((SMap.get 0 g.w (32 * i + q.lane)).toNat, 4)) ++
    [((SMap.get 0 g.amax q.lane).toNat, 4), ((SMap.get 0 g.srseed q.lane).toNat, 2),
      (bitSet ((List.range 7).filter (fun i => (SMap.get 0 g.p i).getLsbD q.lane)), 1), (if q.live then 1 else 0, 1),
      ((SMap.get 0 g.rkey q.lane).toNat, 4), (q.slot, 1), (q.lane, 1), (0, 2)])

/-- The record of an open barrier, with the block's BPH and GPH. -/
def barRecord (b : Block) (r : BarRec) : List Byte :=
  sized 192 (packed [(r.blk, 1), (r.name, 1), (if r.explicit then 1 else 0, 1), (0, 1), (r.expect, 2), (r.arrived.length, 2), (bitSet r.arrived, 128),
    (bitSet r.waiters, 5), (0, 3), (b.bph.toNat, 16), (b.gph.toNat, 2)])
/-- The record of an open gang arrival set. -/
def gsetRecord (b : Block) (q : GangSet) : List Byte :=
  sized 144 (packed [(q.name, 1), (if q.full then 1 else 0, 1), (0, 2), (bitSet q.arrived, 128), (bitSet q.waiters, 5), (0, 1), (b.gph.toNat, 2)])
/-- The record of a convergence register, with its open signatures. -/
def cvRecord (v : Cv) : List Byte :=
  sized 32 (packed [(v.decl, 1), (v.signers.length, 1), (0, 2), (bitSet v.signers, 5), (if v.sparse then 1 else 0, 1), (v.d, 1), (v.a, 1), (v.b, 1),
    (0, 1), (v.m.toNat, 2)])
/-- The record of a bound window. -/
def windowRecord (w : Window) : List Byte :=
  sized 48 (packed [(w.name, 1), (w.mode, 1), (0, 2), (w.sb, 4), (w.va.toNat, 8), (w.e0, 2), (w.e1, 2), (w.e2, 2), (w.lesz, 1), (0, 1),
    ((BitVec.ofInt 32 w.s1).toNat, 4), ((BitVec.ofInt 32 w.s2).toNat, 4)])
/-- The record of a reservation. -/
def resvRecord (r : Resv) : List Byte :=
  sized 32 (packed [(r.blk, 1), (r.name, 1), (r.fmt, 1), ((if r.scaled then 1 else 0) + (if r.sparse then 2 else 0), 1), (r.off, 4), (r.len, 4),
    (r.rows, 2), (r.klen, 2), (r.sofs, 4)])
/-- The record of a claimed tile: its drain progress. -/
def tileRecord (c : Core) (t : Nat) : List Byte := sized 16 (packed [(t, 1), (0, 1), (SMap.get 0 c.drain t, 2)])
/-- The record of a suspended operation: its tag, the next 256-byte piece, SEQ and the rest of its fault record. -/
def engineRecord (o : CopyOp) : List Byte :=
  sized 64 (packed ([(o.slot, 1), (o.tag, 1), (if o.peer then 1 else 0, 1), (0, 1), (o.done / 256, 4), (o.pc.toNat, 8)] ++ (match o.susp with
    | some u => [(u.seq.toNat, 8), (u.fid.toNat, 4), (u.cause, 2), (u.sub, 2), (u.addr.toNat, 8), (u.detail.toNat, 8), (u.lmask.toNat, 4)]
    | none => [])))

/-- A section begins on a 64-byte boundary. -/
def addSection (tick : Nat) (l sec : List Byte) : List Byte := l ++ freeBytes tick (2 ^ 16 + l.length) (pad64 l.length - l.length) ++ sec

/-- Replace bytes of a list. -/
def patch (l : List Byte) (o : Nat) (r : List Byte) : List Byte := l.take o ++ r ++ l.drop (o + r.length)

/-- Write the CRC of bytes into a field of 4 bytes that the CRC reads as zero. -/
def sealed (l : List Byte) (o : Nat) : List Byte :=
  let z := patch l o [0, 0, 0, 0]
  patch z o (bytesOf 4 (crc32 z))

/-! ### Frozen images (R410) -/

/-- A frozen record. -/
def frozenRec (typ x y sub : Nat) (l : List Byte) : List Byte := packed [(typ, 1), (x, 1), (y, 1), (sub, 1), (l.length, 4)] ++ l

/-- A token of 36 bytes. -/
def tokenBytes (t : Token) : List Byte := packed ((t.hdr.toNat, 4) :: (List.range 8).map (fun l => ((t.lane l).toNat, 4)))

/-- The records of an element of the frame; ep7 reads 1 (R182). -/
def elemRecords (x y : Nat) (e : Element) : List Byte :=
  (List.range 4).flatMap (fun n =>
    let h := SMap.get {} e.chans n
    frozenRec 1 x y n (packed [(h.q.length, 1), (h.sct, 1), (0, 2)] ++ h.q.flatMap tokenBytes)) ++
  (List.range 4).flatMap (fun n =>
    let t := SMap.get {} e.ctxs n
    frozenRec 2 x y n (packed (wordsOf t.d 64 ++ (List.range 8).map (fun l =>
        (total ((List.range 8).map (fun q => if (t.pred q).getLsbD l then 2 ^ q else 0)), 1)) ++
      [(t.hdr.toNat, 4)] ++ wordsOf t.accv 8 ++
      [(t.ecnt, 1), (if t.ardy then 1 else 0, 1), (t.tcnt, 1), (0, 1), (t.ahdr.toNat, 4), (t.amx.toNat, 4), (t.ccnt.toNat, 4)]))) ++
  frozenRec 3 x y 0 (packed ([(e.ptr, 1), (0, 1), (e.mlast.toNat, 2)] ++ (List.range 16).map (fun n => (SMap.get 0 e.wcount n, 4))))

/-- The record of a node. -/
def nodeRecord (c : Core) (blk r : Nat) (d : Node) : List Byte :=
  frozenRec 4 0xFF r d.kind (match d.kind with
    | 1 => packed [(max d.in0.length (max d.in1.length d.in2.length), 4)] ++ (d.in0 ++ d.in1 ++ d.in2).flatMap tokenBytes
    | 3 => packed ((List.range 4).map (fun n => (d.pos.getD n 0, 2)) ++ [(d.round, 4)]) ++
        (match d.in0 with
         | t :: _ => tokenBytes t ++ packed [(1, 4)]
         | [] => packed [(0, 36), (0, 4)])
    | 4 =>
      let t := ((c.matq.find? (fun q => q.blk == blk && q.work.isDrainC)).bind (fun q => q.work.tile)).getD 0
      packed [(t, 1), (SMap.get 0 c.drain t, 2)]
    | _ => packed [(d.completions, 2)])

/-- The record of the group that a copy serves. -/
def copyRecord (c : Core) (i : List Byte) (q : Copy) : List Byte :=
  frozenRec 5 0 0 q.gidx (packed ([((c.group q.slot).home.getD 0xFF, 1), (0, 3), (q.oldest.toNat, 4), (q.inflight, 1), (q.permits, 1), (0, 2),
    (q.exited.toNat, 4)] ++ (List.range (imLive i)).flatMap (fun r =>
      let code := match opndOfCode (BitVec.ofNat 10 (liveField i r % 1024)) with
        | some (.v n) => n.toNat
        | some (.w n) => 0x100 + n.toNat
        | some (.p n) => 0x110 + n.toNat
        | _ => 0
      (List.range 32).map (fun l => ((SMap.get 0 q.committed (32 * code + l)).toNat, 4)))))

/-- The elements of a placed image with their place from its origin. -/
def Core.framed (c : Core) (pi : Nat) (p : Placed) : List (Nat × Element) :=
  (c.elems.filter (fun q => q.2.owner == pi + 1)).map (fun q => (q.1 - (8 * p.y0 + p.x0), q.2))

/-- The KIND 2 image of a placed image. -/
def Core.frozenImage (c : Core) (pi : Nat) (p : Placed) : List Byte :=
  let l := (p.image.take (imEnd p.image)) ++ (c.framed pi p).flatMap (fun q => elemRecords (q.1 % 8) (q.1 / 8) q.2) ++
    p.nodes.flatMap (fun q => nodeRecord c p.blk q.1 q.2) ++ (match p.copy with
      | some q => copyRecord c p.image q
      | none => [])
  sealed (patch (patch l 6 [2]) 0x28 (bytesOf 4 l.length)) 0x2C

/-! ### The area of a block -/

/-- Bytes of the local memory of a block: the scratchpad allocation. -/
def Core.scratchOf (c : Core) (b : Block) : List Byte := readList c.scratch b.sbase b.scratchBytes

/-- Lane private bytes of a block, from LBASE, by physical lane. -/
def Core.laneOf (c : Core) (b : Block) : SMap Byte :=
  (c.laneMem.filter (fun p => decide (b.lbase ≤ p.1 % 2048) && decide (p.1 % 2048 < b.lbase + b.n * b.kd.lane))).map
    (fun p => (p.1 - b.lbase, p.2))

/-- Words of a tile. -/
def Core.tileWords (c : Core) (t : Nat) : List Word := (List.range 4096).map (fun i => SMap.get 0 c.acc (4096 * t + i))

/-- The save area of a block. -/
def State.areaBytes (s : State) (core blk : Nat) : List Byte :=
  let c := s.core core
  let b := c.block blk
  let imgs := c.placedIn blk
  let head := fun size => packed [(0x41534346, 4), (2, 2),
    ((if b.gangLaunch then 1 else 0) + (if b.regrouped then 2 else 0) + (if imgs.isEmpty then 0 else 4), 2), (b.gridseq, 8), (b.b, 8), (b.n, 1),
    (b.h, 1), (b.slots.length, 1), ((imgs.filter (fun p => p.2.region.isSome)).length, 1), (b.kd.va.toNat, 8), (size, 4), (0, 4), (0, 20)]
  let l := [
    b.slots.zipIdx.flatMap (fun q => groupRecord (c.group q.1) q.2),
    (b.threads.filter (fun p => p.2.live)).flatMap (fun p => threadRecord c b.kd.regs p.2),
    c.scratchOf b,
    (List.range (32 * b.n)).flatMap (fun t => (List.range b.kd.lane).map (fun i =>
      SMap.get 0 c.laneMem (2048 * (t % 32) + b.lbase + t / 32 * b.kd.lane + i))),
    (c.barsOf blk).flatMap (barRecord b) ++ b.gsets.flatMap (gsetRecord b),
    (List.range 16).flatMap (fun n => cvRecord (SMap.get {} b.cvs n)),
    (c.windowsOf blk).flatMap windowRecord,
    (c.resvOfBlock blk).flatMap (fun r => resvRecord r ++ readList c.opbuf r.off r.len) ++
      (c.tilesOf blk).flatMap (fun t => tileRecord c t ++ packed ((c.tileWords t).map (fun w => (w.toNat, 4)))),
    (c.copiesOf blk).flatMap engineRecord,
    packed [(b.satn, 8), (b.nann, 8), (b.skipn, 8)],
    imgs.flatMap (fun p => c.frozenImage p.1 p.2)].foldl (addSection s.tick) (head 0)
  sealed (patch l 36 (bytesOf 4 l.length)) 40

/-! ## Saving (R440, R441) -/

/-- A saved TFETCH keeps no translation: its pages translate again after the restore (R221, R226; assumption 115). -/
def MatEntry.untranslated (q : MatEntry) : MatEntry :=
  match q.work with
  | .tfetch ob off n va _ => { q with work := .tfetch ob off n va [(.gl va, n)] }
  | _ => q

/-- What a block takes with it. -/
def Core.savedBlock (c : Core) (blk : Nat) (r : Preempt) (size : Nat) : SavedBlock :=
  let b := c.block blk
  { block := b
    groups := b.slots.map (fun i => (i, c.group i))
    scratch := c.scratchOf b
    laneMem := c.laneOf b
    bars := c.barsOf blk
    windows := c.windowsOf blk
    resv := (c.resvOfBlock blk).map (fun v => (v, readList c.opbuf v.off v.len))
    tiles := (c.tilesOf blk).map (fun t => (t, SMap.get 0 c.drain t, c.tileWords t))
    matq := (c.matq.filter (fun q => q.blk == blk)).map (·.untranslated)
    copies := c.copiesOf blk
    placed := c.placedIn blk
    elems := (c.placedIn blk).flatMap (fun p => (c.framed p.1 p.2).map (fun q => (p.1, q.1, q.2)))
    ofs := r.ofs
    size }

/-- How the write of a placement entry ends. -/
inductive AreaWrite where
  | ok (s : State)
  | wait

/-- Change GEN of a directory entry, and more of its bytes: the first write of GEN leaves it odd, also behind a write that was abandoned, and the
last leaves it even, so that a slot is refused only until a later write completes (R408). DEDUCED (assumption 119). -/
def dirBytes (d : List Byte) (state : Option Nat) (size hash : Option Nat) : List Byte :=
  let old := natOf (d.drop 12)
  let g := (old + (if state.isNone && old % 2 == 1 then 2 else 1)) % 2 ^ 32
  (match state with
   | some v => bytesOf 1 v ++ (d.drop 1).take 3
   | none => d.take 4) ++
  (match size with
   | some v => bytesOf 4 v
   | none => (d.drop 4).take 4) ++
  (match hash with
   | some v => bytesOf 4 v
   | none => (d.drop 8).take 4) ++ bytesOf 4 g

/-- An entry of the placement cache is written to its slot of the kernel's placement area (R408); one that cannot be translated or performed
is abandoned. -/
def State.areaEntry (s : State) (b : Block) (o : CodeObj) (k : PlaceKey) (i : List Byte) : AreaWrite :=
  let n := k.hash % o.nplace
  let area := o.base.toNat + o.placeofs
  match s.hubReach b.part b.asid .read (area + 16 * n) 16, s.hubReach b.part b.asid .write (area + 16 * n) 16 with
  | .wait, _ | _, .wait => .wait
  | .ok r, .ok w =>
    let d := s.hubBytes r
    let s1 := s.hubPut w (dirBytes d none none none)
    match s.hubReach b.part b.asid .write (area + 512 + 16384 * n) i.length with
    | .wait => .wait
    | .ok l =>
      let s2 := s1.hubPut l i
      .ok (s2.hubPut w (dirBytes (dirBytes d none none none) (some 1) (some i.length) (some k.hash)))
    | _ => .ok s1
  | _, _ => .ok s

/-- Every captured-loop entry of a block's kernel is written. -/
def State.areaEntries (s : State) (b : Block) (o : CodeObj) : List CacheEntry → AreaWrite
  | [] => .ok s
  | e :: r =>
    match e.image with
    | some i =>
      match s.areaEntry b o ⟨e.objid, e.headofs, e.layhash, e.k⟩ i with
      | .ok s1 => State.areaEntries s1 b o r
      | .wait => .wait
    | none => State.areaEntries s b o r

/-- The placement entries of a block's kernel go to its placement area. -/
def State.savePlacements (s : State) (core blk : Nat) : AreaWrite :=
  let c := s.core core
  let b := c.block blk
  match (s.part b.part).objectHolding b.asid b.kd.va.toNat with
  | some o =>
    if o.nplace = 0 ∨ o.st ≠ 2 then .ok s
    else s.areaEntries b o (c.cache.filter (fun e => e.objid == o.objid && e.layhash == b.kd.layhash))
  | none => .ok s

/-- Whether the bytes that a block saves hold a poisoned word (R304): its address. -/
def State.poisonedOf (s : State) (core : Nat) (b : Block) : Option Nat :=
  let sp := spKey core b.sbase
  s.poisoned.find? (fun w => (decide (sp ≤ w) && decide (w < sp + b.scratchBytes)) || (List.range 32).any (fun h =>
    let l := laneWordKey core (2048 * h + b.lbase)
    decide (l ≤ w) && decide (w < l + b.n * b.kd.lane)))

/-- The lowest number that no saved entry has. -/
def Partition.freeSaved (p : Partition) : Nat :=
  ((List.range (p.saved.length + 1)).find? (fun n => !p.saved.any (fun q => q.1 == n))).getD 0

/-- Keep a saved block: with its gang where a block of it is saved already, and with the gang's barrier records. -/
def State.keepSaved (s : State) (core blk : Nat) (r : Preempt) (x : SavedBlock) : State :=
  let b := (s.core core).block blk
  let p := s.part b.part
  let d := dieOf core
  let mine := fun (q : GangRec) => q.cmd == b.cmd && q.gang == b.gang && b.gangLaunch
  let recs := SMap.get [] s.gangs d
  let (n, old) : Nat × Saved := match if b.gangLaunch then (p.savedGang b.cmd b.gang).head? else none with
    | some n => (n, SMap.get {} p.saved n)
    | none => (p.freeSaved, { die := d, cmd := b.cmd, area := r.area, size := r.size })
  let new : Saved := { old with
    blocks := old.blocks ++ [x]
    gangs := old.gangs ++ recs.filter mine }
  let s1 := s.setPart b.part { p with saved := SMap.set {} p.saved n new }
  let s2 : State := { s1 with gangs := SMap.set [] s1.gangs d (recs.filter (fun q => !mine q)) }
  if b.gangLaunch && (s2.gangBlocks core blk).length == 1 then
    s2.hubWrite (partKey b.part r.area) ((List.range b.gangSize).flatMap (fun k =>
      match new.blocks.find? (fun q => q.block.rank == k) with
      | some q => packed [(q.ofs, 8), (q.size, 8)]
      | none => packed [(0, 16)]))
  else s2

/-- The block has been saved: it leaves its core without a chime record, unfinished. -/
def State.departSaved (s : State) (core blk : Nat) : State :=
  let c := s.core core
  let b := c.block blk
  let ops := (c.copiesOf blk).map (·.id) ++ (c.matq.filter (fun q => q.blk == blk)).map (·.id)
  let s1 := (s.releaseClaims core ops).unregister core ((c.windowsOf blk).map (·.wid))
  ((s1.setCore core ((s1.core core).freeBlock blk true)).unpoison core b).unawait b.part core blk

/-- BLOCK_SAVE; a held arrival of another gang binds a gang barrier record that the save frees (R419). -/
def execBlockSave (core blk : Nat) (s : State) : Out :=
  let b := (s.core core).block blk
  match b.preempt with
  | none => .next s
  | some r =>
    if !s.stillBlock core blk r then .next s
    else match s.flushBlock core blk with
      | .absent => .fault .absentMemory
      | .held s1 | .wait s1 => .next s1
      | .done s1 =>
        if s1.unperformed core b 4 then .next s1
        else match s1.poisonedOf core b with
          | some k => .next (s1.blockFatal core blk 0x41 0 (keyPa k))
          | none => match s1.savePlacements core blk with
            | .wait => .next s1
            | .ok s2 =>
              let l := s2.areaBytes core blk
              let s3 := ({ s2 with tick := s2.tick + 1 }).hubWrite (partKey b.part (r.area + r.ofs)) l
              .next (((s3.keepSaved core blk r ((s3.core core).savedBlock blk r l.length)).departSaved core blk).gangSettle (dieOf core) 64)

/-! ## Breakpoints in bodies that stream (R445) -/

/-- Whether a debugger is attached to a partition. -/
def Partition.attached (p : Partition) : Bool := p.dbgctl.getLsbD 0

/-- The copies of a core that stream a body of a partition's code with the word at an address in it. -/
def Core.streamsAt (c : Core) (part va : Nat) : List Nat :=
  c.placed.filterMap (fun p => match p.2.copy with
    | some q => if (c.block p.2.blk).part == part && !p.2.frozen && decide (q.head.toNat ≤ va) && decide (va < q.head.toNat + 8 * q.body.length)
        then some p.1 else none
    | none => none)

/-- An enabled breakpoint damps every group that streams its word's body, at the first iteration not yet admitted (R445). -/
def State.breakDamp (s : State) (p va : Nat) : State :=
  s.mapCores (fun k c =>
    if (s.part p).dies.contains (dieOf k) then (c.streamsAt p va).foldl (fun (c : Core) i => c.dampNext i .breakpoint) c else c)

/-- The word VA of a breakpoint register. -/
def bpVa (v : Dword) : Nat := v.toNat / 8 * 8

/-- Every enabled breakpoint of an attached debugger acts on the copies that stream. -/
def State.breakDamps (s : State) (p : Nat) : State :=
  let x := s.part p
  if x.attached then (x.dbgbp.filter (fun q => q.2.getLsbD 0)).foldl (fun (s : State) q => s.breakDamp p (bpVa q.2)) s else s

/-! ## Restore (R442, R398) -/

/-- Where the parts of a saved block go on its new core. -/
structure Remap where
  blk : Nat
  order : Nat
  /-- old slot and new slot -/
  slots : List (Nat × Nat)
  /-- added to the number of an operation -/
  ops : Nat

/-- The new slot of a group. -/
def Remap.slot (m : Remap) (i : Nat) : Nat := ((m.slots.find? (fun (q : Nat × Nat) => q.1 == i)).map (·.2)).getD i

/-- A saved group: y is invalid (R76). -/
def Remap.group (m : Remap) (g : Group) : Group :=
  { g with
    blk := m.blk
    age := m.order
    y0v := false
    y1v := false
    flushing := false
    ibuf := []
    st := match g.st with
      | .waiting (.mwait ids cvs) => .waiting (.mwait (ids.map (· + m.ops)) cvs)
      | st => st }

/-- A saved block at its new bases. -/
def Remap.block (m : Remap) (b : Block) (x : Site) : Block :=
  { b with
    order := m.order
    hslot := b.hslot.map m.slot
    slots := b.slots.map m.slot
    rdv := b.rdv.map (fun (r : Rdv) => { r with arrived := r.arrived.map m.slot })
    sbase := x.sbase
    lbase := x.lbase
    threads := (b.threads.map (fun (p : Nat × ThreadPos) => (p.1, { p.2 with slot := m.slot p.2.slot }))).filter (fun p => p.2 != {})
    gsets := b.gsets.map (fun (q : GangSet) => { q with waiters := q.waiters.map m.slot })
    cvs := b.cvs.map (fun (p : Nat × Cv) => (p.1, { p.2 with signers := p.2.signers.map m.slot }))
    preempt := none }

/-- Free window identifiers of a core. -/
def Core.freeWids (c : Core) : List Nat := (List.range 16).filter (fun i => !c.windows.any (fun w => w.wid == i))

/-- Reservations take free ranges of the operand buffer, with their contents. -/
def Core.reserveAll (c : Core) (blk : Nat) : List (Resv × List Byte) → Option Core
  | [] => some c
  | (v, l) :: r => match c.obFree v.len with
    | none => none
    | some o => Core.reserveAll { c with
        resv := c.resv ++ [{ v with
          blk
          off := o }]
        opbuf := writeList c.opbuf o l } blk r

/-- Frozen images take elements and nodes, and go on from what they held (R410). -/
def Core.thaw (c : Core) (m : Remap) (elems : List (Nat × Nat × Element)) : List (Nat × Placed) → Option Core
  | [] => some c
  | (old, p) :: r => match c.origin p.image with
    | none => none
    | some (x0, y0) =>
      let pi := c.freePlaced
      let c1 := c.loadImage pi m.blk p.rgn p.image x0 y0 p.region (p.copy.map (fun (q : Copy) => { q with slot := m.slot q.slot }))
      let es := elems.filter (fun (q : Nat × Nat × Element) => q.1 == old)
      let c2 := es.foldl (fun (c : Core) (q : Nat × Nat × Element) =>
        c.setElem (q.2.1 + 8 * y0 + x0) { q.2.2 with owner := pi + 1 }) c1
      Core.thaw (c2.setPlaced pi { (c2.placedAt pi) with
        nodes := p.nodes.map (fun q => (q.1, { q.2 with phys := ((c2.placedAt pi).node q.1).phys }))
        ports := p.ports }) m elems r

/-- Whether a core has room for what a saved block held beside the claims of R23: barrier records, windows, the copy queue, tiles, matrix
queue, copies (R270, R305, R342, R416). -/
def Core.roomFor (c : Core) (x : SavedBlock) : Bool :=
  decide (c.barsPromised none + max 4 x.bars.length ≤ 128) &&
  decide (c.windows.length + x.windows.length ≤ 16) &&
  decide (c.copyInsts + ((x.copies.map (·.inst)).eraseDups).length ≤ 64) && decide (c.matq.length + x.matq.length ≤ 16) &&
  decide (c.resv.length + x.resv.length ≤ 32) && x.tiles.all (fun t => SMap.get 0 c.claims t.1 == 0) &&
  decide (c.copies + (x.placed.filter (fun p => p.2.copy.isSome)).length ≤ 16) && decide (c.blockIds.length < 32)

/-- The core with a saved block in its place; none where its images or reservations find no room. -/
def Core.install (c : Core) (m : Remap) (x : SavedBlock) (at_ : Site) : Option Core :=
  let b := m.block x.block at_
  let c1 := x.groups.foldl (fun (c : Core) (q : Nat × Group) => c.setGroup (m.slot q.1) (m.group q.2)) (c.setBlock m.blk b)
  let c2 : Core := { c1 with
    scratch := writeList c1.scratch at_.sbase x.scratch
    laneMem := x.laneMem.foldl (fun (l : SMap Byte) (q : Nat × Byte) => SMap.set 0 l (q.1 + at_.lbase) q.2) c1.laneMem
    marks := clearRange c1.marks (at_.sbase / 4) (b.scratchBytes / 4)
    bars := c1.bars ++ x.bars.map (fun (r : BarRec) => { r with
      blk := m.blk
      waiters := r.waiters.map m.slot })
    windows := c1.windows ++ (x.windows.zip c1.freeWids).map (fun (q : Window × Nat) => { q.1 with
      blk := m.blk
      wid := q.2 })
    claims := x.tiles.foldl (fun (l : SMap Nat) t => SMap.set 0 l t.1 (m.blk + 1)) c1.claims
    drain := x.tiles.foldl (fun (l : SMap Nat) t => SMap.set 0 l t.1 t.2.1) c1.drain
    acc := x.tiles.foldl (fun (l : SMap Word) t =>
      t.2.2.zipIdx.foldl (fun (l : SMap Word) q => SMap.set 0 l (4096 * t.1 + q.2) q.1) l) c1.acc
    matq := c1.matq ++ x.matq.map (fun (q : MatEntry) => { q with
      id := q.id + m.ops
      blk := m.blk
      signers := q.signers.map m.slot })
    copyq := c1.copyq ++ x.copies.map (fun (o : CopyOp) => { o with
      id := o.id + m.ops
      inst := o.inst + m.ops
      blk := m.blk
      slot := m.slot o.slot })
    dests := c1.dests ++ x.copies.flatMap (fun (o : CopyOp) => destsOf (o.id + m.ops) b (dropRanges o.done o.writes)) }
  (c2.reserveAll m.blk x.resv).bind (fun c3 => c3.thaw m x.elems x.placed)

/-- A record of a suspension that a restore posts again, with bit 14 of SUB set, under a new FAULTID. -/
def State.repost (s : State) (core slot : Nat) (su : Susp) : State :=
  let c := s.core core
  let b := c.block (c.group slot).blk
  s.postFault b.part core
    { kind := 1, gen := c.gen, cause := su.cause, sub := Nat.lor su.sub (2 ^ 14), die := dieOf core, core := core % 256, faultid := su.fid,
      lmask := su.lmask, pc := su.pc, addr := su.addr, gridseq := b.gridseq, block := b.b, detail := su.detail }

/-- A group that was SUSPENDED gets a new FAULTID. -/
def State.resuspend (s : State) (core slot : Nat) : State :=
  let c := s.core core
  let g := c.group slot
  match g.susp with
  | none => s
  | some su =>
    let n := g.faults + 1
    let su1 : Susp := { su with fid := faultId core slot c.gen n }
    (s.setGroup core slot { g with
      faults := n
      st := .suspended su1.fid
      susp := some su1 }).repost core slot su1

/-- An engine operation that was suspended gets a new FAULTID. -/
def State.resuspendCopy (s : State) (core : Nat) (o : CopyOp) : State :=
  let c := s.core core
  match o.susp with
  | none => s
  | some su =>
    let g := c.group o.slot
    let n := g.faults + 1
    let su1 : Susp := { su with fid := faultId core o.slot c.gen n }
    let c1 := c.setGroup o.slot { g with faults := n }
    (s.setCore core { c1 with
      copyq := updWhere (fun (q : CopyOp) => q.id == o.id) (fun q => { q with susp := some su1 }) c1.copyq }).repost core o.slot su1

/-- One block goes on at a site. -/
def State.restoreOne (s : State) (x : SavedBlock) (at_ : Site) : Option State :=
  let s1 := s.takeCore at_.core x.block.cmd x.block.kd
  let c := s1.core at_.core
  let m : Remap := { blk := c.freeBlockId, order := s1.starts, slots := x.block.slots.zip c.freeSlots, ops := c.freshOp }
  match if c.roomFor x then c.install m x at_ else none with
  | none => none
  | some c1 =>
    let s2 : State := { (s1.setCore at_.core c1) with starts := s1.starts + 1 }
    let s3 := (m.slots.map (·.2)).foldl (fun (s : State) i => s.resuspend at_.core i) s2
    some (((s3.core at_.core).copiesOf m.blk).foldl (fun (s : State) o => s.resuspendCopy at_.core o) s3)

/-- The blocks of a saved entry go on at their sites, in order. -/
def State.restoreAll (s : State) : List (SavedBlock × Site) → Option State
  | [] => some s
  | (x, a) :: r => (s.restoreOne x a).bind (fun s1 => State.restoreAll s1 r)

/-- The bytes of a block's own area. -/
def State.areaOf (s : State) (part area : Nat) (x : SavedBlock) : List Byte := readList s.mem (partKey part (area + x.ofs)) x.size

/-- Whether the CRC of a block's own area holds (R441, R442). -/
def State.areaOk (s : State) (part area : Nat) (x : SavedBlock) : Bool :=
  let l := s.areaOf part area x
  natOf ((l.drop 40).take 4) == crc32 (patch l 40 [0, 0, 0, 0])

/-- Whether a home holds back the reads of a block's own area: an engine claims a line of it, or a write of the hub waits for one (R299). -/
def State.areaWaits (s : State) (part area : Nat) (x : SavedBlock) : Bool := s.hubWaits (partKey part (area + x.ofs)) x.size

/-- A poisoned word of a block's own area (R304). -/
def State.areaPoison (s : State) (part area : Nat) (x : SavedBlock) : Option Nat :=
  let k := partKey part (area + x.ofs)
  s.poisoned.find? (fun w => decide (k ≤ w) && decide (w < k + x.size))

/-! ### Loading the sections (R442)

The sections whose layout R441 gives are loaded from the area's bytes; those whose codes or places it does not give from what the save kept
of them, which the area's own bytes repeat (assumption 16). -/

/-- A field of bytes. -/
def fieldAt (l : List Byte) (o n : Nat) : Nat := natOf ((l.drop o).take n)
/-- Words as a sparse map. -/
def wordsAt (l : List Byte) (o n : Nat) : SMap Word :=
  (List.range n).foldl (fun m i => SMap.set 0 m i (BitVec.ofNat 32 (fieldAt l (o + 4 * i) 4))) []

/-- A group as its record holds it. -/
def Group.loaded (g : Group) (r : List Byte) : Group :=
  let f := fieldAt r
  { g with
    skip := f 4 1
    rkmix := f 5 1 % 2 == 1
    mtc := BitVec.ofNat 8 (f 6 1)
    faults := BitVec.ofNat 8 (f 7 1)
    pc := BitVec.ofNat 64 (f 8 8)
    m := BitVec.ofNat 32 (f 0x10 4)
    exitm := BitVec.ofNat 32 (f 0x14 4)
    trapbase := BitVec.ofNat 64 (f 0x28 8)
    trapN := BitVec.ofNat 32 (f 0x30 4)
    trapRet := BitVec.ofNat 64 (f 0x34 8)
    loopcfg := BitVec.ofNat 32 (f 0x3C 4)
    faultinfo := wordsAt r 0x40 6
    clockhi := BitVec.ofNat 32 (f 0x58 4)
    loopH := BitVec.ofNat 64 (f 0x60 8)
    loopCount := BitVec.ofNat 32 (f 0x68 4)
    armPoint := BitVec.ofNat 32 (f 0x6C 4)
    hintHead := BitVec.ofNat 64 (f 0x70 8)
    hintT := BitVec.ofNat 8 (f 0x78 1)
    hintValid := f 0x79 1 == 1
    tg := (List.range 8).foldl (fun m i => SMap.set 0 m i (BitVec.ofNat 16 (f (0x80 + 2 * i) 2))) []
    k := wordsAt r 0xA0 64 }

/-- The registers of a lane as the record of its thread holds them. -/
def Group.laneLoaded (g : Group) (regs lane : Nat) (r : List Byte) : Group :=
  let put := fun (m : SMap Word) o n => (List.range n).foldl (fun m i => SMap.set 0 m (32 * i + lane) (BitVec.ofNat 32 (fieldAt r (o + 4 * i) 4))) m
  let o := 4 * regs
  { g with
    v := put g.v 0 regs
    w := put g.w o 8
    amax := SMap.set 0 g.amax lane (BitVec.ofNat 32 (fieldAt r (o + 32) 4))
    srseed := SMap.set 0 g.srseed lane (BitVec.ofNat 16 (fieldAt r (o + 36) 2)) }

/-- Where the sections of an area begin, after the header: groups, threads, scratchpad, lane private, barriers, convergence, windows, matrix,
engines, chime. -/
def SavedBlock.sections (x : SavedBlock) : List Nat :=
  let b := x.block
  [768 * x.groups.length, (4 * b.kd.regs + 48) * b.live.length, b.scratchBytes, 32 * b.n * b.kd.lane, 192 * x.bars.length + 144 * b.gsets.length,
    512, 48 * x.windows.length, total (x.resv.map (fun r => 32 + r.2.length)) + 16400 * x.tiles.length, 64 * x.copies.length].foldl
    (fun l n => l ++ [pad64 (l.getLastD 64 + n)]) [64]

/-- A saved block as its area's bytes hold it. -/
def SavedBlock.loaded (x : SavedBlock) (l : List Byte) : SavedBlock :=
  let at_ := fun n => l.drop (x.sections.getD n 0)
  let b := x.block
  let size := 4 * b.kd.regs + 48
  let threads := (b.threads.filter (fun p => p.2.live)).zipIdx
  let groups := x.groups.zipIdx.map (fun q =>
    (q.1.1, threads.foldl (fun (g : Group) p => if p.1.2.slot = q.1.1 then g.laneLoaded b.kd.regs p.1.2.lane ((at_ 1).drop (size * p.2)) else g)
      (q.1.2.loaded ((at_ 0).drop (768 * q.2)))))
  let spans := x.resv.map (fun r => r.2.length)
  let tiles := (at_ 7).drop (total (spans.map (32 + ·)))
  let chime := at_ 9
  { x with
    groups
    scratch := (at_ 2).take b.scratchBytes
    laneMem := (List.range (32 * b.n)).foldl (fun m t => (List.range b.kd.lane).foldl (fun m i =>
      SMap.set 0 m (2048 * (t % 32) + t / 32 * b.kd.lane + i) ((at_ 3).getD (b.kd.lane * t + i) 0)) m) []
    resv := x.resv.zipIdx.map (fun r => (r.1.1, ((at_ 7).drop (total ((spans.take r.2).map (32 + ·)) + 32)).take r.1.2.length))
    tiles := x.tiles.zipIdx.map (fun t => (t.1.1, t.1.2.1, (List.range 4096).map (fun i => BitVec.ofNat 32 (fieldAt tiles (16400 * t.2 + 16 + 4 * i) 4))))
    block := { b with
      satn := fieldAt chime 0 8
      nann := fieldAt chime 8 8
      skipn := fieldAt chime 16 8 } }

/-- The blocks of a gang that a command still has on cores. -/
def State.gangResident (s : State) (x : SavedBlock) : Bool :=
  x.block.gangLaunch && !(s.membersOf x.block.cmd x.block.gang).isEmpty

/-- A save area fails its check, or holds poison: BLOCK_FATAL, and the kill (R304, R442, R436). -/
def State.restoreFatal (s : State) (p n : Nat) (x : Saved) (b : Block) (core cause sub : Nat) : State :=
  let fid := freeFaultId core (s.core core).gen s.tick
  let s1 := ({ s with tick := s.tick + 1 }).postFault p core
    { kind := 3, gen := (s.core core).gen, cause, sub, die := dieOf core, core := core % 256, faultid := fid, lmask := 0, pc := 0,
      addr := BitVec.ofNat 64 x.area, gridseq := b.gridseq, block := b.b, detail := 0 }
  s1.killSaved p n 9

/-- The sites of a restore: distinct cores of the die that owns the unit, each with room (R23, R24, R32, R419). -/
def State.sitesFor (s : State) (x : Saved) (sites : List Site) : Bool :=
  sites.length == x.blocks.length && sites.map (·.core) == (sites.map (·.core)).eraseDups &&
  (x.blocks.zip sites).all (fun q => s.siteOk x.die q.1.block.kd q.1.block.n x.cmd q.2) &&
  !x.blocks.any s.gangResident &&
  (!x.blocks.any (fun b => b.block.gangLaunch) || decide (s.gangsOn x.die < 16)) &&
  decide ((SMap.get [] s.gangs x.die).length + x.gangs.length ≤ 16)

/-- Whether a restored image may not begin to draw on a core: the round that executes leaves no room for the carillon at half rate (R13). -/
def State.drawHeld (s s1 : State) (core : Nat) : Bool :=
  let c := s1.core core
  !(s.core core).carillonActive && c.carillonActive && decide (4 ≤ c.limit) && decide (c.limit < 4 + c.roundDraw)

/-- BLOCK_RESTORE. It waits where a home holds back a read of an area, and while a round leaves no power share for what the block restores. -/
def execBlockRestore (p n : Nat) (sites : List Site) (s : State) : Out :=
  let x := SMap.get {} (s.part p).saved n
  if x.blocks.isEmpty || !s.sitesFor x sites || x.blocks.any (s.areaWaits p x.area) then .next s
  else match (x.blocks.zip sites).find? (fun q => (s.areaPoison p x.area q.1).isSome || !s.areaOk p x.area q.1) with
    | some q =>
      if (s.areaPoison p x.area q.1).isSome then .next (s.restoreFatal p n x q.1.block q.2.core 0x41 0)
      else .next (s.restoreFatal p n x q.1.block q.2.core 0x40 3)
    | none => match s.restoreAll ((x.blocks.map (fun b => b.loaded (s.areaOf p x.area b))).zip sites) with
      | none => .next s
      | some s1 =>
        if sites.any (fun a => s.drawHeld s1 a.core) then .next s else
        let y := s1.part p
        let s2 := s1.setPart p { y with
          saved := SMap.del y.saved n
          csa := y.csa ++ [(x.area, x.size)] }
        let s3 : State := { s2 with gangs := SMap.set [] s2.gangs x.die (SMap.get [] s2.gangs x.die ++ x.gangs) }
        .next ((s3.gangSettle x.die 64).breakDamps p)

end Sys2Proof.Machine
end

