-- ==== Sys2Proof/Machine/Debug.lean ====
section
/-!
DEFINITION. The debug port and halted groups (R427, R428, R443 to R445).
-/

namespace Sys2Proof.Machine

/-! ## Attachment and breakpoints (R428, R443, R445) -/

/-- DBGCTL_WRITE: [0] ATTACH, [1] HOLDENG; the breakpoints that are enabled act from then on. -/
def execDbgctlWrite (p : Nat) (val : Dword) (s : State) : Out :=
  let x := s.part p
  let s1 := s.setPart p { x with dbgctl := BitVec.ofNat 64 (val.toNat % 4) }
  .next (if !x.attached then s1.breakDamps p else s1)

/-- Whether the loop that a group's monitor holds has the word at an address in its body. -/
def State.loopCovers (s : State) (core : Nat) (b : Block) (g : Group) (va : Nat) : Bool :=
  match s.bodyFrom core b g.loopH 96 0 with
  | some l => decide (g.loopH.toNat ≤ va) && decide (va < g.loopH.toNat + 8 * l.length)
  | none => false

/-- A breakpoint is cleared: the bar on its loop lifts after T further iterations (R445). -/
def State.breakLift (s : State) (p va : Nat) : State :=
  s.mapCores (fun k c =>
    if !(s.part p).dies.contains (dieOf k) then c
    else c.groups.foldl (fun (c : Core) (q : Nat × Group) =>
      let b := c.block q.2.blk
      if b.part == p && c.hasBlock q.2.blk && s.loopCovers k b q.2 va then c.setGroup q.1 { q.2 with armPoint := q.2.loopCount } else c) c)

/-- DBGBP_WRITE: [63:3] word VA, [0] enable. -/
def execDbgbpWrite (p n : Nat) (val : Dword) (s : State) : Out :=
  let x := s.part p
  let v := val &&& 0xFFFFFFFFFFFFFFF9
  let old := SMap.get 0 x.dbgbp n
  if 8 ≤ n then .next s
  else
    let s1 := s.setPart p { x with dbgbp := SMap.set 0 x.dbgbp n v }
    let s2 := if x.attached && old.getLsbD 0 && v != old then s1.breakLift p (bpVa old) else s1
    .next (if x.attached && v.getLsbD 0 then s2.breakDamp p (bpVa v) else s2)

/-! ## Commands (R428, R443) -/

/-- The value of DBGCMD: die, core, slot and operation. -/
def dbgCmd (core slot op : Nat) : Dword := BitVec.ofNat 64 (dieOf core + core % 256 * 4 + slot * 2 ^ 10 + op * 2 ^ 16)

/-- A halt damps the group where it streams, at the first iteration not yet admitted: a halted group is never in mid-iteration (R444). R45's
table has no row for it, and the damp record names the breakpoint trigger. MODEL'S CHOICE (assumption 118). -/
def State.haltDamp (s : State) (core slot : Nat) : State :=
  let c := s.core core
  if !(c.group slot).haltReq then s
  else s.setCore core ((c.streaming (c.group slot).blk).foldl (fun (c : Core) q =>
    if q.2.slot = slot then c.dampNext q.1 .breakpoint else c) c)

/-- A command of an attached debugger changes a group of its partition that is in use. -/
def State.dbgCommand (s : State) (p core slot op : Nat) (f : Group → Option Group) : Out :=
  let x := s.part p
  let s1 := s.setPart p { x with dbgcmd := dbgCmd core slot op }
  let g := (s.core core).group slot
  if !x.attached || !x.dies.contains (dieOf core) || Config.groupSlots ≤ slot then .next s1
  else match f g with
    | some g1 => .next (((s1.setGroup core slot g1).haltDamp core slot).checkBars core g1.blk)
    | none => .next s1

/-- Whether a slot holds a group that may still issue. -/
def GState.issues : GState → Bool
  | .free | .reserved | .ended | .halted => false
  | _ => true

/-- DBGCMD_HALT: the group issues nothing more. -/
def execDbgcmdHalt (p core slot : Nat) (s : State) : Out :=
  s.dbgCommand p core slot 1 (fun g => if g.st.issues then some { g with haltReq := true } else none)

/-- A halted group goes on at a PC, or where it halted; bits [2:0] and [63:56] of a PC are zero (R74). What a word that it leaves behind had
begun at issue ends. -/
def Group.unhalt (g : Group) (pc : Dword) (step : Bool) : Group :=
  { g with
    st := .running
    pc := if pc = 0 then g.pc else pc &&& 0x00FFFFFFFFFFFFF8
    fxOct := if pc = 0 then g.fxOct else 0
    fxEnd := if pc = 0 then g.fxEnd else none
    flushing := pc == 0 && g.flushing
    haltReq := false
    stepReq := step
    bpPast := true }

/-- DBGCMD_RESUME. -/
def execDbgcmdResume (p core slot : Nat) (s : State) : Out :=
  s.dbgCommand p core slot 2 (fun g => if g.st = .halted then some (g.unhalt (s.part p).dbgpc false) else none)

/-- DBGCMD_STEP: one word issues, and the group halts again. -/
def execDbgcmdStep (p core slot : Nat) (s : State) : Out :=
  s.dbgCommand p core slot 3 (fun g => if g.st = .halted then some (g.unhalt (s.part p).dbgpc true) else none)

/-! ## Halting (R443) -/

/-- DBGBP_MATCH: an eligible group's PC meets an enabled breakpoint with its word at hand, so that a fault of the fetch comes first; it halts
before the matched word issues. -/
def execDbgbpMatch (core slot : Nat) (s : State) : Out :=
  if (s.core core).eligible slot && s.bpMatch core slot then
    match s.fetchFor core slot with
    | .word _ => .next (s.setGroup core slot { (s.group core slot) with haltReq := true })
    | _ => .next s
  else .next s

/-- The record of a halt in the debugger's ring of 64 records. -/
def State.haltRecord (s : State) (core slot : Nat) : State :=
  let c := s.core core
  let g := c.group slot
  let b := c.block g.blk
  let p := s.part b.part
  let r : FaultRec :=
    { kind := 1, gen := c.gen, cause := 0, sub := 0, die := dieOf core, core := core % 256, faultid := faultId core slot c.gen g.faults, lmask := 0
      pc := g.pc, addr := 0, gridseq := b.gridseq, block := b.b, detail := 0 }
  let s1 := if p.dbgring = 0 then s else s.hubWrite (partKey b.part (p.dbgring + 64 * (p.dbgidx % 64))) (bytesOf 64 (r.bytes (p.dbgidx + 1)))
  s1.setPart b.part { (s1.part b.part) with dbgidx := p.dbgidx + 1 }

/-- Whether every earlier word of a group has completed with its accesses performed, and every round that it signed and that has fired has
executed (R443, R444). -/
def State.quietGroup (s : State) (core slot : Nat) : Bool :=
  let c := s.core core
  s.writes.all (fun w => !(w.core == core && w.slot == slot && w.gen == c.gen)) && c.requests.all (fun r => r.slot != slot) &&
  c.matq.all (fun q => !(q.work.isMma && q.signers.contains slot))

/-- GROUP_HALT. -/
def execGroupHalt (core slot : Nat) (s : State) : Out :=
  let g := s.group core slot
  if g.st = .running ∧ g.haltReq ∧ g.answer = none ∧ s.quietGroup core slot then
    .next ((s.setGroup core slot { g with
      st := .halted
      haltReq := false }).haltRecord core slot)
  else .next s

/-! ## Register writes (R443) -/

/-- A v, w, k or p register as the debugger names it, by its operand code (R53, R74). -/
def Group.debugWrite (g : Group) (reg lane : Nat) (v : Word) : Option Group :=
  let one := 1#32 <<< lane
  match if reg < 1024 then opndOfCode (BitVec.ofNat 10 reg) else none with
  | some (.k n) => some (g.writeK n.toNat v)
  | some (.v n) => some (g.write (.v n) one (fun _ => v))
  | some (.w n) => some (g.write (.w n) one (fun _ => v))
  | some (.p n) => some (g.write (.p n) one (fun _ => v))
  | _ => none

/-- DEBUGGER_REGISTER_WRITE: only while the group is HALTED; y becomes invalid. -/
def execDebuggerRegisterWrite (p core slot reg lane : Nat) (val : Word) (s : State) : Out :=
  let g := s.group core slot
  if !(s.part p).attached || !(s.part p).dies.contains (dieOf core) || g.st != .halted || 32 ≤ lane then .next s
  else match g.debugWrite reg lane val with
    | some g1 => .next (s.setGroup core slot g1.yInvalid)
    | none => .next s

end Sys2Proof.Machine
end

