-- ==== Sys2Proof/Machine/Service.lean ====
section
/-!
DEFINITION. Reset, service states, partitions, links, attestation and code objects (R385 to R389, R406, R438, R451 to R456, R458 to R460).
-/

namespace Sys2Proof.Machine

/-! ## Reset and service states (R451 to R453, R460) -/

/-- RESET: the device is as State.reset; memory of the host and of peers is not the device's. -/
def execReset (s : State) : Out :=
  .next { State.reset with
    turns := s.turns
    tick := s.tick
    mem := s.mem.filter (fun p => 2 ^ 60 ≤ p.1) }

/-- SERVICE_REDUCED: the firmware and the manifest, which lists the harvested cores, are verified, and die C0 has trained; a failed check
leaves FAILED. -/
def execServiceReduced (harvest : List Nat) (s : State) : Out :=
  if s.devstate ≠ 0 then .next s
  else
    let s1 : State := { s with tick := s.tick + 1 }
    if Config.bootOk s.tick then
      .next ({ s1 with
        devstate := 1
        dieok := 1
        mfst := true
        harvest
        strayBells := SMap.del s1.strayBells 0
        reducedMap := true }.setPart 0 { dies := [0], doorbellign := SMap.get 0 s1.strayBells 0 })
    else .next { s1 with devstate := 3 }

/-- SERVICE_FULL: the dies that have trained, and the launches held till now are dispatched. -/
def execServiceFull (dies : BitVec 4) (s : State) : Out :=
  if s.devstate ≠ 1 then .next s
  else
    let held := (s.commands.filter (fun c => c.2.typ == 1 && c.2.st == .accepted && !c.2.kd.reducedOk)).map (·.1)
    let s1 : State := { s with
      devstate := 2
      dieok := dies ||| 1 }
    .next (held.foldl State.dispatch s1)

/-! ## Partitions (R454) -/

/-- The dies of partition `i` of `count`. -/
def diesOf (count i : Nat) : List Nat := (List.range 4).filter (fun d => d / (4 / count) == i)

/-- Whether a byte of memory keeps its place when partitions are set up anew: device memory of a partition whose dies change lies in other
stacks (R6, R454). -/
def State.staysPut (s t : State) (k : Nat) : Bool := 2 ^ 60 ≤ k || (s.part (k / 2 ^ 52)).dies == (t.part (k / 2 ^ 52)).dies

/-- PARTITION_SETUP: 1, 2 or 4 partitions of whole dies, while no queue is ACTIVE and nothing runs; a core that changes its partition gets a
new generation (R339, R453). Device memory of a partition whose dies change reads as after reset. MODEL'S CHOICE (assumption 95). -/
def execPartitionSetup (count : Nat) (signed : BitVec 4) (s : State) : Out :=
  if !([1, 2, 4].contains count) || s.devstate != 2 || s.queues.any (fun q => q.2.st == .active) || !s.commands.isEmpty ||
      s.cores.any (fun c => !c.2.blocks.isEmpty || !c.2.requests.isEmpty) || !s.writes.isEmpty || !s.hubq.isEmpty then .next s
  else
    let parts : SMap Partition := (List.range count).foldl (fun (m : SMap Partition) i =>
      SMap.set {} m i { dies := (diesOf count i).filter (fun d => s.dieok.getLsbD d), signedOnly := signed.getLsbD i }) []
    let s1 : State := { s with
      parts
      queues := []
      vfs := []
      strayBells := []
      tlb := []
      walks := []
      drains := []
      reducedMap := false }
    let s1 : State := { s1 with
      mem := s1.mem.filter (fun p => s.staysPut s1 p.1)
      dir := s1.dir.filter (fun p => s.staysPut s1 (128 * p.1))
      poisoned := s1.poisoned.filter (s.staysPut s1) }
    .next ((List.range (4 * Config.coresPerDie)).foldl (fun (t : State) k =>
      if s.partOfDie (dieOf k) = s1.partOfDie (dieOf k) then t
      else t.setCore k { (t.core k) with
        gen := (t.core k).gen + 1
        cache := [] }) s1)

/-! ## Links (R455, R456) -/

/-- Gwynryn links of the device. -/
def linkCount : Nat := 12

/-- The widest common lane count; none where the ends cannot agree. -/
def laneCount (width : Nat) : Option Nat := [8, 4, 2].find? (fun n => decide (n ≤ width))

/-- LINK_TRAIN: the ends agree on the lower version and the widest common lane count; reduced service has no links (R452). -/
def execLinkTrain (link ver width : Nat) (s : State) : Out :=
  if linkCount ≤ link ∨ s.devstate ≠ 2 then .next s
  else match if ver = 0 then none else laneCount width with
    | some n => .next { s with links := SMap.set {} s.links link { up := true, ver := min 2 ver, width := n } }
    | none => .next { s with links := SMap.set {} s.links link {} }

/-- Whether a key of memory is reached over a link. -/
def overLink (link k : Nat) : Bool := keyTgt k == 2 && Config.peerLink (k / 2 ^ 52 % 256) == link

/-- Whether ranges of memory are reached over a link. -/
def rangesOver (link : Nat) (l : List (EAddr × Nat)) : Bool := l.any (fun r => match r.1 with
  | .mem k => overLink link k
  | _ => false)

/-- Whether a request is in flight on a link. -/
def ReqWork.crosses (link : Nat) : ReqWork → Bool
  | .load _ _ l _ | .call _ l => l.any (fun q => q.2.any (overLink link))
  | .atomic _ _ _ _ l _ => l.any (fun q => q.2.1.any (overLink link))

/-- The blocks with an access in flight on a link. -/
def State.blocksOver (s : State) (link : Nat) : List (Nat × Nat) :=
  s.cores.flatMap (fun c => (c.2.blockIds.filter (fun k =>
    let b := c.2.block k
    c.2.requests.any (fun r => r.blk == k && r.slot != 63 && r.work.crosses link) ||
    c.2.copyq.any (fun o => o.blk == k && o.peer &&
      rangesOver link (s.resolve c.1 b .read true o.reads ++ s.resolve c.1 b .write true o.writes)) ||
    s.writes.any (fun w => w.core == c.1 && w.gen == c.2.gen && (c.2.writersOf k).contains w.slot && w.peers.any (fun q => Config.peerLink q == link)))).map
      (fun k => (c.1, k)))

/-- LINK_DOWN: the link fault is recorded, and every block with an access in flight on the link is killed. -/
def execLinkDown (link : Nat) (s : State) : Out :=
  if !(SMap.get {} s.links link).up then .next s
  else
    let s1 : State := { s with links := SMap.set {} s.links link {} }
    let s2 := s1.parts.foldl (fun (t : State) p => t.deviceFault p.1 (t.anyCore (p.2.dies.headD 0)) 0x42 link 0) s1
    .next ((s.blocksOver link).foldl (fun (t : State) q =>
      if (t.core q.1).hasBlock q.2 then t.killBlock q.1 q.2 8 else t) s2)

/-! ## Attestation (R459) -/

/-- The content of a report, which is signed: nonce, digests, each partition's signed-code policy, DEVSTATE. -/
def State.reportBody (s : State) (nonce : List Byte) : List Byte :=
  nonce ++ Config.firmwareDigest ++ Config.manifestDigest ++ s.parts.map (fun p => if p.2.signedOnly then 1 else 0) ++
  bytesOf 8 s.devstateReg

/-- ATTESTATION_REQUEST: a request has a nonce of 32 bytes. -/
def execAttestationRequest (p : Nat) (nonce : List Byte) (s : State) : Out :=
  if nonce.length ≠ 32 then .next s
  else
    let l := s.reportBody nonce
    .next (s.setPart p { (s.part p) with report := l ++ Config.attestSign l })

/-! ## Code objects (R385 to R389) -/

/-- The header's fields that the loader checks. -/
def headerFits (l : List Byte) : Bool :=
  let f := recField l
  f 0 4 == 0x4E414B46 && f 4 1 == 2 && f 5 1 == 0 && f 6 2 ≤ 1 && f 0x18 4 ≤ 32 && f 0x1C 4 % 65536 == 0 && f 0x3C 4 % 65536 == 0 &&
  f 0x24 4 % 8 == 0 && f 0x28 4 % 8 == 0 && f 0x2C 4 % 8 == 0 && (f 6 2 == 1 || f 0x38 4 == 0) && f 0x44 12 == 0 &&
  (f 0x16 2 == 0 || (f 0x3C 4 ≤ f 0x2C 4 && f 0x2C 4 + 8 * f 0x16 2 ≤ f 0x3C 4 + 65536 * f 0x40 4))

/-- The entry of a code object from its header. -/
def objectOf (asid : Nat) (base : Dword) (l : List Byte) : CodeObj :=
  let f := recField l
  { st := 2
    objid := f 8 8
    asid
    base
    pages := f 0x10 4
    codeofs := f 0x1C 4
    hashofs := f 0x20 4
    placeofs := f 0x34 4
    nplace := f 0x18 4
    signed := f 6 2 == 1
    size := max (f 0x1C 4 + 65536 * f 0x10 4) (f 0x3C 4 + 65536 * f 0x40 4) }

/-- Bytes that the loader reads; none where they cannot be read. -/
def State.loaderRead (s : State) (p asid va n : Nat) : Option (List Byte) :=
  match s.hubReach p asid .read va n with
  | .ok l => some (s.hubBytes l)
  | _ => none

/-- A NUL-terminated name of at most `n` bytes. -/
def State.nameAt (s : State) (p asid : Nat) : (n : Nat) → (va : Nat) → Option (List Byte)
  | 0, _ => none
  | n + 1, va => match s.loaderRead p asid va 1 with
    | some [b] => if b = 0 then some [] else (State.nameAt s p asid n (va + 1)).map (fun r => b :: r)
    | _ => none

/-- The names of the export table; none where one cannot be read or an entry has a reserved KIND or field. -/
def State.exportNames (s : State) (p asid base size expofs strofs : Nat) : (n : Nat) → (i : Nat) → Option (List (List Byte))
  | 0, _ => some []
  | n + 1, i => match s.loaderRead p asid (base + expofs + 8 * i) 8 with
    | none => none
    | some l =>
      let v := natOf l
      let kind := v / 2 ^ 36 % 16
      if 2 < kind ∨ v / 2 ^ 32 % 16 ≠ 0 ∨ (kind ≠ 2 ∧ v % 8 ≠ 0) then none
      else match s.nameAt p asid size (base + strofs + v / 2 ^ 40) with
        | none => none
        | some w => (State.exportNames s p asid base size expofs strofs n (i + 1)).map (fun r => w :: r)

/-- Whether the entries of the import table can be read and keep their reserved bits [39:0] zero (R389). -/
def State.importsOk (s : State) (p asid va n : Nat) : Bool :=
  match if n = 0 then some [] else s.loaderRead p asid va (8 * n) with
  | some l => (List.range n).all (fun i => natOf ((l.drop (8 * i)).take 5) == 0)
  | none => false

/-- Whether no name comes twice. -/
def distinctNames : List (List Byte) → Bool
  | [] => true
  | w :: r => !r.contains w && distinctNames r

/-- Whether the signature of an object verifies (R386). -/
def State.signatureOk (s : State) (p asid base : Nat) (l : List Byte) : Bool :=
  match s.loaderRead p asid (base + recField l 0x20 4) (48 * recField l 0x10 4), s.loaderRead p asid (base + recField l 0x38 4) 96 with
  | some h, some sig => Config.ecdsaOk (Config.sha384 (l ++ h)) sig
  | _, _ => false

/-- Whether bytes that the loader reads are held back at a home (R299). -/
def State.loaderWaits (s : State) (p asid va n : Nat) : Bool := s.hubReach p asid .read va n == .wait

/-- The object that an import finds, the first loaded in its address space that exports the name: the VA of its export entry, and its base. A name
that two objects export is not excluded, and the order is not given. MODEL'S CHOICE (assumption 120). -/
def State.exporter (s : State) (p asid : Nat) (name : List Byte) : Option (Nat × Nat) :=
  (s.part p).objects.findSome? (fun q =>
    let b := q.2.base.toNat
    if q.2.asid ≠ asid ∨ q.2.st ≠ 2 then none
    else match s.loaderRead p asid b 80 with
      | none => none
      | some l =>
        let f := recField l
        match s.exportNames p asid b q.2.size (f 0x24 4) (f 0x30 4) (f 0x14 2) 0 with
        | none => none
        | some names => (names.findIdx? (· == name)).map (fun i => (b + f 0x24 4 + 8 * i, b)))

/-- Write a word at load where it can be written. -/
def State.loadWord (s : State) (p asid va : Nat) (v : Nat) : State :=
  match s.hubReach p asid .write va 8 with
  | .ok w => s.hubPut w (bytesOf 8 v)
  | _ => s

/-- The words that the loader writes for linkage entry `i`, after the stub's VA: the VA of the matching export entry, the base of the exporting
object and a counter of 0 (R482). An import that no loaded object exports yet has its first two words unwritten. MODEL'S CHOICE (assumption
120). -/
def State.linkWords (s : State) (p asid base strofs impofs link i : Nat) (size : Nat) : State :=
  let name := match s.loaderRead p asid (base + impofs + 8 * i) 8 with
    | some l => s.nameAt p asid size (base + strofs + natOf l / 2 ^ 40)
    | none => none
  let s1 := match name.bind (s.exporter p asid) with
    | some (e, b) => (s.loadWord p asid (link + 0x1000 + 8 * i) e).loadWord p asid (link + 0x2000 + 8 * i) b
    | none => s
  s1.loadWord p asid (link + 0x3000 + 8 * i) 0

/-- CODE_OBJECT_LOAD: one of the 256 entries of the partition's table (R372) goes through LOADING to LOADED, and every linkage entry gets the
VA of the resolver stub, with the words of R482 beside it. An object that the loader refuses leaves no entry; it waits while a line of its
signature is claimed. -/
def execCodeObjectLoad (p obj asid : Nat) (base : Dword) (s : State) : Out :=
  let x := s.part p
  let b := base.toNat
  if 256 ≤ obj ∨ (SMap.get {} x.objects obj).st ≠ 0 ∨ !(SMap.get {} x.aspaces asid).used ∨ b % 65536 ≠ 0 then .next s
  else match s.loaderRead p asid b 80 with
    | none => .next s
    | some l =>
      let f := recField l
      let o := objectOf asid base l
      let names := s.exportNames p asid b o.size (f 0x24 4) (f 0x30 4) (f 0x14 2) 0
      if !headerFits l || x.objects.any (fun q => q.2.objid == o.objid) || !(names.any distinctNames) ||
          !s.importsOk p asid (b + f 0x28 4) (f 0x16 2) then .next s
      else match if f 0x16 2 = 0 then Reach.ok [] else s.hubReach p asid .write (b + f 0x2C 4) (8 * f 0x16 2) with
        | .absent => .fault .absentMemory
        | .ok w =>
          if o.signed && (s.loaderWaits p asid (b + f 0x20 4) (48 * f 0x10 4) || s.loaderWaits p asid (b + f 0x38 4) 96) then .next s
          else
            let s1 := s.hubPut w ((List.range (f 0x16 2)).flatMap (fun _ => bytesOf 8 (Config.resolverStub p).toNat))
            let s2 := s1.setPart p { (s1.part p) with
              objects := SMap.set {} x.objects obj { o with sigOk := o.signed && s.signatureOk p asid b l } }
            .next (if 512 < f 0x16 2 then s2
              else (List.range (f 0x16 2)).foldl (fun (s : State) i =>
                s.linkWords p asid b (f 0x30 4) (f 0x28 4) (b + f 0x2C 4) i o.size) s2)
        | _ => .next s

/-- CODE_OBJECT_UNLOAD: the entry becomes UNLOADED, and the placement caches forget the object (R406). -/
def execCodeObjectUnload (p obj : Nat) (s : State) : Out :=
  let x := s.part p
  let o := SMap.get {} x.objects obj
  if o.st = 0 then .next s
  else .next ((s.setPart p { x with objects := SMap.del x.objects obj }).forgetObject p o.objid)

/-- The instruction buffers of the groups whose PC lies in an object that is quarantined: the next words of each, as many as the buffer holds
(R438). A group that streams has its PC at H, and its buffer may hold words there too, which issue if it damps (R48). MODEL'S CHOICE
(assumption 103). -/
def State.bufferWords (s : State) (p : Nat) (o : CodeObj) : State :=
  let s1 : State := { s with tick := s.tick + 1 }
  s1.mapCores (fun k c => c.groups.foldl (fun (c : Core) (q : Nat × Group) =>
    let b := c.block q.2.blk
    let pc := q.2.pc.toNat
    if !(s.part p).dies.contains (dieOf k) || q.2.st == .free || q.2.st == .ended || b.asid != o.asid || pc < o.base.toNat + o.codeofs ||
        o.base.toNat + o.codeofs + 65536 * o.pages ≤ pc then c
    else
      let l := (List.range (Config.bufferedWords s.tick k q.1 % 5)).map (fun i => (pc + 8 * i, s.fetch k b (pc + 8 * i)))
      let held := (l.takeWhile (fun r => match r.2 with
        | .word _ => true
        | _ => false)).filterMap (fun r => match r.2 with
        | .word w => some (r.1, w)
        | _ => none)
      c.setGroup q.1 { (c.group q.1) with ibuf := held }) c)

/-- CODE_PAGE_VERIFY: a page that is brought in is checked against its entry of the page-hash table; a mismatch makes the object QUARANTINED
(R386, R387, R438). -/
def execCodePageVerify (p obj page : Nat) (s : State) : Out :=
  let x := s.part p
  let o := SMap.get {} x.objects obj
  let va := o.base.toNat + o.codeofs + 65536 * page
  if o.st ≠ 2 ∨ o.pages ≤ page ∨ o.present.contains page then .next s
  else match s.loaderRead p o.asid va 65536, s.loaderRead p o.asid (o.base.toNat + o.hashofs + 48 * page) 48 with
    | some l, some h =>
      if Config.sha384 l = h then
        .next (s.setPart p { x with objects := SMap.set {} x.objects obj { o with
          present := o.present ++ [page]
          verified := o.verified ++ [page] } })
      else
        .next (((s.bufferWords p o).setPart p { x with objects := SMap.set {} x.objects obj { o with
          st := 3
          present := o.present ++ [page]
          badPage := va + 1 } }).forgetObject p o.objid)
    | _, _ => .next s

end Sys2Proof.Machine
end

