-- ==== Sys2Proof/Machine/Dispatch.lean ====
section
/-!
DEFINITION. The dispatch: one arm per instruction of spec/opcode_table.json, one direct call of its meaning.
-/

namespace Sys2Proof.Machine

/-- The effect of an instruction, operation or event. -/
def exec (i : Instr) (s : State) : Host.Outcome State Fault Refusal :=
  match i with
  | .bra x => Sys2Proof.Machine.execBra x s
  | .brx x => Sys2Proof.Machine.execBrx x s
  | .call x => Sys2Proof.Machine.execCall x s
  | .callx x => Sys2Proof.Machine.execCallx x s
  | .calll x => Sys2Proof.Machine.execCalll x s
  | .ret x => Sys2Proof.Machine.execRet x s
  | .exit x => Sys2Proof.Machine.execExit x s
  | .rcv x => Sys2Proof.Machine.execRcv x s
  | .join x => Sys2Proof.Machine.execJoin x s
  | .loophint x => Sys2Proof.Machine.execLoophint x s
  | .trap x => Sys2Proof.Machine.execTrap x s
  | .bkpt x => Sys2Proof.Machine.execBkpt x s
  | .nop x => Sys2Proof.Machine.execNop x s
  | .rdsr x => Sys2Proof.Machine.execRdsr x s
  | .wrsr x => Sys2Proof.Machine.execWrsr x s
  | .iadd x => Sys2Proof.Machine.execIadd x s
  | .isub x => Sys2Proof.Machine.execIsub x s
  | .imul x => Sys2Proof.Machine.execImul x s
  | .imulh x => Sys2Proof.Machine.execImulh x s
  | .imad x => Sys2Proof.Machine.execImad x s
  | .iadd64 x => Sys2Proof.Machine.execIadd64 x s
  | .isub64 x => Sys2Proof.Machine.execIsub64 x s
  | .imad64 x => Sys2Proof.Machine.execImad64 x s
  | .idiv x => Sys2Proof.Machine.execIdiv x s
  | .irem x => Sys2Proof.Machine.execIrem x s
  | .imin x => Sys2Proof.Machine.execImin x s
  | .imax x => Sys2Proof.Machine.execImax x s
  | .iabs x => Sys2Proof.Machine.execIabs x s
  | .ineg x => Sys2Proof.Machine.execIneg x s
  | .isad x => Sys2Proof.Machine.execIsad x s
  | .iaddc x => Sys2Proof.Machine.execIaddc x s
  | .and x => Sys2Proof.Machine.execAnd x s
  | .or x => Sys2Proof.Machine.execOr x s
  | .xor x => Sys2Proof.Machine.execXor x s
  | .andn x => Sys2Proof.Machine.execAndn x s
  | .not x => Sys2Proof.Machine.execNot x s
  | .shl x => Sys2Proof.Machine.execShl x s
  | .shr x => Sys2Proof.Machine.execShr x s
  | .sar x => Sys2Proof.Machine.execSar x s
  | .rot x => Sys2Proof.Machine.execRot x s
  | .fshl x => Sys2Proof.Machine.execFshl x s
  | .fshr x => Sys2Proof.Machine.execFshr x s
  | .shl64 x => Sys2Proof.Machine.execShl64 x s
  | .shr64 x => Sys2Proof.Machine.execShr64 x s
  | .popc x => Sys2Proof.Machine.execPopc x s
  | .clz x => Sys2Proof.Machine.execClz x s
  | .ctz x => Sys2Proof.Machine.execCtz x s
  | .brev x => Sys2Proof.Machine.execBrev x s
  | .bfx x => Sys2Proof.Machine.execBfx x s
  | .bfi x => Sys2Proof.Machine.execBfi x s
  | .prmt x => Sys2Proof.Machine.execPrmt x s
  | .icmp x => Sys2Proof.Machine.execIcmp x s
  | .iset x => Sys2Proof.Machine.execIset x s
  | .isel x => Sys2Proof.Machine.execIsel x s
  | .pset x => Sys2Proof.Machine.execPset x s
  | .mov x => Sys2Proof.Machine.execMov x s
  | .movi x => Sys2Proof.Machine.execMovi x s
  | .movk x => Sys2Proof.Machine.execMovk x s
  | .lea x => Sys2Proof.Machine.execLea x s
  | .lea64 x => Sys2Proof.Machine.execLea64 x s
  | .fadd x => Sys2Proof.Machine.execFadd x s
  | .fsub x => Sys2Proof.Machine.execFsub x s
  | .fmul x => Sys2Proof.Machine.execFmul x s
  | .ffma x => Sys2Proof.Machine.execFfma x s
  | .fmin x => Sys2Proof.Machine.execFmin x s
  | .fmax x => Sys2Proof.Machine.execFmax x s
  | .fcmp x => Sys2Proof.Machine.execFcmp x s
  | .fset x => Sys2Proof.Machine.execFset x s
  | .fsel x => Sys2Proof.Machine.execFsel x s
  | .fclass x => Sys2Proof.Machine.execFclass x s
  | .frnd x => Sys2Proof.Machine.execFrnd x s
  | .frcp x => Sys2Proof.Machine.execFrcp x s
  | .frsq x => Sys2Proof.Machine.execFrsq x s
  | .fsqrt x => Sys2Proof.Machine.execFsqrt x s
  | .fexp2 x => Sys2Proof.Machine.execFexp2 x s
  | .flog2 x => Sys2Proof.Machine.execFlog2 x s
  | .fsin x => Sys2Proof.Machine.execFsin x s
  | .fcos x => Sys2Proof.Machine.execFcos x s
  | .ftanh x => Sys2Proof.Machine.execFtanh x s
  | .fdiv x => Sys2Proof.Machine.execFdiv x s
  | .fldexp x => Sys2Proof.Machine.execFldexp x s
  | .ffrexp x => Sys2Proof.Machine.execFfrexp x s
  | .hadd2 x => Sys2Proof.Machine.execHadd2 x s
  | .hsub2 x => Sys2Proof.Machine.execHsub2 x s
  | .hmul2 x => Sys2Proof.Machine.execHmul2 x s
  | .hfma2 x => Sys2Proof.Machine.execHfma2 x s
  | .hmin2 x => Sys2Proof.Machine.execHmin2 x s
  | .hmax2 x => Sys2Proof.Machine.execHmax2 x s
  | .hcmp2 x => Sys2Proof.Machine.execHcmp2 x s
  | .badd2 x => Sys2Proof.Machine.execBadd2 x s
  | .bsub2 x => Sys2Proof.Machine.execBsub2 x s
  | .bmul2 x => Sys2Proof.Machine.execBmul2 x s
  | .bfma2 x => Sys2Proof.Machine.execBfma2 x s
  | .bmin2 x => Sys2Proof.Machine.execBmin2 x s
  | .bmax2 x => Sys2Proof.Machine.execBmax2 x s
  | .bcmp2 x => Sys2Proof.Machine.execBcmp2 x s
  | .ffmah x => Sys2Proof.Machine.execFfmah x s
  | .ffmab x => Sys2Proof.Machine.execFfmab x s
  | .dadd x => Sys2Proof.Machine.execDadd x s
  | .dmul x => Sys2Proof.Machine.execDmul x s
  | .dfma x => Sys2Proof.Machine.execDfma x s
  | .dcmp x => Sys2Proof.Machine.execDcmp x s
  | .dmin x => Sys2Proof.Machine.execDmin x s
  | .dmax x => Sys2Proof.Machine.execDmax x s
  | .cvt x => Sys2Proof.Machine.execCvt x s
  | .cvt64 x => Sys2Proof.Machine.execCvt64 x s
  | .qcvt x => Sys2Proof.Machine.execQcvt x s
  | .dqcvt x => Sys2Proof.Machine.execDqcvt x s
  | .pack2 x => Sys2Proof.Machine.execPack2 x s
  | .pack4 x => Sys2Proof.Machine.execPack4 x s
  | .pack8 x => Sys2Proof.Machine.execPack8 x s
  | .unpk2 x => Sys2Proof.Machine.execUnpk2 x s
  | .unpk4 x => Sys2Proof.Machine.execUnpk4 x s
  | .unpk8 x => Sys2Proof.Machine.execUnpk8 x s
  | .scalex x => Sys2Proof.Machine.execScalex x s
  | .qblk x => Sys2Proof.Machine.execQblk x s
  | .blkmax x => Sys2Proof.Machine.execBlkmax x s
  | .srseed x => Sys2Proof.Machine.execSrseed x s
  | .dot2h x => Sys2Proof.Machine.execDot2h x s
  | .dot2b x => Sys2Proof.Machine.execDot2b x s
  | .dot4i x => Sys2Proof.Machine.execDot4i x s
  | .dot8i x => Sys2Proof.Machine.execDot8i x s
  | .dot4e x => Sys2Proof.Machine.execDot4e x s
  | .dot8e x => Sys2Proof.Machine.execDot8e x s
  | .idp2 x => Sys2Proof.Machine.execIdp2 x s
  | .amaxclr x => Sys2Proof.Machine.execAmaxclr x s
  | .shfli x => Sys2Proof.Machine.execShfli x s
  | .shfla x => Sys2Proof.Machine.execShfla x s
  | .shflb x => Sys2Proof.Machine.execShflb x s
  | .shflx x => Sys2Proof.Machine.execShflx x s
  | .qswap x => Sys2Proof.Machine.execQswap x s
  | .qbcast x => Sys2Proof.Machine.execQbcast x s
  | .vote x => Sys2Proof.Machine.execVote x s
  | .matchLanes x => Sys2Proof.Machine.execMatchLanes x s
  | .redux x => Sys2Proof.Machine.execRedux x s
  | .reduxf x => Sys2Proof.Machine.execReduxf x s
  | .scan x => Sys2Proof.Machine.execScan x s
  | .scanf x => Sys2Proof.Machine.execScanf x s
  | .segred x => Sys2Proof.Machine.execSegred x s
  | .segscan x => Sys2Proof.Machine.execSegscan x s
  | .elect x => Sys2Proof.Machine.execElect x s
  | .actmask x => Sys2Proof.Machine.execActmask x s
  | .bcast x => Sys2Proof.Machine.execBcast x s
  | .kset x => Sys2Proof.Machine.execKset x s
  | .rank x => Sys2Proof.Machine.execRank x s
  | .sortg x => Sys2Proof.Machine.execSortg x s
  | .compact x => Sys2Proof.Machine.execCompact x s
  | .expand x => Sys2Proof.Machine.execExpand x s
  | .ld x => Sys2Proof.Machine.execLd x s
  | .st x => Sys2Proof.Machine.execSt x s
  | .ldv x => Sys2Proof.Machine.execLdv x s
  | .stv x => Sys2Proof.Machine.execStv x s
  | .ldk x => Sys2Proof.Machine.execLdk x s
  | .ldnf x => Sys2Proof.Machine.execLdnf x s
  | .stz x => Sys2Proof.Machine.execStz x s
  | .atadd x => Sys2Proof.Machine.execAtadd x s
  | .atmin x => Sys2Proof.Machine.execAtmin x s
  | .atmax x => Sys2Proof.Machine.execAtmax x s
  | .atand x => Sys2Proof.Machine.execAtand x s
  | .ator x => Sys2Proof.Machine.execAtor x s
  | .atxor x => Sys2Proof.Machine.execAtxor x s
  | .atexch x => Sys2Proof.Machine.execAtexch x s
  | .atcas x => Sys2Proof.Machine.execAtcas x s
  | .atinc x => Sys2Proof.Machine.execAtinc x s
  | .atdec x => Sys2Proof.Machine.execAtdec x s
  | .atfadd x => Sys2Proof.Machine.execAtfadd x s
  | .atfmin x => Sys2Proof.Machine.execAtfmin x s
  | .atfmax x => Sys2Proof.Machine.execAtfmax x s
  | .atcas128 x => Sys2Proof.Machine.execAtcas128 x s
  | .redadd x => Sys2Proof.Machine.execRedadd x s
  | .redmin x => Sys2Proof.Machine.execRedmin x s
  | .redmax x => Sys2Proof.Machine.execRedmax x s
  | .redfadd x => Sys2Proof.Machine.execRedfadd x s
  | .fence x => Sys2Proof.Machine.execFence x s
  | .pref x => Sys2Proof.Machine.execPref x s
  | .cctl x => Sys2Proof.Machine.execCctl x s
  | .lds x => Sys2Proof.Machine.execLds x s
  | .sts x => Sys2Proof.Machine.execSts x s
  | .ldsv x => Sys2Proof.Machine.execLdsv x s
  | .stsv x => Sys2Proof.Machine.execStsv x s
  | .atsadd x => Sys2Proof.Machine.execAtsadd x s
  | .atsmin x => Sys2Proof.Machine.execAtsmin x s
  | .atsmax x => Sys2Proof.Machine.execAtsmax x s
  | .atscas x => Sys2Proof.Machine.execAtscas x s
  | .ldl x => Sys2Proof.Machine.execLdl x s
  | .stl x => Sys2Proof.Machine.execStl x s
  | .wmap x => Sys2Proof.Machine.execWmap x s
  | .wunmap x => Sys2Proof.Machine.execWunmap x s
  | .wflush x => Sys2Proof.Machine.execWflush x s
  | .winv x => Sys2Proof.Machine.execWinv x s
  | .pgcommit x => Sys2Proof.Machine.execPgcommit x s
  | .pgrelease x => Sys2Proof.Machine.execPgrelease x s
  | .pgquery x => Sys2Proof.Machine.execPgquery x s
  | .pgprot x => Sys2Proof.Machine.execPgprot x s
  | .pgpool x => Sys2Proof.Machine.execPgpool x s
  | .halloc x => Sys2Proof.Machine.execHalloc x s
  | .hfree x => Sys2Proof.Machine.execHfree x s
  | .hsize x => Sys2Proof.Machine.execHsize x s
  | .gresumeReplay x => Sys2Proof.Machine.execGresumeReplay x s
  | .gresumeSkip x => Sys2Proof.Machine.execGresumeSkip x s
  | .gresumeKill x => Sys2Proof.Machine.execGresumeKill x s
  | .cpy32 x => Sys2Proof.Machine.execCpy32 x s
  | .cpyb x => Sys2Proof.Machine.execCpyb x s
  | .cpyst x => Sys2Proof.Machine.execCpyst x s
  | .cpywait x => Sys2Proof.Machine.execCpywait x s
  | .cpycnt x => Sys2Proof.Machine.execCpycnt x s
  | .cpyfill x => Sys2Proof.Machine.execCpyfill x s
  | .cpyp x => Sys2Proof.Machine.execCpyp x s
  | .gath x => Sys2Proof.Machine.execGath x s
  | .scat x => Sys2Proof.Machine.execScat x s
  | .gathbm x => Sys2Proof.Machine.execGathbm x s
  | .mtwait x => Sys2Proof.Machine.execMtwait x s
  | .tfetch x => Sys2Proof.Machine.execTfetch x s
  | .tfrel x => Sys2Proof.Machine.execTfrel x s
  | .obrsv x => Sys2Proof.Machine.execObrsv x s
  | .obrel x => Sys2Proof.Machine.execObrel x s
  | .obldS x => Sys2Proof.Machine.execObldS x s
  | .obldR x => Sys2Proof.Machine.execObldR x s
  | .cvdecl x => Sys2Proof.Machine.execCvdecl x s
  | .mma x => Sys2Proof.Machine.execMma x s
  | .mmas x => Sys2Proof.Machine.execMmas x s
  | .accinitZero x => Sys2Proof.Machine.execAccinitZero x s
  | .accinitLd x => Sys2Proof.Machine.execAccinitLd x s
  | .accrd x => Sys2Proof.Machine.execAccrd x s
  | .mdrainS x => Sys2Proof.Machine.execMdrainS x s
  | .mdrainC x => Sys2Proof.Machine.execMdrainC x s
  | .mwait x => Sys2Proof.Machine.execMwait x s
  | .barSync x => Sys2Proof.Machine.execBarSync x s
  | .barArrive x => Sys2Proof.Machine.execBarArrive x s
  | .gbarSync x => Sys2Proof.Machine.execGbarSync x s
  | .gbarArrive x => Sys2Proof.Machine.execGbarArrive x s
  | .regroup x => Sys2Proof.Machine.execRegroup x s
  | .regroupb x => Sys2Proof.Machine.execRegroupb x s
  | .fxload x => Sys2Proof.Machine.execFxload x s
  | .fxrun x => Sys2Proof.Machine.execFxrun x s
  | .fxwait x => Sys2Proof.Machine.execFxwait x s
  | .fxparam x => Sys2Proof.Machine.execFxparam x s
  | .fxdrop x => Sys2Proof.Machine.execFxdrop x s
  | .damp x => Sys2Proof.Machine.execDamp x s
  | .elemNop x => Sys2Proof.Machine.execElemNop x s
  | .elemMov x => Sys2Proof.Machine.execElemMov x s
  | .elemAdd x => Sys2Proof.Machine.execElemAdd x s
  | .elemSub x => Sys2Proof.Machine.execElemSub x s
  | .elemMul x => Sys2Proof.Machine.execElemMul x s
  | .elemMulh x => Sys2Proof.Machine.execElemMulh x s
  | .elemMad x => Sys2Proof.Machine.execElemMad x s
  | .elemMin x => Sys2Proof.Machine.execElemMin x s
  | .elemMax x => Sys2Proof.Machine.execElemMax x s
  | .elemAnd x => Sys2Proof.Machine.execElemAnd x s
  | .elemOr x => Sys2Proof.Machine.execElemOr x s
  | .elemXor x => Sys2Proof.Machine.execElemXor x s
  | .elemAndn x => Sys2Proof.Machine.execElemAndn x s
  | .elemNot x => Sys2Proof.Machine.execElemNot x s
  | .elemShl x => Sys2Proof.Machine.execElemShl x s
  | .elemShr x => Sys2Proof.Machine.execElemShr x s
  | .elemSar x => Sys2Proof.Machine.execElemSar x s
  | .elemPopc x => Sys2Proof.Machine.execElemPopc x s
  | .elemClz x => Sys2Proof.Machine.execElemClz x s
  | .elemSel x => Sys2Proof.Machine.execElemSel x s
  | .elemFadd x => Sys2Proof.Machine.execElemFadd x s
  | .elemFsub x => Sys2Proof.Machine.execElemFsub x s
  | .elemFmul x => Sys2Proof.Machine.execElemFmul x s
  | .elemFfma x => Sys2Proof.Machine.execElemFfma x s
  | .elemFmin x => Sys2Proof.Machine.execElemFmin x s
  | .elemFmax x => Sys2Proof.Machine.execElemFmax x s
  | .elemFtoi x => Sys2Proof.Machine.execElemFtoi x s
  | .elemItof x => Sys2Proof.Machine.execElemItof x s
  | .elemCeq x => Sys2Proof.Machine.execElemCeq x s
  | .elemCne x => Sys2Proof.Machine.execElemCne x s
  | .elemClt x => Sys2Proof.Machine.execElemClt x s
  | .elemCle x => Sys2Proof.Machine.execElemCle x s
  | .elemCltn x => Sys2Proof.Machine.execElemCltn x s
  | .elemClen x => Sys2Proof.Machine.execElemClen x s
  | .elemFclt x => Sys2Proof.Machine.execElemFclt x s
  | .elemFcle x => Sys2Proof.Machine.execElemFcle x s
  | .elemFceq x => Sys2Proof.Machine.execElemFceq x s
  | .elemFcne x => Sys2Proof.Machine.execElemFcne x s
  | .elemPset x => Sys2Proof.Machine.execElemPset x s
  | .elemPclr x => Sys2Proof.Machine.execElemPclr x s
  | .elemPand x => Sys2Proof.Machine.execElemPand x s
  | .elemPor x => Sys2Proof.Machine.execElemPor x s
  | .elemPnot x => Sys2Proof.Machine.execElemPnot x s
  | .elemSteer x => Sys2Proof.Machine.execElemSteer x s
  | .elemMerge x => Sys2Proof.Machine.execElemMerge x s
  | .elemMergeu x => Sys2Proof.Machine.execElemMergeu x s
  | .elemDrop x => Sys2Proof.Machine.execElemDrop x s
  | .elemEmit x => Sys2Proof.Machine.execElemEmit x s
  | .elemDeq x => Sys2Proof.Machine.execElemDeq x s
  | .elemSclatch x => Sys2Proof.Machine.execElemSclatch x s
  | .elemQuant x => Sys2Proof.Machine.execElemQuant x s
  | .elemAmaxr x => Sys2Proof.Machine.execElemAmaxr x s
  | .elemCnt x => Sys2Proof.Machine.execElemCnt x s
  | .elemAcc x => Sys2Proof.Machine.execElemAcc x s
  | .elemAccrel x => Sys2Proof.Machine.execElemAccrel x s
  | .elemLsel x => Sys2Proof.Machine.execElemLsel x s
  | .commandFetch => Sys2Proof.Machine.execCommandFetch s
  | .launch id => Sys2Proof.Machine.execLaunch id s
  | .copy id => Sys2Proof.Machine.execCopy id s
  | .signalSet id => Sys2Proof.Machine.execSignalSet id s
  | .signalAdd id => Sys2Proof.Machine.execSignalAdd id s
  | .wait id => Sys2Proof.Machine.execWait id s
  | .barrierAnd id => Sys2Proof.Machine.execBarrierAnd id s
  | .placePreload id => Sys2Proof.Machine.execPlacePreload id s
  | .queueDestroy id => Sys2Proof.Machine.execQueueDestroy id s
  | .queueDestroyForce id => Sys2Proof.Machine.execQueueDestroyForce id s
  | .journalMark id => Sys2Proof.Machine.execJournalMark id s
  | .waitReread id => Sys2Proof.Machine.execWaitReread id s
  | .waitTimeout id => Sys2Proof.Machine.execWaitTimeout id s
  | .gridRetire id => Sys2Proof.Machine.execGridRetire id s
  | .copyRetire id => Sys2Proof.Machine.execCopyRetire id s
  | .preloadRetire id => Sys2Proof.Machine.execPreloadRetire id s
  | .doorbell q w => Sys2Proof.Machine.execDoorbell q w s
  | .qctlCreate p q => Sys2Proof.Machine.execQctlCreate p q s
  | .qctlReadRidx p q => Sys2Proof.Machine.execQctlReadRidx p q s
  | .qctlDestroy p q => Sys2Proof.Machine.execQctlDestroy p q s
  | .qctlDestroyForce p q => Sys2Proof.Machine.execQctlDestroyForce p q s
  | .asctlCreate p asid => Sys2Proof.Machine.execAsctlCreate p asid s
  | .asctlUpdate p asid => Sys2Proof.Machine.execAsctlUpdate p asid s
  | .asctlDestroy p asid => Sys2Proof.Machine.execAsctlDestroy p asid s
  | .pooladd p val => Sys2Proof.Machine.execPooladd p val s
  | .tlbinv p val => Sys2Proof.Machine.execTlbinv p val s
  | .tlbinvComplete p => Sys2Proof.Machine.execTlbinvComplete p s
  | .fresumeReplay p fid => Sys2Proof.Machine.execFresumeReplay p fid s
  | .fresumeSkip p fid val => Sys2Proof.Machine.execFresumeSkip p fid val s
  | .fresumeKill p fid => Sys2Proof.Machine.execFresumeKill p fid s
  | .preemptGrid p val => Sys2Proof.Machine.execPreemptGrid p val s
  | .preemptBlock p val => Sys2Proof.Machine.execPreemptBlock p val s
  | .pwrbudget p val => Sys2Proof.Machine.execPwrbudget p val s
  | .csaadd p val => Sys2Proof.Machine.execCsaadd p val s
  | .fqrWrite p val => Sys2Proof.Machine.execFqrWrite p val s
  | .fqbaseWrite p val => Sys2Proof.Machine.execFqbaseWrite p val s
  | .dbgctlWrite p val => Sys2Proof.Machine.execDbgctlWrite p val s
  | .dbgbpWrite p n val => Sys2Proof.Machine.execDbgbpWrite p n val s
  | .dbgcmdHalt p core slot => Sys2Proof.Machine.execDbgcmdHalt p core slot s
  | .dbgcmdResume p core slot => Sys2Proof.Machine.execDbgcmdResume p core slot s
  | .dbgcmdStep p core slot => Sys2Proof.Machine.execDbgcmdStep p core slot s
  | .registerWrite p off val => Sys2Proof.Machine.execRegisterWrite p off val s
  | .blockPlace id die sites => Sys2Proof.Machine.execBlockPlace id die sites s
  | .stealMessage id thief victim => Sys2Proof.Machine.execStealMessage id thief victim s
  | .stealReply thief => Sys2Proof.Machine.execStealReply thief s
  | .blockRetire core blk => Sys2Proof.Machine.execBlockRetire core blk s
  | .loadReturn core n => Sys2Proof.Machine.execLoadReturn core n s
  | .writePerform n => Sys2Proof.Machine.execWritePerform n s
  | .translationResponse core slot ok => Sys2Proof.Machine.execTranslationResponse core slot ok s
  | .walkComplete core asid va => Sys2Proof.Machine.execWalkComplete core asid va s
  | .coherenceRead kit line => Sys2Proof.Machine.execCoherenceRead kit line s
  | .coherenceReadForWrite kit line => Sys2Proof.Machine.execCoherenceReadForWrite kit line s
  | .coherenceEvict kit line => Sys2Proof.Machine.execCoherenceEvict kit line s
  | .homeAtomic core n => Sys2Proof.Machine.execHomeAtomic core n s
  | .windowNotice n => Sys2Proof.Machine.execWindowNotice n s
  | .homeAnswerTimeout line agent => Sys2Proof.Machine.execHomeAnswerTimeout line agent s
  | .patrolScrub addr => Sys2Proof.Machine.execPatrolScrub addr s
  | .eccError what => Sys2Proof.Machine.execEccError what s
  | .copyComplete core n => Sys2Proof.Machine.execCopyComplete core n s
  | .enginePieceFault core n => Sys2Proof.Machine.execEnginePieceFault core n s
  | .tileComplete core tile => Sys2Proof.Machine.execTileComplete core tile s
  | .matrixEntryComplete core n => Sys2Proof.Machine.execMatrixEntryComplete core n s
  | .mmaRoundStart core => Sys2Proof.Machine.execMmaRoundStart core s
  | .drainToken core => Sys2Proof.Machine.execDrainToken core s
  | .regroupShuffle core blk => Sys2Proof.Machine.execRegroupShuffle core blk s
  | .placerComplete core => Sys2Proof.Machine.execPlacerComplete core s
  | .handOver core slot => Sys2Proof.Machine.execHandOver core slot s
  | .iterationAdmit core n => Sys2Proof.Machine.execIterationAdmit core n s
  | .iterationCommit core n => Sys2Proof.Machine.execIterationCommit core n s
  | .memoryNodeAccess core n => Sys2Proof.Machine.execMemoryNodeAccess core n s
  | .loopExit core n => Sys2Proof.Machine.execLoopExit core n s
  | .loopDamp core n why => Sys2Proof.Machine.execLoopDamp core n why s
  | .liveoutWriteback core n => Sys2Proof.Machine.execLiveoutWriteback core n s
  | .channelTokenArrive core n => Sys2Proof.Machine.execChannelTokenArrive core n s
  | .streamToken core n => Sys2Proof.Machine.execStreamToken core n s
  | .streamRound core n => Sys2Proof.Machine.execStreamRound core n s
  | .regionDone core n => Sys2Proof.Machine.execRegionDone core n s
  | .carillonStarve core elem slot => Sys2Proof.Machine.execCarillonStarve core elem slot s
  | .probeSend core elem chan => Sys2Proof.Machine.execProbeSend core elem chan s
  | .probeForward core => Sys2Proof.Machine.execProbeForward core s
  | .countToken core blk => Sys2Proof.Machine.execCountToken core blk s
  | .preemptArrive core blk => Sys2Proof.Machine.execPreemptArrive core blk s
  | .preemptDeadline core blk => Sys2Proof.Machine.execPreemptDeadline core blk s
  | .blockSave core blk => Sys2Proof.Machine.execBlockSave core blk s
  | .blockRestore p n sites => Sys2Proof.Machine.execBlockRestore p n sites s
  | .dbgbpMatch core slot => Sys2Proof.Machine.execDbgbpMatch core slot s
  | .groupHalt core slot => Sys2Proof.Machine.execGroupHalt core slot s
  | .codePageVerify p obj page => Sys2Proof.Machine.execCodePageVerify p obj page s
  | .reset => Sys2Proof.Machine.execReset s
  | .serviceReduced harvest => Sys2Proof.Machine.execServiceReduced harvest s
  | .serviceFull dies => Sys2Proof.Machine.execServiceFull dies s
  | .partitionSetup count signed => Sys2Proof.Machine.execPartitionSetup count signed s
  | .linkTrain link ver width => Sys2Proof.Machine.execLinkTrain link ver width s
  | .linkDown link => Sys2Proof.Machine.execLinkDown link s
  | .attestationRequest p nonce => Sys2Proof.Machine.execAttestationRequest p nonce s
  | .unassignedOp w => Sys2Proof.Machine.execUnassignedOp w s
  | .kitEntersRetention kit => Sys2Proof.Machine.execKitEntersRetention kit s
  | .codeObjectLoad p obj asid base => Sys2Proof.Machine.execCodeObjectLoad p obj asid base s
  | .codeObjectUnload p obj => Sys2Proof.Machine.execCodeObjectUnload p obj s
  | .debuggerRegisterWrite p core slot reg lane val => Sys2Proof.Machine.execDebuggerRegisterWrite p core slot reg lane val s
  | .fxloadLoadEnd core blk rgn => Sys2Proof.Machine.execFxloadLoadEnd core blk rgn s
  | .peerOrHostAccess acc => Sys2Proof.Machine.execPeerOrHostAccess acc s

end Sys2Proof.Machine
end

