-- ==== Sys2Proof/Machine/Fetch.lean ====
section
/-!
DEFINITION. Whose turn it is, and how an instruction is laid where the next step fetches it: a front-end word in code memory, an
element word in a slot of a running region.
-/

namespace Sys2Proof.Machine

/-- The turn at the head of the list, or a free one (assumption 1). -/
def State.turn (s : State) : Config.Turn × State :=
  match s.turns with
  | t :: r => (t, { s with turns := r })
  | [] => (Config.freeTurn s.tick, { s with tick := s.tick + 1 })

/-- Whether an instruction is an operation or event of the device, and no word that a front end or an element holds. -/
def isEvent (i : Instr) : Bool :=
  match encode i with
  | .noWord => true
  | _ => false

/-- The page entry that maps the placed code: COMMITTED, with R, W and X, at physical address 0 (R215). -/
def placedEntry : Dword := 0xE2

/-- A group of 32 threads at PC 0 with valid last-result slots. -/
def placedGroup : Group :=
  { st := .running
    home := some 0
    m := 0xFFFFFFFF
    y0v := true
    y1v := true
    tids := (List.range 32).map (fun l => (l, l + 1)) }

/-- A block of 32 threads that may name every register. -/
def placedBlock : Block :=
  { kd := { regs := 256, block := 32, l1slice := 64, shares := 1 }
    bx := 32
    n := 1
    slots := [0]
    ngrp := 1
    threads := (List.range 32).map (fun t => (t, { live := true, slot := 0, lane := t })) }

/-- A front-end word at address 0 of a block that runs on core 0, in an address space that maps it, in a partition that holds a die, and the
front end's turn. -/
def State.placeWord (s : State) (w : Nat) : State :=
  let s1 := s.wr 0 8 w
  let p := s1.part 0
  { s1 with
    turns := [.issue 0]
    cores := SMap.set {} s1.cores 0 { (s1.core 0) with
      groups := [(0, placedGroup)]
      blocks := [(0, placedBlock)]
      lastIssued := none }
    parts := SMap.set {} s1.parts 0 { p with
      dies := if p.dies = [] then [0] else p.dies
      dbgctl := 0
      objects := [] }
    tlb := [{ level := 0, owner := 0, asid := 0, va := 0, bytes := 65536, entry := placedEntry }]
    dir := SMap.del s1.dir 0
    poisoned := s1.poisoned.filter (fun k => 8 ≤ k) }

/-- The head that an input channel gets for a word to fire: a scale where the source or the HEAD test asks for one, every END bit. -/
def placedToken (m : ElemForm) (x : ElemWord) (n : Nat) : Token :=
  let scale := (m.kind == .scaleA && n == x.sa.toNat) || (m.kind == .scaleB && n == x.sb.toNat && n != x.sa.toNat) ||
    (x.gd.toNat % 4 == 2 && n == x.sa.toNat)
  tokenOf (hdrOf scale 0 0 0 15 0xFF) (fun _ => 0)

/-- An element word in slot 0 of the element at (0, 0) of a running region of core 0, with a token in each channel, the guard's
predicate at the tested value, and the element's turn. -/
def State.placeSlot (s : State) (w : Nat) : State :=
  let v := BitVec.ofNat 32 w
  let x := elemFields v
  let m := elemForm (slotOp v)
  let c := s.core 0
  let t : Ctx :=
    { ep := if x.gd.getLsbD 3 && gdPred x.gd != 7 then [(gdPred x.gd, 0xFF)] else []
      ardy := slotOp v == 0x36
      ahdr := 0xFF }
  let e : Element :=
    { slots := SMap.set 0x0377C070 [] 0 v
      chans := (List.range 4).map (fun n => (n, { q := [placedToken m x n] }))
      ctxs := SMap.set {} [] 0 t
      owner := 1 }
  { s with
    turns := [.element 0 0]
    cores := SMap.set {} s.cores 0 { c with
      elems := SMap.set {} c.elems 0 e
      placed := SMap.set {} c.placed 0 { region := some .running } } }

end Sys2Proof.Machine
end

