-- ==== Sys2Proof/Machine/Turn.lean ====
section
/-!
DEFINITION. One turn of a front end: which groups have their next word at hand and a pipe that accepts it (R27), and the word that issues.
-/

namespace Sys2Proof.Machine

/-- Whether a form reads its destination: QCVT keeps the other half of it, and a dot form adds to it (R155, R165, R166). -/
def readsD : Instr → Bool
  | .qcvt _ | .dot2h _ | .dot2b _ | .dot4i _ | .dot8i _ | .dot4e _ | .dot8e _ | .idp2 _ => true
  | _ => false

/-- The v and w registers that a word reads. -/
def readCodes (i : Instr) : List Nat :=
  ((form i).uses.filter (fun u => !u.dst || readsD i)).flatMap (fun u => match u.o with
    | .xl n => [n.toNat]
    | _ => useCodes u)

/-- Whether a word of a group reads the status of a load that has not ended (R400). REGROUP and REGROUPB move every register. -/
def Group.readsLoading (g : Group) (i : Instr) : Bool :=
  g.loads.any (fun q => match i with
    | .regroup _ | .regroupb _ => true
    | _ => (useCodes (dst q.2)).any (readCodes i).contains)

/-- Whether the next word of a group is at hand and its pipe can accept it (R27): the word is fetched, it reads no status of a load under
way, and executing it would not leave it waiting at issue. -/
def State.accepts (s : State) (core i : Nat) : Bool :=
  match s.fetchFor core i with
  | .held => false
  | .word w =>
    match decodeWord w with
    | .ok x =>
      s.bpMatch core i || !(s.group core i).readsLoading x && (match exec x (s.issuingAs core i) with
        | .next t => !t.stalled
        | _ => true)
    | .error _ => true
  | _ => true

/-- One turn of the front end of a core: groups whose words JOIN awaits become RUNNING, and one eligible group issues its word. -/
def State.frontTurn (s : State) (core : Nat) : Issue :=
  let s1 := s.fetchJoins core
  s1.issue core (s1.accepts core)

end Sys2Proof.Machine
end

