-- ==== Sys2Proof/Machine/Step.lean ====
section
/-!
DEFINITION. One step: the turn of one agent.
-/

namespace Sys2Proof.Machine

/-- One step of the machine. A front end issues at most one word, an element fires at most one slot, or one operation or event of the
device happens. -/
def step (s : State) : Host.Outcome State Fault Refusal :=
  match s.turn with
  | (.issue core, s1) =>
    match s1.frontTurn core with
    | .idle s2 => .next s2
    | .run i s2 => exec i s2
    | .bad w s2 => execUnassignedOp w s2
    | .absent => .fault .absentMemory
  | (.element core e, s1) =>
    match s1.elementTurn core e with
    | .idle s2 => .next s2
    | .fires op x s2 => s2.fire (elemForm op) x
  | (.event i, s1) => if isEvent i then exec i s1 else .next s1

/-- The state with one instruction stored where the next step fetches it: `nbits` bits whose value is `w`. -/
def State.withFetchWord (s : State) (nbits w : Nat) : State :=
  if nbits = 32 then s.placeSlot w else s.placeWord w

end Sys2Proof.Machine
end

