-- ==== Sys2Proof/Safety.lean ====
section
/-!
DEFINITION. What claims speak of: the group that issues, when a word passes the front end's checks, what registers, y slots and memory hold
after a word, and the canonical form of memory.
-/

namespace Sys2Proof.Machine

/-! ## The group that issues -/

/-- The group that issues in a state. -/
def State.cur (s : State) : Group := s.group s.curCore s.curSlot
/-- The block of the group that issues. -/
def State.curBlock (s : State) : Block := (s.core s.curCore).block s.cur.blk
/-- Whether a word passes the checks of R60: its fields are legal, its v registers lie below `.regs`, the service state has the form, and
it names no invalid y slot. -/
def State.passes (s : State) (i : Instr) : Bool :=
  (form i).ok && (form i).uses.all (·.ok) && !(form i).uses.any (aboveRegs s.curBlock.kd.regs) && !s.refuses i &&
  (yFault s.cur (form i).uses).isNone
/-- The lanes in which a guard lets a word act (R51). -/
def State.actOf (s : State) (x : Guard) : Mask := s.cur.act x
/-- The lowest lane in which a guard lets a word act. -/
def State.lowOf (s : State) (x : Guard) : Nat := lowest (s.actOf x)

/-! ## What a word leaves -/

/-- A stored register of a lane: file 0 v, 1 w, otherwise p as 0 or 1. -/
def Group.stored (g : Group) (file r l : Nat) : Word :=
  match file with
  | 0 => SMap.get 0 g.v (vkey r l)
  | 1 => SMap.get 0 g.w (vkey r l)
  | _ => boolWord ((SMap.get 0 g.p r).getLsbD l)

/-- Whether a destination of `n` registers covers register `r` of a file; p7 and the discard code cover none (R53). -/
def spanHas (d : Opnd) (n file r : Nat) : Bool :=
  match d, file with
  | .v i, 0 => decide (i.toNat ≤ r) && decide (r < i.toNat + n)
  | .w i, 1 => decide (i.toNat ≤ r) && decide (r < i.toNat + n)
  | .p i, _ + 2 => i != 7 && r == i.toNat
  | _, _ => false

/-- The place of a register in a destination. -/
def spanAt (d : Opnd) (r : Nat) : Nat :=
  match d with
  | .v i => r - i.toNat
  | .w i => r - i.toNat
  | _ => 0

/-- What a destination stores of a value: a predicate stores bit 0 (R53, R92). -/
def storedOf (d : Opnd) (x : Word) : Word :=
  match d with
  | .p _ => boolWord (x.getLsbD 0)
  | _ => x

/-- The registers after a result of `n` words in the lanes of `act`: those hold it, every other register of every lane is unchanged. -/
def RegsAfter (g t : Group) (act : Mask) (d : Opnd) (n : Nat) (f : Nat → Nat → Word) : Prop :=
  ∀ file r l, l < 32 → t.stored file r l =
    if spanHas d n file r = true ∧ act.getLsbD l = true then storedOf d (f (spanAt d r) l) else g.stored file r l

/-- Every byte of memory reads as before. -/
def MemorySame (s t : State) : Prop := ∀ a, SMap.get 0 t.mem a = SMap.get 0 s.mem a

/-- Nothing but the issuing group changes, and of it nothing but its v, w and p registers, its y slots and its PC, which moves to the
next word. -/
def RegisterStep (s t : State) : Prop :=
  t = s.setGroup s.curCore s.curSlot t.cur ∧ MemorySame s t ∧
  t.cur = { s.cur with
    v := t.cur.v
    w := t.cur.w
    p := t.cur.p
    y0 := t.cur.y0
    y1 := t.cur.y1
    y0v := t.cur.y0v
    y1v := t.cur.y1v
    pc := s.cur.pc + 8 }

/-- The y slots after a 32-bit result (R75): a word with the guard that never holds pushes nothing. -/
def Pushed32 (g t : Group) (x : Guard) (act : Mask) (d : Opnd) (f : Nat → Word) : Prop :=
  if guardNever x then t.y0 = g.y0 ∧ t.y1 = g.y1 ∧ t.y0v = g.y0v ∧ t.y1v = g.y1v
  else t.y1 = g.y0 ∧ t.y1v = g.y0v ∧ t.y0v = true ∧
    ∀ l, l < 32 → SMap.get 0 t.y0 l = if act.getLsbD l then f l else t.holds d l

/-- The y slots after a 64-bit result: y1 the low half, y0 the high half (R75). -/
def Pushed64 (g t : Group) (x : Guard) (act : Mask) (d : Opnd) (f : Nat → Dword) : Prop :=
  if guardNever x then t.y0 = g.y0 ∧ t.y1 = g.y1 ∧ t.y0v = g.y0v ∧ t.y1v = g.y1v
  else t.y0v = true ∧ t.y1v = true ∧
    ∀ l, l < 32 → SMap.get 0 t.y1 l = (if act.getLsbD l then (f l).setWidth 32 else t.holdsWord d 0 l) ∧
      SMap.get 0 t.y0 l = (if act.getLsbD l then (f l).extractLsb' 32 32 else t.holdsWord d 1 l)

/-- Word `i` of a 64-bit value. -/
def wordOf (x : Dword) (i : Nat) : Word := if i = 0 then x.setWidth 32 else x.extractLsb' 32 32

/-- A word of a register form has executed: `d` holds `f` in the lanes of ACT, y is pushed, and nothing else changes but the PC. -/
def Result32 (s t : State) (x : Guard) (d : Opnd) (f : Nat → Word) : Prop :=
  RegisterStep s t ∧ RegsAfter s.cur t.cur (s.actOf x) d 1 (fun _ l => f l) ∧ Pushed32 s.cur t.cur x (s.actOf x) d f

/-- The same with a 64-bit result in a register pair. -/
def Result64 (s t : State) (x : Guard) (d : Opnd) (f : Nat → Dword) : Prop :=
  RegisterStep s t ∧ RegsAfter s.cur t.cur (s.actOf x) d 2 (fun i l => wordOf (f l) i) ∧ Pushed64 s.cur t.cur x (s.actOf x) d f

/-- A word that changes its group in one way, known whole, and nothing else. -/
def GroupStep (s t : State) (g : Group) : Prop := t = s.setGroup s.curCore s.curSlot g ∧ MemorySame s t

/-- A 32-bit source of the issuing group in a lane (R53). -/
def State.src (s : State) (o : Opnd) (l : Nat) : Word := s.cur.rd o l
/-- A source of a two-source form, which may name another lane (R55, R95). -/
def State.srcX (s : State) (c : BitVec 10) (o : Opnd) (l : Nat) : Word := s.cur.rdX c o l
/-- A 64-bit source. -/
def State.src64 (s : State) (o : Opnd) (l : Nat) : Dword := s.cur.rd64 o l

/-! ## Results with more than registers -/

/-- Nothing but the issuing group changes, and of it nothing but its v, w and p registers, its y slots, AMAX, its stochastic-rounding
states and its PC, which moves to the next word. -/
def QuantStep (g t : Group) : Prop :=
  t = { g with
    v := t.v
    w := t.w
    p := t.p
    y0 := t.y0
    y1 := t.y1
    y0v := t.y0v
    y1v := t.y1v
    amax := t.amax
    srseed := t.srseed
    pc := g.pc + 8 }

/-- The stochastic-rounding states after `n` elements of each lane of ACT: they step in mode .sr only (R125). -/
def SeedsAfter (g t : Group) (m : BitVec 12) (act : Mask) (n : Nat) : Prop :=
  ∀ l, l < 32 → t.seed l = if fldM m 9 3 = 5 ∧ act.getLsbD l = true then lfsrSteps n (g.seed l) else g.seed l

/-- AMAX is unchanged in every lane. -/
def AmaxSame (g t : Group) : Prop := ∀ l, l < 32 → t.amaxOf l = g.amaxOf l

/-- The y slots are unchanged. -/
def YSame (g t : Group) : Prop := t.y0 = g.y0 ∧ t.y1 = g.y1 ∧ t.y0v = g.y0v ∧ t.y1v = g.y1v

/-- A 32-bit result in the registers and y slots of a group. -/
def Wrote32 (g t : Group) (x : Guard) (act : Mask) (d : Opnd) (f : Nat → Word) : Prop :=
  RegsAfter g t act d 1 (fun _ l => f l) ∧ Pushed32 g t x act d f
/-- A 64-bit result in the registers and y slots of a group. -/
def Wrote64 (g t : Group) (x : Guard) (act : Mask) (d : Opnd) (f : Nat → Dword) : Prop :=
  RegsAfter g t act d 2 (fun i l => wordOf (f l) i) ∧ Pushed64 g t x act d f
/-- A quad in the registers of a group; it pushes nothing (R75). -/
def Wrote128 (g t : Group) (act : Mask) (d : Opnd) (f : Nat → Nat → Word) : Prop :=
  RegsAfter g t act d 4 f ∧ YSame g t

/-- A quad result: nothing but the destination and the PC changes. -/
def Result128 (s t : State) (x : Guard) (d : Opnd) (f : Nat → Nat → Word) : Prop :=
  RegisterStep s t ∧ Wrote128 s.cur t.cur (s.actOf x) d f

/-- Nothing but the issuing group's k registers, y slots and PC changes. -/
def KStep (s t : State) : Prop :=
  t = s.setGroup s.curCore s.curSlot t.cur ∧ MemorySame s t ∧
  t.cur = { s.cur with
    k := t.cur.k
    y0 := t.cur.y0
    y1 := t.cur.y1
    y0v := t.cur.y0v
    y1v := t.cur.y1v
    pc := s.cur.pc + 8 }

/-- The k registers after a result of `n` words at register `i`, written where `hit`. -/
def KAfter (g t : Group) (hit : Bool) (i n : Nat) (f : Nat → Word) : Prop :=
  ∀ r, t.kreg r = if hit = true ∧ i ≤ r ∧ r < i + n then f (r - i) else g.kreg r

/-- The count tokens that a block gets for SATN and NANN: a count of 0 gives none (R423). -/
def countTokens (sat nan : Nat) : List (Nat × Nat) :=
  (if sat = 0 then [] else [(0, sat)]) ++ (if nan = 0 then [] else [(1, nan)])

/-! ## Memory -/

/-- The canonical form of a memory: addresses strictly rising, and no entry equal to what an unlisted address reads as. -/
abbrev Memory.wf (m : List Host.Cell) : Bool := SMap.wf (0 : Byte) m

/-- The memory of the device is in canonical form. -/
def State.memoryWf (s : State) : Prop := Memory.wf s.mem = true

/-- Nothing but the issuing group changes, and no byte of memory. -/
def CurStep (s t : State) : Prop := t = s.setGroup s.curCore s.curSlot t.cur ∧ MemorySame s t

/-- Nothing changes but the issuing group, the bytes of memory and what memory keeps of its lines: directory, poison, notices, pending
writes, the kits in retention and the count of lines that miss in a kit's slices (R426). -/
def MemStep (s t : State) : Prop :=
  ∃ kit lines, t = { (s.countMisses kit lines).setGroup s.curCore s.curSlot t.cur with
    mem := t.mem
    dir := t.dir
    poisoned := t.poisoned
    notices := t.notices
    writes := t.writes
    retention := t.retention }

/-- Of a group, only v, w and p registers, y slots and the PC change. -/
def GroupRegs (g t : Group) : Prop :=
  t = { g with
    v := t.v
    w := t.w
    p := t.p
    y0 := t.y0
    y1 := t.y1
    y0v := t.y0v
    y1v := t.y1v
    pc := g.pc + 8 }

/-- A byte after cells of a key, a byte count and a value have been written in list order, little-endian (R3). -/
def storedByte (cells : List (Nat × Nat × Nat)) (a : Nat) (old : Byte) : Byte :=
  cells.foldl (fun b c => if c.1 ≤ a ∧ a < c.1 + c.2.1 then BitVec.ofNat 8 (c.2.2 / 256 ^ (a - c.1)) else b) old

/-- A store: the group moves on, the bytes of the cells hold their values, every other byte reads as before. -/
def Stored (s t : State) (cells : List (Nat × Nat × Nat)) : Prop :=
  MemStep s t ∧ t.cur = s.cur.next ∧ ∀ a, SMap.get 0 t.mem a = storedByte cells a (SMap.get 0 s.mem a)

/-- An ordered access has nothing to wait for: no write of its block's groups, and no write that they have read or that happens before them
(R234, R298, assumption 96). -/
def State.ordOk (s : State) (ord scope : Nat) : Bool :=
  ord == 0 || !(s.unperformed s.curCore s.curBlock scope || s.unseen s.curCore s.curBlock.slots scope)

/-- An acquire meets no notice of the bytes that it reads (R276, R279). -/
def State.acqOk (s : State) (ord scope : Nat) (cells : List (Nat × Nat)) : Bool :=
  !(ord % 2 == 1 && s.notices.any (fun n => n.owed s.curCore scope && n.about cells))

/-- An arrival of the issuing group has nothing to wait for (R279). -/
def State.arrivesOk (s : State) (scope : Nat) : Bool :=
  !s.unperformedBy s.curCore [s.curSlot] scope && !s.unseen s.curCore [s.curSlot] scope

/-- Where a lane's access leads (R231, R232). -/
def State.reachCur (s : State) (need : Need) (n va : Nat) : Xlat := s.reach s.curCore s.curBlock need n va

/-- Whether a lane's access needs neither a fault nor a wait: it reaches memory whose line no engine operation claims, and where it reads,
no poisoned word; or it reads as zero; or its lane holds a helper thread, whose failure is suppressed (R18, R232, R299, R304). A lane whose
translation is outstanding waits, a helper's too. -/
def Xlat.fine (s : State) (n : Nat) (reads helper : Bool) : Xlat → Bool
  | .at k => (s.dirEntry (lineOf k)).eq.isEmpty && !(reads && s.poisonAt k n)
  | .zero => true
  | .bad _ _ | .absent => helper
  | .wait | .held => false

/-- The same for every lane of a mask. -/
def State.lanesOk (s : State) (m : Mask) (n : Nat) (reads : Bool) (f : Nat → Xlat) : Bool :=
  (lanesOf m).all (fun l => (f l).fine s n reads ((s.cur.helpers s.curBlock).getLsbD l))

/-- Whether a lane of a mask reaches host or peer memory. -/
def outsideLane (m : Mask) (f : Nat → Xlat) : Bool := (lanesOf m).any (fun l => match f l with | .at k => keyTgt k != 0 | _ => false)

/-- What a lane reads: 0 where it has no key. -/
def State.readAt (s : State) (n : Nat) (x : Xlat) : Nat :=
  match x with
  | .at k => s.rd k n
  | _ => 0

/-- The value of a load by its size, in the registers of a group: a pair, a quad, or a register with EXT (R230, R75). -/
def WroteLoad (g t : Group) (x : Guard) (act : Mask) (d : Opnd) (m : BitVec 12) (v : Nat → Nat) : Prop :=
  match mmBytes m with
  | 16 => Wrote128 g t act d (fun i l => BitVec.ofNat 32 (v l / 2 ^ (32 * i)))
  | 8 => Wrote64 g t x act d (fun l => BitVec.ofNat 64 (v l))
  | _ => Wrote32 g t x act d (fun l => BitVec.ofNat 32 (extend m (v l)))

/-- The issuing group waits for a reply, and its core holds the request (R293, R339). -/
def Requested (s t : State) (x : Guard) (w : ReqWork) : Prop :=
  MemorySame s t ∧ t.cur = { s.cur with st := .waiting .reply } ∧
  ∃ n, (t.core t.curCore).requests = (s.core s.curCore).requests ++
    [{ id := n, gen := (s.core s.curCore).gen, slot := s.curSlot, blk := s.cur.blk, x, act := s.actOf x, work := w }]

/-- The lanes of a mask that go on to perform, with their keys. -/
def keysOf (m : Mask) (f : Nat → Xlat) : List (Nat × Option Nat) := ((lanesOf m).filter (fun l => (f l).goes)).map (fun l => (l, (f l).key))

/-- The state after the issuing group's reads of some lanes' bytes have reached the homes of their lines (R283, R297). -/
def State.readBy (s : State) (ch n : Nat) (lanes : List (Nat × Option Nat)) : State := s.loadLines s.curCore s.curSlot ch (laneCells lanes n)

/-- An atomic form as a statement lists it: its word, guard, operation, S, address, destination, modifiers, operand and compare value. -/
structure AtomicForm where
  i : Instr
  g : Guard
  op : AtOp
  signed : Bool
  a : Opnd
  d : Opnd
  m : BitVec 12
  b : Nat → Nat
  c : Nat → Nat

/-- No other group of any core changes. -/
def OthersSame (s t : State) : Prop := ∀ c i, (c, i) ≠ (s.curCore, s.curSlot) → t.group c i = s.group c i

/-! ## Scratchpad -/

/-- A lane's scratchpad access needs neither a fault nor a wait (R260, R267, R288, R346). -/
def State.localFine (s : State) (k : LocalKind) (n : Nat) (helper : Bool) (a : Nat) : Bool :=
  let r := (s.localReach s.curCore s.cur.blk k n a).2
  r.fine s 32 false helper && (!r.goes || (!s.destWait s.curCore s.cur.blk n a &&
    (k != .load || !s.staleAt s.curCore s.curSlot s.cur.blk n a)))

/-- The lanes of a mask whose scratchpad accesses go on, with the keys of their fills. -/
def State.localKeys (s : State) (m : Mask) (k : LocalKind) (n : Nat) (addr : Nat → Nat) : List (Nat × Option Nat) :=
  keysOf m (fun l => (s.localReach s.curCore s.cur.blk k n (addr l)).2)

/-- The state after the windows' sectors that an access needs have been filled by plain loads of the group (R267, R297). -/
def State.filled (s : State) (m : Mask) (k : LocalKind) (n : Nat) (addr : Nat → Nat) : State :=
  (s.fillAll s.curCore s.cur.blk n addr (s.localKeys m k n addr)).loadLines s.curCore s.curSlot 0 (laneCells (s.localKeys m k n addr) 32)

/-- No lane of a mask needs a fault or a wait, and no access that reads meets a poisoned word, one that the fills bring in included (R304). -/
def State.localOk (s : State) (m : Mask) (k : LocalKind) (n : Nat) (addr : Nat → Nat) : Bool :=
  (lanesOf m).all (fun l => s.localFine k n ((s.cur.helpers s.curBlock).getLsbD l) (addr l)) &&
  (k == .store || (s.localKeys m k n addr).all (fun p => !(s.filled m k n addr).localPoison s.curCore s.cur.blk n (addr p.1)))

/-- The state in which a scratchpad load of the issuing group reads. -/
def State.localRun (s : State) (m : Mask) (k : LocalKind) (n : Nat) (addr : Nat → Nat) : State :=
  (s.filled m k n addr).localTaken s.curCore s.curSlot s.cur.blk k n addr ((s.localKeys m k n addr).map (·.1))

/-- The cells that the lanes of a mask store in the scratchpad of a core. -/
def State.localCells (s : State) (m : Mask) (n : Nat) (addr v : Nat → Nat) (core : Nat) : List (Nat × Nat × Nat) :=
  (lanesOf m).filterMap (fun l => match s.spot s.curCore s.cur.blk (addr l) n with
    | .ok p => if p.core = core ∧ addr l % n = 0 then some (s.scratchKey p.core p.blk p.off, n, v l) else none
    | .bad _ => none)

/-! ## Engines and the matrix queue -/

/-- Copy operations have been entered: the group moves on, its tag has risen by their number (R342, R343), and a CPYP's tag is noted as one
that reaches peers (R346); each operation has a new number and holds the ranges it reads and writes. -/
def Copied (s t : State) (tag : Nat) (peer : Bool) (l : List (List (EAddr × Nat) × List (EAddr × Nat))) : Prop :=
  let g := if peer then { s.cur with peerTags := s.cur.peerTags ||| (1#8 <<< tag) } else s.cur
  MemorySame s t ∧ OthersSame s t ∧ t.cur = (g.setTag tag (g.tag tag + BitVec.ofNat 16 l.length)).next ∧
  ∃ id, (∀ o ∈ (s.core s.curCore).copyq, o.id < id) ∧ (t.core s.curCore).copyq = (s.core s.curCore).copyq ++ l.mapIdx (fun i q =>
    { id := id + i, inst := id, blk := s.cur.blk, slot := s.curSlot, tag, pc := s.cur.pc, reads := q.1, writes := q.2, peer, done := 0,
      susp := none })

/-- The copy queue and the tag counter have room for `n` operations. -/
def State.copyRoom (s : State) (tag n : Nat) : Prop :=
  (s.core s.curCore).copyInsts < 64 ∧ (s.cur.tag tag).toNat + n ≤ 65535

/-- A memory tile instruction has been entered: the group moves on, MTC has risen, and the tile with fewer queued holds it (R353, R356). -/
def Tiled (s t : State) (reads writes : List (EAddr × Nat)) (kind : TileKind) : Prop :=
  MemorySame s t ∧ OthersSame s t ∧ t.cur = { s.cur with
    mtc := s.cur.mtc + 1
    pc := s.cur.pc + 8 } ∧
  ∃ id tile, (tile = 0 ∨ tile = 1) ∧ (t.core s.curCore).tileq = (s.core s.curCore).tileq ++
    [{ id, blk := s.cur.blk, slot := s.curSlot, tile, reads, writes, kind }]

/-- The queues of both memory tiles and MTC have room. -/
def State.tileRoom (s : State) : Prop :=
  s.cur.mtc ≠ 255 ∧ ∀ q, ((s.core s.curCore).tileq.filter (fun o => o.tile == q)).length < 8

/-- Work has entered the matrix queue for the issuing group, which moves on (R309). -/
def Entered (s t : State) (work : MatWork) : Prop :=
  MemorySame s t ∧ OthersSame s t ∧ t.cur = s.cur.next ∧
  ∃ id, (t.core s.curCore).matq = (s.core s.curCore).matq ++
    [{ id, blk := s.cur.blk, signers := [s.curSlot], work, started := false, half := false }]

/-! ## Regions, elements and events -/

/-- No group of any core changes. -/
def GroupsSame (s t : State) : Prop := ∀ c i, t.group c i = s.group c i

/-- A write of the hub to `n` bytes at a key performs at once, and no window hears of it. -/
abbrev State.hubQuiet (s : State) (k n : Nat) : Prop :=
  s.hubWaits k n = false ∧ (∀ l ∈ linesAt k n, (s.dirEntry l).ws = []) ∧ ∀ q ∈ s.notices, q.write ≠ s.freshWrite

/-- Every byte of memory outside `n` bytes at a key reads as before. -/
def MemoryBut (s t : State) (k n : Nat) : Prop := ∀ a, (a < k ∨ k + n ≤ a) → SMap.get 0 t.mem a = SMap.get 0 s.mem a

/-- The ranges of memory that a group reads, page by page. -/
def State.pagesOf (s : State) (va n : Nat) : List (EAddr × Nat) :=
  (splitPages va n).map (fun p => (match s.reachCur .read 1 p.1 with
    | .at k => EAddr.mem k
    | _ => EAddr.zero, p.2))
/-- Whether a group can read `n` bytes at an address at once: every page is readable, no line is claimed, no word is poisoned. -/
def State.pagesOk (s : State) (va n : Nat) : Bool :=
  (splitPages va n).all (fun p => match s.reachCur .read 1 p.1 with
    | .at _ | .zero => true
    | _ => false) &&
  (linesOf (s.pagesOf va n)).all (fun l => (s.dirEntry l).eq.isEmpty) && (s.poisonIn s.curCore s.cur.blk (s.pagesOf va n)).isNone
/-- The bytes that it reads. -/
def State.pageBytes (s : State) (va n : Nat) : List Byte := (s.pagesOf va n).flatMap (s.rangeBytes s.curCore s.cur.blk)

/-- A d register of a trigger context in a lane of eight. -/
def Ctx.dreg (t : Ctx) (r l : Nat) : Word := SMap.get 0 t.d (8 * r + l)

/-- Tokens that an element sends, with where they go, in order. -/
def Firing.sent (f : Firing) (l : List (Nat × Token)) : List (Dest × Token) := l.filterMap (fun q => (f.out q.1).map (fun d => (d, q.2)))

/-- A slot may fire and meets no fault of R185 or R192. -/
def ElemForm.goes (m : ElemForm) (f : Firing) (r : Effect) : Prop :=
  m.ready f = some r ∧ m.typeFault f = none ∧ m.stickyFault f r.deqs = none

/-- No element but one changes. -/
def ElemsSame (s t : State) (core elem : Nat) : Prop := ∀ c i, (c, i) ≠ (core, elem) → (t.core c).elem i = (s.core c).elem i

/-- No group but one changes. -/
def GroupsBut (s t : State) (core slot : Nat) : Prop := ∀ c i, (c, i) ≠ (core, slot) → t.group c i = s.group c i

/-- Whether every lane of a node's access passes its checks and meets no claimed line, no sector that an engine writes or whose window is to
learn of a write, and no poison, and an acquire meets no notice of what it reads. -/
def NodeTurn.fine (t : NodeTurn) : Bool :=
  let n := mmBytes t.d.mm
  let m := if t.d.opc < 0xC0 then n else 32
  let reads := decide (t.d.opc < 0xC0) && nodeOpClass t.d.opc != 2
  let keys := t.d.lanes.map (fun l => (l, (t.reach l).2.key))
  t.d.lanes.all (fun l => (t.reach l).2.fine t.s m reads false && !t.poisoned (t.filled keys) l &&
    !(decide (0xC0 ≤ t.d.opc ∧ t.d.opc < 0xC8) && t.localHeld n (t.d.addr l))) &&
  !(mmOrd t.d.mm % 2 == 1 && t.s.notices.any (fun q => q.owed t.core (mmScp t.d.mm) &&
    q.about (laneCells keys n)))
/-- The lanes of a node's access with their keys. -/
def NodeTurn.keys (t : NodeTurn) : List (Nat × Option Nat) := t.d.lanes.map (fun l => (l, (t.reach l).2.key))

/-- Elements that a stream engine's next token holds. -/
def Node.take (d : Node) : Nat := min 8 (d.extent 0 - d.pos.getD 0 0)
/-- Where element `l` of it lies. -/
def NodeTurn.element (t : NodeTurn) (l : Nat) : Xlat :=
  if t.d.space = 0 then t.s.reach t.core t.b .read 4 (t.d.streamAddr l) else (t.s.localReach t.core t.p.blk .load 4 (t.d.streamAddr l)).2
/-- Its elements with their keys. -/
def NodeTurn.elements (t : NodeTurn) : List (Nat × Option Nat) := (List.range t.d.take).map (fun l => (l, (t.element l).key))
/-- The state after a stream engine's read of them has reached the homes of their lines, its windows' sectors filled (R267, R297). -/
def NodeTurn.streamRead (t : NodeTurn) : State :=
  let s1 := if t.d.space = 0 then t.s else t.s.fillAll t.core t.p.blk 4 t.d.streamAddr t.elements
  s1.loadLines t.core (nodeSlot t.pi t.ni) 0 (laneCells t.elements (if t.d.space = 0 then 4 else 32))
/-- Whether each passes its checks and meets no claimed line, no sector that an engine writes or whose window is to learn of a write, and no
poison. -/
def NodeTurn.streams (t : NodeTurn) : Bool :=
  (List.range t.d.take).all (fun l => (t.element l).fine t.s (if t.d.space = 0 then 4 else 32) (t.d.space == 0) false &&
    (t.d.space == 0 || !(t.streamHeld (t.d.streamAddr l)) && !(t.streamRead.localPoison t.core t.p.blk 4 (t.d.streamAddr l))))

/-- A command has left the set of unfinished commands, with a journal record at least; no group changes. -/
def Finished (s t : State) (id : Nat) : Prop := t.hasCommand id = false ∧ s.jhead < t.jhead ∧ GroupsSame s t

/-- A queue that was ACTIVE is in ERROR. -/
def Erred (s t : State) (q : Nat) : Prop := (s.queue q).st = .active → (t.queue q).st = .error

/-- Whether the counter of a condition can be read, and its value then (R330). -/
def State.counterAt (s : State) (part asid a : Nat) : Option Nat :=
  match s.hubReach part asid .read a 8 with
  | .ok l => some (natOf (s.hubBytes l))
  | _ => none

/-- Whether a value meets a condition (R330). -/
def condHolds (q : Nat × Nat × Bool) (x : Nat) : Bool := if q.2.2 then x == q.2.1 else decide (q.2.1 ≤ x)

end Sys2Proof.Machine
end

