-- ==== Sys2Proof/Certificates/Slice0/Obligations.lean ====
section
/-!
DEFINITION. The statements for the provers. "Passes" is the check of R60; an instruction's result is stated in the lanes of ACT, with the
frame of what it leaves unchanged.
-/

open Sys2Proof Sys2Proof.Machine

/-! ## Register forms -/

/-- Integer, bit and address forms with a 32-bit result (R92 to R115): each completes, D holds the rule's value in the lanes of ACT, and
nothing else changes but y and the PC. -/
def Obligations.IntegerResults : Prop :=
  ∀ (x : FmtR) (x3 : FmtR3) (xi : FmtI) (s : State),
    let a := s.srcX x.c x.a
    let b := s.srcX x.c x.b
    let u := s.src x.a
    let a3 := s.src x3.a
    let b3 := s.src x3.b
    let c3 := s.src x3.c
    let two : List (Instr × (Nat → Word)) :=
      [(.iadd x, fun l => addSub 32 (mS x.m) (mSat x.m) false (a l) (b l)),
       (.isub x, fun l => addSub 32 (mS x.m) (mSat x.m) true (a l) (b l)),
       (.imul x, fun l => a l * b l),
       (.imulh x, fun l => (BitVec.ofInt 64 (extInt (mS x.m) (a l) * extInt (mS x.m) (b l))).extractLsb' 32 32),
       (.idiv x, fun l => divWord (mS x.m) (a l) (b l)),
       (.irem x, fun l => remWord (mS x.m) (a l) (b l)),
       (.imin x, fun l => if extInt (mS x.m) (b l) < extInt (mS x.m) (a l) then b l else a l),
       (.imax x, fun l => if extInt (mS x.m) (a l) < extInt (mS x.m) (b l) then b l else a l),
       (.iabs x, fun l => satMin (mSat x.m) (u l).toInt.natAbs),
       (.ineg x, fun l => satMin (mSat x.m) (-(u l).toInt)),
       (.and x, fun l => a l &&& b l),
       (.or x, fun l => a l ||| b l),
       (.xor x, fun l => a l ^^^ b l),
       (.andn x, fun l => a l &&& ~~~(b l)),
       (.not x, fun l => ~~~(u l)),
       (.shl x, fun l => shlWord (x.m.getLsbD 9) (a l) (b l)),
       (.shr x, fun l => shrWord (x.m.getLsbD 9) (a l) (b l)),
       (.sar x, fun l => sarWord (x.m.getLsbD 9) (a l) (b l)),
       (.rot x, fun l => (a l).rotateLeft ((b l).toNat % 32)),
       (.popc x, fun l => popcWord (u l)),
       (.clz x, fun l => clzWord (u l)),
       (.ctz x, fun l => ctzWord (u l)),
       (.brev x, fun l => (u l).reverse),
       (.bfx x, fun l => bfxWord (mS x.m) (a l) (b l)),
       (.icmp x, fun l => boolWord (combine (fldM x.m 5 2) (intCond (fldM x.m 7 3) (mS x.m) (a l) (b l))
          (fldM x.m 5 2 != 0 && (s.src (opndC x.c) l).getLsbD 0))),
       (.iset x, fun l => maskWord (intCond (fldM x.m 7 3) (mS x.m) (a l) (b l))),
       (.mov x, fun l => u l),
       (.lea x, fun l => a l + (b l <<< fldM x.m 8 2))]
    let three : List (Instr × (Nat → Word)) :=
      [(.imad x3, fun l => a3 l * b3 l + c3 l),
       (.isad x3, fun l => sadWord (mS x3.m) (a3 l) (b3 l) (c3 l)),
       (.fshl x3, fun l => fshlWord (x3.m.getLsbD 9) (a3 l) (b3 l) (c3 l)),
       (.fshr x3, fun l => fshrWord (x3.m.getLsbD 9) (a3 l) (b3 l) (c3 l)),
       (.bfi x3, fun l => bfiWord (a3 l) (b3 l) (c3 l)),
       (.prmt x3, fun l => prmtWord (a3 l) (b3 l) (c3 l)),
       (.isel x3, fun l => if (c3 l).getLsbD 0 then a3 l else b3 l),
       (.pset x3, fun l => boolWord (x3.m.getLsbD (((a3 l).getLsbD 0).toNat + 2 * ((b3 l).getLsbD 0).toNat + 4 * ((c3 l).getLsbD 0).toNat)))]
    (∀ p ∈ two, s.passes p.1 = true → ∃ t, exec p.1 s = .next t ∧ Result32 s t x.g x.d p.2) ∧
    (∀ p ∈ three, s.passes p.1 = true → ∃ t, exec p.1 s = .next t ∧ Result32 s t x3.g x3.d p.2) ∧
    (s.passes (.movi xi) = true → ∃ t, exec (.movi xi) s = .next t ∧ Result32 s t xi.g xi.d (fun _ => xi.imm))

/-- Integer forms with a 64-bit result in a register pair (R98, R99, R106, R115). -/
def Obligations.IntegerPairResults : Prop :=
  ∀ (x : FmtR) (x3 : FmtR3) (s : State),
    let a := s.src64 x.a
    let b := s.src64 x.b
    let n := s.src x.b
    let two : List (Instr × (Nat → Dword)) :=
      [(.iadd64 x, fun l => addSub 64 (mS x.m) (mSat x.m) false (a l) (b l)),
       (.isub64 x, fun l => addSub 64 (mS x.m) (mSat x.m) true (a l) (b l)),
       (.shl64 x, fun l => shl64 (x.m.getLsbD 9) (a l) (n l)),
       (.shr64 x, fun l => shr64 (mS x.m) (x.m.getLsbD 9) (a l) (n l)),
       (.lea64 x, fun l => a l + ((if mS x.m then (n l).signExtend 64 else (n l).setWidth 64) <<< fldM x.m 8 2))]
    (∀ p ∈ two, s.passes p.1 = true → ∃ t, exec p.1 s = .next t ∧ Result64 s t x.g x.d p.2) ∧
    (s.passes (.imad64 x3) = true → ∃ t, exec (.imad64 x3) s = .next t ∧ Result64 s t x3.g x3.d (fun l =>
      BitVec.ofInt 64 (extInt (mS x3.m) (s.src x3.a l) * extInt (mS x3.m) (s.src x3.b l)) + s.src64 x3.c l))

/-- IADDC (R102): D gets the sum with the carry in, y gets only that, and then the predicate named by M gets the carry or
overflow; CTL[6:0] and SAT are reserved. -/
def Obligations.CarryAddition : Prop :=
  ∀ (x : FmtR3) (s : State),
    let cin := fun l => (s.src x.c l).getLsbD 0
    let r := fun l => s.src x.a l + s.src x.b l + boolWord (cin l)
    let cp := fun l => if mS x.m then overflowOut (s.src x.a l) (s.src x.b l) (cin l) else carryOut (s.src x.a l) (s.src x.b l) (cin l)
    s.passes (.iaddc x) = true → ∃ t, exec (.iaddc x) s = .next t ∧ RegisterStep s t ∧
      (∀ file q l, l < 32 → t.cur.stored file q l =
        if 2 ≤ file ∧ q = fldM x.m 7 3 ∧ q ≠ 7 ∧ (s.actOf x.g).getLsbD l = true then boolWord (cp l)
        else if spanHas x.d 1 file q = true ∧ (s.actOf x.g).getLsbD l = true then storedOf x.d (r l) else s.cur.stored file q l) ∧
      Pushed32 s.cur t.cur x.g (s.actOf x.g) x.d r ∧ x.m.getLsbD 10 = false ∧ ∀ i, i < 7 → x.m.getLsbD i = false

/-- Floating forms with a 32-bit result (R129 to R147): f32 arithmetic, compares, SFU functions, and the packed 16-bit forms. It rests on assumption
8. -/
def Obligations.FloatResults : Prop :=
  ∀ (x : FmtR) (x3 : FmtR3) (s : State),
    let k := arithOf x.m
    let k3 := arithOf x3.m
    let ax := fun l => modIn f32 x.m 0 (s.srcX x.c x.a l).toNat
    let bx := fun l => modIn f32 x.m 1 (s.srcX x.c x.b l).toNat
    let u := fun l => modIn f32 x.m 0 (s.src x.a l).toNat
    let fused := fun l => w32 (f32.fmaC k3 (modIn f32 x3.m 0 (s.src x3.a l).toNat) (modIn f32 x3.m 1 (s.src x3.b l).toNat)
      (modIn f32 x3.m 2 (s.src x3.c l).toNat))
    let pair := fun (h : FFmt) (f : Nat → Nat → Nat) (l : Nat) => w32 (packElems 16 ((List.range 2).map (fun i =>
      f (modIn h x.m 0 (elemAt 16 i (s.cur.rdH h x.c x.a l).toNat)) (modIn h x.m 1 (elemAt 16 i (s.cur.rdH h x.c x.b l).toNat)))))
    let masks := fun (h : FFmt) (l : Nat) => w32 (packElems 16 ((List.range 2).map (fun i =>
      if cmpCodes h x (elemAt 16 i (s.cur.rdH h 0 x.a l).toNat) (elemAt 16 i (s.cur.rdH h 0 x.b l).toNat) then 0xFFFF else 0)))
    let triple := fun (h : FFmt) (l : Nat) => w32 (packElems 16 ((List.range 2).map (fun i => h.fmaC k3
      (modIn h x3.m 0 (elemAt 16 i (s.cur.rdH h 0 x3.a l).toNat)) (modIn h x3.m 1 (elemAt 16 i (s.cur.rdH h 0 x3.b l).toNat))
      (modIn h x3.m 2 (elemAt 16 i (s.cur.rdH h 0 x3.c l).toNat)))))
    let mixed := fun (h : FFmt) (l : Nat) => w32 (f32.finish k3 (Machine.Num.add (k3.rnd == .rdn)
      (Machine.Num.mul (h.inp k3 (modIn h x3.m 0 ((s.cur.rdH h 0 x3.a l).toNat % 65536)))
        (h.inp k3 (modIn h x3.m 1 ((s.cur.rdH h 0 x3.b l).toNat % 65536))))
      (f32.inp k3 (modIn f32 x3.m 2 (s.src x3.c l).toNat))))
    let two : List (Instr × (Nat → Word)) :=
      [(.fadd x, fun l => w32 (f32.addC k (ax l) (bx l))), (.fsub x, fun l => w32 (f32.subC k (ax l) (bx l))),
       (.fmul x, fun l => w32 (f32.mulC k (ax l) (bx l))), (.fdiv x, fun l => w32 (f32.divC k (ax l) (bx l))),
       (.fmin x, fun l => w32 (f32.minMax false (x.m.getLsbD 8) (ax l) (bx l))),
       (.fmax x, fun l => w32 (f32.minMax true (x.m.getLsbD 8) (ax l) (bx l))),
       (.fcmp x, fun l => cmpResult s.cur x (cmpCodes f32 x (s.src x.a l).toNat (s.src x.b l).toNat) l),
       (.fset x, fun l => maskWord (cmpCodes f32 x (s.src x.a l).toNat (s.src x.b l).toNat)),
       (.fclass x, fun l => w32 (if x.c.getLsbD (classOf (u l)) then 1 else 0)),
       (.frnd x, fun l => w32 (rndIntegralCode k (u l))),
       (.fldexp x, fun l => w32 (ldexpCode k (ax l) (s.srcX x.c x.b l).toInt)),
       (.fsqrt x, fun l => w32 (f32.sqrtC k (u l))),
       (.frcp x, fun l => w32 (sfuCode .rcp x.m (u l))), (.frsq x, fun l => w32 (sfuCode .rsq x.m (u l))),
       (.fexp2 x, fun l => w32 (sfuCode .exp2 x.m (u l))), (.flog2 x, fun l => w32 (sfuCode .log2 x.m (u l))),
       (.fsin x, fun l => w32 (sfuCode .sin x.m (u l))), (.fcos x, fun l => w32 (sfuCode .cos x.m (u l))),
       (.ftanh x, fun l => w32 (sfuCode .tanh x.m (u l))),
       (.hadd2 x, pair h16 (h16.addC k)), (.hsub2 x, pair h16 (h16.subC k)), (.hmul2 x, pair h16 (h16.mulC k)),
       (.hmin2 x, pair h16 (h16.minMax false (x.m.getLsbD 8))), (.hmax2 x, pair h16 (h16.minMax true (x.m.getLsbD 8))),
       (.hcmp2 x, masks h16),
       (.badd2 x, pair bf16 (bf16.addC k)), (.bsub2 x, pair bf16 (bf16.subC k)), (.bmul2 x, pair bf16 (bf16.mulC k)),
       (.bmin2 x, pair bf16 (bf16.minMax false (x.m.getLsbD 8))), (.bmax2 x, pair bf16 (bf16.minMax true (x.m.getLsbD 8))),
       (.bcmp2 x, masks bf16)]
    let three : List (Instr × (Nat → Word)) :=
      [(.ffma x3, fused),
       (.fsel x3, fun l => w32 (if floatCond 5 (f32.value (s.src x3.c l).toNat) (.fin false 0 0)
          then modIn f32 x3.m 0 (s.src x3.a l).toNat else modIn f32 x3.m 1 (s.src x3.b l).toNat)),
       (.hfma2 x3, triple h16), (.bfma2 x3, triple bf16), (.ffmah x3, mixed h16), (.ffmab x3, mixed bf16)]
    (∀ p ∈ two, s.passes p.1 = true → ∃ t, exec p.1 s = .next t ∧ Result32 s t x.g x.d p.2) ∧
    (∀ p ∈ three, s.passes p.1 = true → ∃ t, exec p.1 s = .next t ∧ Result32 s t x3.g x3.d p.2)

/-- Double precision (R148) and FFREXP (R142): a pair holds the result, but for DCMP's bit (R138). -/
def Obligations.DoubleResults : Prop :=
  ∀ (x : FmtR) (x3 : FmtR3) (s : State),
    let k := arithOf x.m
    let a := fun l => modIn f64 x.m 0 (s.src64 x.a l).toNat
    let b := fun l => modIn f64 x.m 1 (s.src64 x.b l).toNat
    let two : List (Instr × (Nat → Dword)) :=
      [(.dadd x, fun l => w64 (f64.addC k (a l) (b l))), (.dmul x, fun l => w64 (f64.mulC k (a l) (b l))),
       (.dmin x, fun l => w64 (f64.minMax false (x.m.getLsbD 8) (a l) (b l))),
       (.dmax x, fun l => w64 (f64.minMax true (x.m.getLsbD 8) (a l) (b l))),
       (.ffrexp x, fun l => (BitVec.ofInt 32 (frexpCode (x.m.getLsbD 8) (modIn f32 x.m 0 (s.src x.a l).toNat)).2 : Word) ++
          w32 (frexpCode (x.m.getLsbD 8) (modIn f32 x.m 0 (s.src x.a l).toNat)).1)]
    (∀ p ∈ two, s.passes p.1 = true → ∃ t, exec p.1 s = .next t ∧ Result64 s t x.g x.d p.2) ∧
    (s.passes (.dfma x3) = true → ∃ t, exec (.dfma x3) s = .next t ∧ Result64 s t x3.g x3.d (fun l =>
      w64 (f64.fmaC (arithOf x3.m) (modIn f64 x3.m 0 (s.src64 x3.a l).toNat) (modIn f64 x3.m 1 (s.src64 x3.b l).toNat)
        (modIn f64 x3.m 2 (s.src64 x3.c l).toNat)))) ∧
    (s.passes (.dcmp x) = true → ∃ t, exec (.dcmp x) s = .next t ∧ Result32 s t x.g x.d (fun l =>
      cmpResult s.cur x (cmpCodes f64 x (s.src64 x.a l).toNat (s.src64 x.b l).toNat) l))

/-- Packing, scale and dot forms (R154, R159, R162 to R166): no state of the group but its registers changes. That FTZ reads subnormal h16
and bf16 elements of a dot form as zeros is the model's choice (assumption 93), and so is the scale of a NaN magnitude (assumption 92). -/
def Obligations.PackAndDotResults : Prop :=
  ∀ (x : FmtR) (s : State),
    let span := fun (o : Opnd) (l i : Nat) => (s.cur.rdSpan o i l).toNat
    let seg := fun (n : Nat) => match n with
      | 0 => 32
      | 1 => 16
      | 2 => 8
      | _ => 4
    let v := s.actOf x.g &&& ~~~(s.cur.helpers s.curBlock)
    let mag := fun (l : Nat) =>
      if x.c.getLsbD 9 then (s.cur.amaxOf l).toNat
      else if f32.isNaN (f32.flush (x.m.getLsbD 8) (s.src x.a l).toNat) then 2 ^ 31
      else f32.flush (x.m.getLsbD 8) (s.src x.a l).toNat % 2 ^ 31
    let same := fun (l : Nat) => (lanesOf v).filter (fun j => j / seg (fldC x.c 7 2) == l / seg (fldC x.c 7 2))
    let fdot := fun (w : Nat) (fa fb : FFmt) (l : Nat) => w32 (f32.finish (arithOf x.m) (exactSum ((arithOf x.m).rnd == .rdn)
      (f32.inp (arithOf x.m) (s.src x.d l).toNat :: (List.range (32 / w)).map (fun i => Machine.Num.mul
        (fa.inp (arithOf x.m) (modIn fa x.m 0 (dotElem s.cur fa w x.a i l)))
        (fb.inp (arithOf x.m) (modIn fb x.m 1 (dotElem s.cur fb w x.b i l)))))))
    let ielem := fun (w t : Nat) (o : Opnd) (l i : Nat) => intOfBits (intOfType t).1 w (match o with
      | .const n => constElem none w n
      | o => elemAt w i (s.src o l).toNat)
    let isum := fun (w l : Nat) => (List.range (32 / w)).foldl (fun a i => a + ielem w (fldC x.c 5 5) x.a l i *
      ielem w (fldC x.c 0 5) x.b l i) (s.src x.d l).toInt
    let idot := fun (w l : Nat) => BitVec.ofInt 32 (if x.m.getLsbD 7 then clampInt (-(2 ^ 31)) (2 ^ 31 - 1) (isum w l) else isum w l)
    let one : List (Instr × (Nat → Word)) :=
      [(.pack2 x, fun l => ((s.srcX x.c x.b l).setWidth 16 : Half) ++ ((s.srcX x.c x.a l).setWidth 16 : Half)),
       (.pack4 x, fun l => w32 (packElems 8 ((List.range 4).map (span x.a l)))),
       (.pack8 x, fun l => w32 (packElems 4 ((List.range 4).map (span x.a l) ++ (List.range 4).map (span x.b l)))),
       (.scalex x, fun l => w32 (scaleOf (if x.c.getLsbD 3 then decide (2 ^ 31 ≤ (s.src x.a l).toNat) else f32.isNaN (s.src x.a l).toNat)
          (f32.value (f32.flush (x.m.getLsbD 8) ((s.src x.a l).toNat % 2 ^ 31))) (fldC x.c 5 5) (x.c.getLsbD 4))),
       (.blkmax x, fun l => w32 ((same l).foldl (fun a j => max a (mag j % 2 ^ 31)) 0 +
          if (same l).any (fun j => decide (2 ^ 31 ≤ mag j)) then 2 ^ 31 else 0)),
       (.dot2h x, fdot 16 h16 h16), (.dot2b x, fdot 16 bf16 bf16), (.dot8e x, fdot 4 e2m1 e2m1),
       (.dot4e x, fdot 8 (fmtD (fldC x.c 5 5)) (fmtD (fldC x.c 0 5))),
       (.dot4i x, idot 8), (.dot8i x, idot 4), (.idp2 x, idot 16)]
    (∀ p ∈ one, s.passes p.1 = true → ∃ t, exec p.1 s = .next t ∧ Result32 s t x.g x.d p.2) ∧
    (s.passes (.unpk2 x) = true → ∃ t, exec (.unpk2 x) s = .next t ∧
      Result64 s t x.g x.d (fun l => unpkElem s.cur x 16 1 l ++ unpkElem s.cur x 16 0 l)) ∧
    (s.passes (.unpk4 x) = true → ∃ t, exec (.unpk4 x) s = .next t ∧ Result128 s t x.g x.d (fun i l => unpkElem s.cur x 8 i l)) ∧
    (s.passes (.unpk8 x) = true → ∃ t, exec (.unpk8 x) s = .next t ∧
      Result128 s t x.g x.d (fun i l => unpkElem s.cur x 4 (4 * fldC x.c 1 1 + i) l))

/-- Conversions (R125, R128, R152, R155, R157, R158, R160, R161, R423): beside its result each steps the stochastic-rounding states of the lanes of
ACT in mode .sr, QCVT updates AMAX, QCVT and QBLK give the block count tokens, AMAXCLR and SRSEED write their registers. The values that e4m3 takes
between 448 and 512 and a constant read in a narrow source type are the MODEL'S CHOICES (assumptions 91, 87); that a constant is read in the source
type is an inference (assumption 73). It rests on assumption 107 too. -/
def Obligations.ConversionResults : Prop :=
  ∀ (x : FmtR) (s : State),
    let act := s.actOf x.g
    let v := act &&& ~~~(s.cur.helpers s.curBlock)
    let dt := fldC x.c 5 5
    let f := wideFmt (fldC x.c 3 2)
    let only := fun (t : State) => t = s.setGroup s.curCore s.curSlot t.cur ∧ MemorySame s t ∧ QuantStep s.cur t.cur
    let tokens := fun (t : State) (sat nan : Nat) =>
      t = (s.setGroup s.curCore s.curSlot t.cur).setBlock s.curCore s.cur.blk t.curBlock ∧ MemorySame s t ∧ QuantStep s.cur t.cur ∧
      t.curBlock = { s.curBlock with tokens := s.curBlock.tokens ++ countTokens sat nan }
    let raw := packElems (qWidth dt)
    let old := fun l => (s.src x.d l).toNat
    let quant := fun l =>
      if dt = 8 then w32 (if fldC x.c 2 1 = 1 then old l % 65536 + 65536 * raw ((qCodes s.cur x l).map (·.2))
        else raw ((qCodes s.cur x l).map (·.2)) + 65536 * (old l / 65536))
      else w32 (raw ((qCodes s.cur x l).map (·.2)))
    let all := (lanesOf v).flatMap (fun l => (qCodes s.cur x l).mapIdx (fun i p => (rndLane s.cur x.m l i, (s.src x.b l).toNat % 256, p)))
    let deq := fun (i l : Nat) =>
      if fldC x.c 3 2 = 0 then w32 (dqElem s.cur x i l) else w32 (dqElem s.cur x (2 * i) l + 65536 * dqElem s.cur x (2 * i + 1) l)
    let inp := fun l => f32.flush (x.m.getLsbD 8) (modIn f32 x.m 0 (s.src x.a l).toNat)
    let top := (lanesOf v).foldl (fun a l => if f32.isNaN (inp l) then a else max a (inp l % 2 ^ 31)) 0
    let sc := if (lanesOf v).any (fun l => f32.isNaN (inp l)) && 6 ≤ dt then 0xFF else scaleOf false (f32.value top) dt (x.c.getLsbD 4)
    let q := fun l => quantCode dt (rndLane s.cur x.m l 0) (x.m.getLsbD 8) (x.m.getLsbD 7) sc (f32.value (inp l))
    (∀ i ∈ [Instr.cvt x, Instr.cvt64 x], s.passes i = true → ∃ t, exec i s = .next t ∧ only t ∧ AmaxSame s.cur t.cur ∧
      SeedsAfter s.cur t.cur x.m act 1 ∧
      if wideType dt then Wrote64 s.cur t.cur x.g act x.d (fun l => w64 (cvtLane s.cur x l))
      else Wrote32 s.cur t.cur x.g act x.d (fun l => w32 (cvtLane s.cur x l))) ∧
    (s.passes (.qcvt x) = true → ∃ t, exec (.qcvt x) s = .next t ∧
      tokens t (all.filter (fun q => countsSat dt q.1 q.2.1 q.2.2.1 q.2.2.2)).length
        (all.filter (fun q => countsNan dt q.2.1 q.2.2.1 q.2.2.2)).length ∧
      Wrote32 s.cur t.cur x.g act x.d quant ∧ SeedsAfter s.cur t.cur x.m act (qElems dt) ∧
      ∀ l, l < 32 → t.cur.amaxOf l = if act.getLsbD l then amaxUpdate (s.cur.amaxOf l) f (qInputs s.cur x l) else s.cur.amaxOf l) ∧
    (s.passes (.dqcvt x) = true → ∃ t, exec (.dqcvt x) s = .next t ∧ only t ∧ AmaxSame s.cur t.cur ∧
      SeedsAfter s.cur t.cur x.m act (qElems dt) ∧
      (match spanRegs dt (fldC x.c 3 2) with
       | 1 => Wrote32 s.cur t.cur x.g act x.d (deq 0)
       | 2 => Wrote64 s.cur t.cur x.g act x.d (fun l => (deq 1 l ++ deq 0 l : Dword))
       | _ => Wrote128 s.cur t.cur act x.d deq)) ∧
    (s.passes (.qblk x) = true → ∃ t, exec (.qblk x) s = .next t ∧
      tokens t ((lanesOf v).filter (fun l => countsSat dt (rndLane s.cur x.m l 0) sc (f32.value (inp l)) (q l))).length
        ((lanesOf v).filter (fun l => countsNan dt sc (f32.value (inp l)) (q l))).length ∧ AmaxSame s.cur t.cur ∧
      SeedsAfter s.cur t.cur x.m act 1 ∧ Wrote32 s.cur t.cur x.g act x.d (fun l => w32 (sc * 256 + q l))) ∧
    (s.passes (.amaxclr x) = true → ∃ t, exec (.amaxclr x) s = .next t ∧ only t ∧ Wrote32 s.cur t.cur x.g act x.d s.cur.amaxOf ∧
      SeedsAfter s.cur t.cur 0 act 0 ∧ ∀ l, l < 32 → t.cur.amaxOf l = if act.getLsbD l then 0 else s.cur.amaxOf l) ∧
    (s.passes (.srseed x) = true → ∃ t, exec (.srseed x) s = .next t ∧ only t ∧ AmaxSame s.cur t.cur ∧ YSame s.cur t.cur ∧
      (∀ file r l, l < 32 → t.cur.stored file r l = s.cur.stored file r l) ∧
      ∀ l, l < 32 →
        let a : Half := (s.src x.a l).setWidth 16 ^^^ (if x.c.getLsbD 0 then BitVec.ofNat 16 (s.cur.tid l) else 0)
        t.cur.seed l = if act.getLsbD l then (if a = 0 then 1 else a) else s.cur.seed l)

/-- Cross-lane and group-collective forms with a 32-bit result (R167 to R181). V is the lanes of ACT that hold no helper thread. -/
def Obligations.CrossLaneResults : Prop :=
  ∀ (x : FmtR) (s : State),
    let act := s.actOf x.g
    let v := act &&& ~~~(s.cur.helpers s.curBlock)
    let a := s.src x.a
    let op := fldC x.c 0 3
    let sg := x.c.getLsbD 3
    let ex := x.c.getLsbD 4
    let val := fun (l : Nat) => if fldC x.c 1 1 = 1 then s.src64 x.a l else (a l).setWidth 64
    let from_ := if x.c.getLsbD 5 then (if v = 0 then lowest act else lowest v) else fldC x.c 0 5
    let sel := (lanesOf v).filter (fun l => (s.src x.b l).getLsbD 0)
    let shuffle := fun (form l : Nat) => match shflLane form x.c l (s.src x.b l) with
      | some j => s.cur.rdAt x.a j
      | none => 0
    let forms : List (Instr × (Nat → Word)) :=
      [(.shfli x, shuffle 0), (.shfla x, shuffle 1), (.shflb x, shuffle 2), (.shflx x, shuffle 3),
       (.qswap x, fun l => s.cur.rdAt x.a (l ^^^ (fldC x.c 0 2 + 1))),
       (.qbcast x, fun l => s.cur.rdAt x.a (4 * (l / 4) + fldC x.c 0 2)),
       (.vote x, fun _ => voteWord (fldC x.c 0 2) v (maskOf ((lanesOf v).filter (fun l => a l != 0)))),
       (.matchLanes x, fun l => if fldC x.c 0 1 = 0 then maskOf ((lanesOf v).filter (fun j => val j == val l))
          else if (lanesOf v).all (fun j => val j == val (lowest v)) then v else 0),
       (.redux x, fun _ => (lanesOf v).foldl (fun r j => intOp op sg r (a j)) (intIdentity op sg)),
       (.scan x, fun l => ((lanesOf v).filter (fun j => if ex then j < l else j ≤ l)).foldl (fun r j => intOp op sg r (a j)) (intIdentity op sg)),
       (.reduxf x, fun _ => w32 (canonNaN ((treeRoot (floatOp (fldC x.c 0 2) (redArith x.m))
          ((List.range 32).map (fun l => if v.getLsbD l then some (redInput x.m (a l)) else none))).getD (floatIdentity (fldC x.c 0 2))))),
       (.scanf x, fun l => w32 (canonNaN ((foldOpt (floatOp (fldC x.c 0 2) (redArith x.m))
          (((lanesOf v).filter (fun j => if ex then j < l else j ≤ l)).map (fun j => redInput x.m (a j)))).getD (floatIdentity (fldC x.c 0 2))))),
       (.segred x, fun l => segValue x s.cur (segLanes s.cur x.b v l)),
       (.segscan x, fun l => segValue x s.cur ((segLanes s.cur x.b v l).filter (fun j => if ex then j < l else j ≤ l))),
       (.elect x, fun l => boolWord (v != 0 && l == lowest v)),
       (.actmask x, fun _ => if x.c.getLsbD 0 then v else act),
       (.bcast x, fun _ => s.cur.rdAt x.a from_),
       (.rank x, fun l => w32 ((lanesOf v).filter (fun j => a j == a l && (x.c.getLsbD 0 || j < l))).length),
       (.sortg x, fun l => ((sortLanes (fun i j => sortLe (x.c.getLsbD 0) (x.c.getLsbD 1) (a i) (a j)) (lanesOf v)).map (s.src x.b)).getD
          (lanePos act l) 0),
       (.compact x, fun l => (sel.map a).getD (lanePos act l) 0),
       (.expand x, fun l => if sel.contains l then s.cur.rdAt x.a ((lanesOf act).getD (sel.filter (fun j => j < l)).length 0) else 0)]
    ∀ p ∈ forms, s.passes p.1 = true → ∃ t, exec p.1 s = .next t ∧ Result32 s t x.g x.d p.2

/-- MOVK and KSET write group registers: once, and only where ACT holds a lane; with ACT empty MOVK changes nothing, y included (R114,
R178). -/
def Obligations.GroupRegisterResults : Prop :=
  ∀ (xi : FmtI) (x : FmtR) (n : BitVec 6) (s : State),
    let act := s.actOf x.g
    let v := act &&& ~~~(s.cur.helpers s.curBlock)
    let from_ := if x.c.getLsbD 5 then (if v = 0 then lowest act else lowest v) else fldC x.c 0 5
    (xi.d = .k n → s.passes (.movk xi) = true → ∃ t, exec (.movk xi) s = .next t ∧ KStep s t ∧
      KAfter s.cur t.cur (s.actOf xi.g != 0) n.toNat 1 (fun _ => xi.imm) ∧
      if s.actOf xi.g = 0 then YSame s.cur t.cur else Pushed32 s.cur t.cur xi.g (s.actOf xi.g) xi.d (fun _ => xi.imm)) ∧
    (x.d = .k n → s.passes (.kset x) = true → ∃ t, exec (.kset x) s = .next t ∧ KStep s t ∧
      if fldC x.c 6 1 = 1 then
        KAfter s.cur t.cur (act != 0) n.toNat 2 (wordOf (s.cur.rd64At x.a from_)) ∧
        Pushed64 s.cur t.cur x.g act x.d (fun _ => s.cur.rd64At x.a from_)
      else
        KAfter s.cur t.cur (act != 0) n.toNat 1 (fun _ => s.cur.rdAt x.a from_) ∧
        Pushed32 s.cur t.cur x.g act x.d (fun _ => s.cur.rdAt x.a from_)) ∧
    (s.passes (.movk xi) = true → ∃ q, xi.d = .k q) ∧ (s.passes (.kset x) = true → ∃ q, x.d = .k q)

/-- RDSR gives the register's value, and a read of CLOCKLO latches CLOCKHI; WRSR writes LOOPCFG or TRAPBASE (R34, R78, R90, R91). -/
def Obligations.SpecialRegisters : Prop :=
  ∀ (x : FmtS) (n : BitVec 6) (s : State),
    let act := s.actOf x.g
    let v := (s.fe x.g).srValue x.srn.toNat x.sub.toNat
    let hi := if x.srn = 0x020 ∧ act ≠ 0 then halfOf (s.core s.curCore).cycles 1 else s.cur.clockhi
    let w := s.src x.a (lowest act)
    (s.passes (.rdsr x) = true → (∀ q, x.d ≠ .k q) → ∃ t, exec (.rdsr x) s = .next t ∧ CurStep s t ∧
      GroupRegs { s.cur with clockhi := hi } t.cur ∧ Wrote32 s.cur t.cur x.g act x.d v) ∧
    (s.passes (.rdsr x) = true → x.d = .k n → ∃ t, exec (.rdsr x) s = .next t ∧ CurStep s t ∧
      GroupRegs { s.cur with
        clockhi := hi
        k := t.cur.k } t.cur ∧
      KAfter s.cur t.cur (act != 0) n.toNat 1 (fun _ => v (lowest act)) ∧ Pushed32 s.cur t.cur x.g act x.d (fun _ => v (lowest act)) ∧
      ∀ file r l, l < 32 → t.cur.stored file r l = s.cur.stored file r l) ∧
    (s.passes (.wrsr x) = true → ∃ t, exec (.wrsr x) s = .next t ∧ CurStep s t ∧
      t.cur = { s.cur with
        pc := s.cur.pc + 8
        loopcfg := if act ≠ 0 ∧ x.srn = 0x029 then w &&& 0x7FF else s.cur.loopcfg
        trapbase := if act ≠ 0 ∧ x.srn = 0x052 ∧ x.sub = 0 then (s.cur.trapbase.extractLsb' 32 32 ++ (w &&& 0xFFFFFFF8) : Dword)
          else if act ≠ 0 ∧ x.srn = 0x052 then ((w &&& 0x00FFFFFF) ++ s.cur.trapbase.setWidth 32 : Dword) else s.cur.trapbase })

/-! ## Memory -/

/-- LD, LDV and LDK (R230, R237 to R239): with nothing to wait for, the destination holds the loaded values, the homes of the lines have learnt of
the reads (R297), and nothing else changes; a load that reaches host or peer memory waits for its reply. It rests on assumptions 6, 15 and 96. -/
def Obligations.GlobalLoads : Prop :=
  ∀ (x : FmtM) (s : State),
    let act := s.actOf x.g
    let n := mmBytes x.mm
    let base := fun l => s.src64 x.a l + x.ofs.signExtend 64
    let at_ := fun l => s.reachCur .read n (base l).toNat
    let run := fun l => s.reachCur .read n (base l + BitVec.ofNat 64 (l * n)).toNat
    let ready := fun (m : Mask) (f : Nat → Xlat) => s.ordOk (mmOrd x.mm) (mmScp x.mm) = true ∧ s.lanesOk m n true f = true ∧
      s.acqOk (mmOrd x.mm) (mmScp x.mm) (laneCells (keysOf m f) n) = true
    let low := 1#32 <<< lowest act
    let kv := s.readAt n (at_ (lowest act))
    let after := fun (m : Mask) (f : Nat → Xlat) => s.readBy (mmCh x.mm) n (keysOf m f)
    (∀ p ∈ [(Instr.ld x, at_), (.ldv x, run)], s.passes p.1 = true → ready act p.2 → outsideLane act p.2 = false →
      ∃ t, exec p.1 s = .next t ∧ CurStep (after act p.2) t ∧ MemorySame s t ∧ GroupRegs s.cur t.cur ∧
        WroteLoad s.cur t.cur x.g act x.d x.mm (fun l => s.readAt n (p.2 l))) ∧
    (∀ p ∈ [(Instr.ld x, at_), (.ldv x, run)], s.passes p.1 = true → ready act p.2 → outsideLane act p.2 = true →
      ∃ t, exec p.1 s = .next t ∧ Requested s t x.g (.load x.d x.mm (keysOf act p.2) 0)) ∧
    (s.passes (.ldk x) = true → act = 0 → exec (.ldk x) s = .next (s.setGroup s.curCore s.curSlot s.cur.next)) ∧
    (s.passes (.ldk x) = true → act ≠ 0 → ready low at_ → outsideLane low at_ = false → ∃ t q, exec (.ldk x) s = .next t ∧
      x.d = .k q ∧ KStep (after low at_) t ∧ MemorySame s t ∧
        KAfter s.cur t.cur true q.toNat (max 1 (n / 4)) (fun i => BitVec.ofNat 32 (kv / 2 ^ (32 * i))) ∧
      (n = 16 → YSame s.cur t.cur) ∧ (n = 8 → Pushed64 s.cur t.cur x.g act x.d (fun _ => BitVec.ofNat 64 kv)) ∧
      (n = 4 → Pushed32 s.cur t.cur x.g act x.d (fun _ => BitVec.ofNat 32 kv))) ∧
    (s.passes (.ldk x) = true → act ≠ 0 → ready low at_ → outsideLane low at_ = true →
      ∃ t, exec (.ldk x) s = .next t ∧ Requested s t x.g (.load x.d x.mm (keysOf low at_) 0))

/-- LDNF (R240): a lane that fails translation, permission or a sparse check receives 0 and writes its guard predicate so that the guard fails; the
other lanes are loaded. That they read their homes in this step is the MODEL'S CHOICE (assumption 6). It rests on assumption 15 too. -/
def Obligations.NoFaultLoad : Prop :=
  ∀ (x : FmtM) (s : State),
    let act := s.actOf x.g
    let n := mmBytes x.mm
    let at_ := fun l => s.reachCur .read n (s.src64 x.a l + x.ofs.signExtend 64).toNat
    let soft := fun l => match at_ l with
      | .bad c _ => c != 3 || (s.cur.helpers s.curBlock).getLsbD l
      | .wait => true
      | _ => false
    let f := fun l => if soft l then Xlat.zero else at_ l
    s.passes (.ldnf x) = true → s.lanesOk act n true f = true → outsideLane act f = false →
      ∃ t g, exec (.ldnf x) s = .next t ∧ CurStep (s.readBy (mmCh x.mm) n (keysOf act f)) t ∧ MemorySame s t ∧
        g = s.cur.setPred x.g.pred.toNat (maskOf ((lanesOf act).filter soft)) (fun _ => boolWord x.g.neg) ∧
        GroupRegs s.cur t.cur ∧ WroteLoad g t.cur x.g act x.d x.mm (fun l => s.readAt n (f l)) ∧
        ∀ l, l < 32 → act.getLsbD l = true → soft l = true → x.g.pred ≠ 7 → t.cur.preg x.g.pred.toNat l = boolWord x.g.neg

/-- ST, STV and STZ (R237, R238, R241): the lanes of ACT without a helper thread store in ascending order; every other byte reads as before. It
rests on assumptions 6, 15, 78 and 96. -/
def Obligations.GlobalStores : Prop :=
  ∀ (x : FmtM) (s : State),
    let v := s.actOf x.g &&& ~~~(s.cur.helpers s.curBlock)
    let n := mmBytes x.mm
    let base := fun l => s.src64 x.a l + x.ofs.signExtend 64
    let data := s.cur.rdData x.d (szRegs x.mm)
    let forms : List (Instr × Nat × (Nat → Nat) × (Nat → Nat)) :=
      [(.st x, n, fun l => (base l).toNat, data), (.stv x, n, fun l => (base l + BitVec.ofNat 64 (l * n)).toNat, data),
       (.stz x, 128, fun l => (base l).toNat, fun _ => 0)]
    ∀ p ∈ forms,
      let f := fun l => s.reachCur .write p.2.1 (p.2.2.1 l)
      s.passes p.1 = true → s.ordOk (mmOrd x.mm) (mmScp x.mm) = true → s.lanesOk v p.2.1 false f = true →
        ∃ t, exec p.1 s = .next t ∧ Stored s t (storeCellsOf (keysOf v f) p.2.1 p.2.2.2)

/-- The atomics and reductions (R230, R242 to R247): each lane in ascending order replaces the value at its location by OPNEW; an atomic returns the
old values, a reduction nothing; atomics of host or peer memory wait for the reply. It rests on assumptions 6, 15, 78, 96 and 122. -/
def Obligations.GlobalAtomics : Prop :=
  ∀ (x : FmtR) (x3 : FmtR3) (s : State),
    let data := fun (o : Opnd) (m : BitVec 12) => s.cur.rdData o (szRegs m)
    let forms : List AtomicForm :=
      ([(Instr.atadd x, AtOp.add), (.atmin x, .min), (.atmax x, .max), (.atand x, .and), (.ator x, .or), (.atxor x, .xor),
        (.atexch x, .exch), (.atinc x, .inc), (.atdec x, .dec), (.atfadd x, .fadd), (.atfmin x, .fmin), (.atfmax x, .fmax)].map
          (fun q => ⟨q.1, x.g, q.2, x.c.getLsbD 0, x.a, x.d, x.m, data x.b x.m, fun _ => 0⟩)) ++
      ([Instr.atcas x3, .atcas128 x3].map (fun i => ⟨i, x3.g, .cas, false, x3.a, x3.d, x3.m, data x3.b x3.m, data x3.c x3.m⟩))
    (∀ p ∈ forms,
      let v := s.actOf p.g &&& ~~~(s.cur.helpers s.curBlock)
      let n := mmBytes p.m
      let f := fun l => noHost p.op.hostOk (s.reachCur .atomic n (s.src64 p.a l).toNat)
      let lanes := atLanes (keysOf v f) p.b p.c
      let q := s.atomics p.op p.signed n lanes
      s.passes p.i = true → s.ordOk (mmOrd p.m) (mmScp p.m) = true → s.lanesOk v n true f = true →
      s.acqOk (mmOrd p.m) (mmScp p.m) (laneCells (keysOf v f) n) = true →
        (outsideLane v f = false → ∃ t, exec p.i s = .next t ∧ MemStep s t ∧ (∀ k, SMap.get 0 t.mem k = SMap.get 0 q.1.mem k) ∧
          GroupRegs s.cur t.cur ∧ WroteLoad s.cur t.cur p.g (s.actOf p.g) p.d p.m (oldOf q.2)) ∧
        (outsideLane v f = true → ∃ t, exec p.i s = .next t ∧ Requested s t p.g (.atomic p.op.num p.signed p.d p.m lanes none))) ∧
    (∀ p ∈ [(Instr.redadd x, AtOp.add), (.redmin x, .min), (.redmax x, .max), (.redfadd x, .fadd)],
      let v := s.actOf x.g &&& ~~~(s.cur.helpers s.curBlock)
      let n := mmBytes x.m
      let f := fun l => noHost false (s.reachCur .write n (s.src64 x.a l).toNat)
      let q := s.atomics p.2 (x.c.getLsbD 0) n (atLanes (keysOf v f) (data x.b x.m) (fun _ => 0))
      s.passes p.1 = true → s.ordOk (mmOrd x.m) (mmScp x.m) = true → s.lanesOk v n true f = true →
        ∃ t, exec p.1 s = .next t ∧ MemStep s t ∧ (∀ k, SMap.get 0 t.mem k = SMap.get 0 q.1.mem k) ∧ t.cur = s.cur.next)

/-- FENCE, PREF and CCTL (R235, R248 to R250): they complete and write no register and no byte of memory; a prefetch leaves word at the homes of the
lines that it brings, and asks for the walks that its pages need (R219, R297; that it queues them is assumption 98). A FENCE that must wait leaves
the machine as it was, but for the mark of it: the MODEL'S CHOICE (assumption 43). It rests on assumption 96 too. -/
def Obligations.FencesAndCacheControl : Prop :=
  ∀ (x : FmtM) (s : State),
    let next : Host.Outcome State Fault Refusal := .next (s.setGroup s.curCore s.curSlot s.cur.next)
    (s.passes (.fence x) = true → s.actOf x.g = 0 ∨ s.ordOk (mmOrd x.mm) (mmScp x.mm) = true → exec (.fence x) s = next) ∧
    (s.passes (.fence x) = true → s.actOf x.g ≠ 0 → s.ordOk (mmOrd x.mm) (mmScp x.mm) = false →
      exec (.fence x) s = .next { s with stalled := true }) ∧
    (s.passes (.pref x) = true → ∃ t kit lines, exec (.pref x) s = .next t ∧ MemorySame s t ∧ t.cur = s.cur.next ∧
      t = { (s.countMisses kit lines).setGroup s.curCore s.curSlot s.cur.next with
        dir := t.dir
        walks := t.walks
        retention := t.retention }) ∧
    (s.passes (.cctl x) = true → ∃ t, exec (.cctl x) s = .next t ∧ MemorySame s t ∧ t.cur = s.cur.next ∧
      t = { s.setGroup s.curCore s.curSlot s.cur.next with
        dir := t.dir
        retention := t.retention })

/-! ## Scratchpad, lane private bytes and windows -/

/-- LDS, LDSV and LDL (R259 to R264): the destination holds the bytes read, after the sectors of windows have been filled; a helper lane whose
access fails receives 0. It rests on assumptions 6 and 96. -/
def Obligations.LocalLoads : Prop :=
  ∀ (x : FmtM) (s : State),
    let act := s.actOf x.g
    let n := mmBytes x.mm
    let at_ := fun l => (s.src x.a l + x.ofs.signExtend 32).toNat
    let run := fun l => (s.src x.a l + x.ofs.signExtend 32 + BitVec.ofNat 32 (l * n)).toNat
    let b := s.curBlock
    let inside := fun l => at_ l % n == 0 && decide (at_ l + n ≤ b.kd.lane)
    let key := fun l => laneKey b (s.cur.tid l) (at_ l)
    (∀ p ∈ [(Instr.lds x, at_), (.ldsv x, run)], s.passes p.1 = true → s.ordOk (mmOrd x.mm) (mmScp x.mm) = true →
      s.localOk act .load n p.2 = true →
        let s1 := s.localRun act .load n p.2
        ∃ t, exec p.1 s = .next t ∧ CurStep s1 t ∧ MemorySame s t ∧ GroupRegs s.cur t.cur ∧ OthersSame s t ∧
          WroteLoad s.cur t.cur x.g act x.d x.mm (fun l =>
            if (s.localReach s.curCore s.cur.blk .load n (p.2 l)).2.goes then s1.localRead s.curCore s.cur.blk n (p.2 l) else 0)) ∧
    (s.passes (.ldl x) = true →
      (∀ l ∈ lanesOf act, (inside l || (s.cur.helpers b).getLsbD l) = true ∧ (inside l = true →
        s.poisonAt (laneWordKey s.curCore (key l)) n = false)) →
        ∃ t, exec (.ldl x) s = .next t ∧ CurStep s t ∧ GroupRegs s.cur t.cur ∧ WroteLoad s.cur t.cur x.g act x.d x.mm (fun l =>
          if inside l then readBytes (s.core s.curCore).laneMem (key l) n else 0))

/-- STS, STSV and STL (R259 to R264): the lanes of ACT without a helper thread store in ascending order, after the sectors of windows have been
filled; every other byte of every scratchpad and slice, and all of memory, reads as before. It rests on assumptions 6, 78 and 96. -/
def Obligations.LocalStores : Prop :=
  ∀ (x : FmtM) (s : State),
    let v := s.actOf x.g &&& ~~~(s.cur.helpers s.curBlock)
    let n := mmBytes x.mm
    let at_ := fun l => (s.src x.a l + x.ofs.signExtend 32).toNat
    let run := fun l => (s.src x.a l + x.ofs.signExtend 32 + BitVec.ofNat 32 (l * n)).toNat
    let data := s.cur.rdData x.d (szRegs x.mm)
    let b := s.curBlock
    (∀ p ∈ [(Instr.sts x, at_), (.stsv x, run)], s.passes p.1 = true → s.ordOk (mmOrd x.mm) (mmScp x.mm) = true →
      s.localOk v .store n p.2 = true →
        let s1 := s.filled v .store n p.2
        ∃ t, exec p.1 s = .next t ∧ MemorySame s t ∧ t.cur = s.cur.next ∧ OthersSame s t ∧
          ∀ c a, SMap.get 0 (t.core c).scratch a = storedByte (s.localCells v n p.2 data c) a (SMap.get 0 (s1.core c).scratch a)) ∧
    (s.passes (.stl x) = true → (∀ l ∈ lanesOf v, at_ l % n = 0 ∧ at_ l + n ≤ b.kd.lane) →
      ∃ t, exec (.stl x) s = .next t ∧ MemorySame s t ∧ t.cur = s.cur.next ∧ OthersSame s t ∧
        ∀ a, SMap.get 0 (t.core s.curCore).laneMem a =
          storedByte ((lanesOf v).map (fun l => (laneKey b (s.cur.tid l) (at_ l), n, data l))) a (SMap.get 0 (s.core s.curCore).laneMem a))

/-- ATSADD, ATSMIN, ATSMAX and ATSCAS (R263): one location after the other, and D receives the old values. It rests on assumptions 6, 78 and 96. -/
def Obligations.LocalAtomics : Prop :=
  ∀ (x : FmtR) (x3 : FmtR3) (s : State),
    let data := fun (o : Opnd) (m : BitVec 12) => s.cur.rdData o (szRegs m)
    let forms : List AtomicForm :=
      ([(Instr.atsadd x, AtOp.add), (.atsmin x, .min), (.atsmax x, .max)].map
          (fun q => ⟨q.1, x.g, q.2, x.c.getLsbD 0, x.a, x.d, x.m, data x.b x.m, fun _ => 0⟩)) ++
      [⟨.atscas x3, x3.g, .cas, false, x3.a, x3.d, x3.m, data x3.b x3.m, data x3.c x3.m⟩]
    ∀ p ∈ forms,
      let v := s.actOf p.g &&& ~~~(s.cur.helpers s.curBlock)
      let n := mmBytes p.m
      let at_ := fun l => (s.src p.a l).toNat
      let q := (s.filled v .atomic n at_).localAtomics s.curCore s.cur.blk n p.op p.signed at_ p.b p.c (lanesOf v)
      s.passes p.i = true → s.ordOk (mmOrd p.m) (mmScp p.m) = true → s.localOk v .atomic n at_ = true →
        ∃ t, exec p.i s = .next t ∧ MemorySame s t ∧ OthersSame s t ∧ (∀ c a, SMap.get 0 (t.core c).scratch a = SMap.get 0 (q.1.core c).scratch a) ∧
          GroupRegs s.cur t.cur ∧ WroteLoad s.cur t.cur p.g (s.actOf p.g) p.d p.m (oldOf q.2)

/-- WMAP, WFLUSH, WUNMAP and WINV (R269 to R273): a window is bound with clean marks; a flush writes the dirty bytes, holds the group until those
writes have performed, and then clears their marks; WUNMAP also frees the name; WINV clears the marks and writes nothing. With no live lane in ACT
none has an effect. It rests on assumptions 6 and 96. -/
def Obligations.WindowForms : Prop :=
  ∀ (x : FmtR) (s : State) (w : Window),
    let c := s.core s.curCore
    let blk := s.cur.blk
    let low := lowest (s.actOf x.g)
    let sb := (s.src x.a low).toNat
    let rec_ := (s.src x.b low).toNat
    let lim := s.curBlock.scratchBytes
    let r := s.spRead s.curCore blk rec_ 32
    let h := shapeOf r
    let scope := fldM x.m 4 3
    let v := s.actOf x.g &&& ~~~(s.cur.helpers s.curBlock)
    let begins := fun (s1 : State) => c.window blk (winIndex x.d) = some w ∧ s.cur.flushing = false ∧ s.ordOk 2 scope = true ∧
      s.flushWindow s.curCore blk s.curSlot s.curSlot w = .ok s1
    let flushes := fun (s1 : State) => (begins s1 ∧ s1.unperformed s.curCore s.curBlock scope = false) ∨
      (s1 = s ∧ c.window blk (winIndex x.d) = some w ∧ s.cur.flushing = true ∧ s.unperformed s.curCore s.curBlock scope = false)
    let after := { s.cur.next with flushing := false }
    (∀ i ∈ [Instr.wmap x, .wflush x, .wunmap x, .winv x], s.passes i = true → v = 0 →
      exec i s = .next (s.setGroup s.curCore s.curSlot s.cur.next)) ∧
    (∀ i ∈ [Instr.wflush x, .wunmap x], ∀ s1, s.passes i = true → v ≠ 0 → begins s1 → s1.unperformed s.curCore s.curBlock scope = true →
      exec i s = .next (s1.setGroup s.curCore s.curSlot { s.cur with flushing := true })) ∧
    (s.passes (.wmap x) = true → v ≠ 0 → c.window blk (winIndex x.d) = none → c.windows.length < 16 → rec_ + 32 ≤ lim →
      sb % 32 = 0 → shapeOk r = true → sb + h.size ≤ lim →
      (∀ q ∈ c.windows, q.blk = blk → meets sb h.size q.sb q.size = false ∧ meets rec_ 32 q.sb q.size = false) → meets sb h.size rec_ 32 = false →
      c.destHit (s.curBlock.sbase + sb) h.size = false → s.poisonAt (spKey s.curCore (s.curBlock.sbase + rec_)) 32 = false →
        ∃ t wid, exec (.wmap x) s = .next t ∧ t.cur = s.cur.next ∧ MemorySame s t ∧ OthersSame s t ∧
          (∀ q ∈ c.windows, q.wid ≠ wid) ∧
          (t.core s.curCore).windows = c.windows ++
            [⟨blk, winIndex x.d, fldM x.m 0 2, sb, h.size, h.va, h.e0, h.e1, h.e2, h.lesz, h.s1, h.s2, wid⟩] ∧
          ∀ k, SMap.get {} (t.core s.curCore).marks k =
            if (s.curBlock.sbase + sb) / 4 ≤ k ∧ k < (s.curBlock.sbase + sb) / 4 + h.size / 4 then {} else SMap.get {} c.marks k) ∧
    (∀ s1, s.passes (.wflush x) = true → v ≠ 0 → flushes s1 → ∃ t, exec (.wflush x) s = .next t ∧ t.cur = after ∧
      OthersSame s t ∧ MemorySame s1 t ∧ ∀ o ∈ w.words, (t.marksAt s.curCore blk o).d =
        ((s1.marksAt s.curCore blk o).d && !(s1.marksAt s.curCore blk o).f.contains s.curSlot)) ∧
    (∀ s1, s.passes (.wunmap x) = true → v ≠ 0 → flushes s1 → ∃ t, exec (.wunmap x) s = .next t ∧ t.cur = after ∧
      OthersSame s t ∧ MemorySame s1 t ∧ (t.core s.curCore).window blk (winIndex x.d) = none) ∧
    (∀ s1, begins s1 → ∀ o ∈ w.words, (s1.marksAt s.curCore blk o).d = true → s.curSlot ∈ (s1.marksAt s.curCore blk o).f) ∧
    (s.passes (.winv x) = true → v ≠ 0 → c.window blk (winIndex x.d) = some w → ∃ t, exec (.winv x) s = .next t ∧
      t.cur = s.cur.next ∧ OthersSame s t ∧ MemorySame s t ∧ (t.core s.curCore).windows = c.windows ∧
      ∀ k, SMap.get {} (t.core s.curCore).marks k =
        if s.markKey s.curCore w.blk w.sb ≤ k ∧ k < s.markKey s.curCore w.blk w.sb + w.size / 4 then {} else SMap.get {} c.marks k)

/-! ## Control -/

/-- BRA, CALL, BRX, CALLX, RET and CALLL (R80 to R82): lanes that do not take the transfer are pushed as a pending entry, the others go to their
target; with ACT empty only the PC and, for a call, y change. A call links PC + 8 in the lanes of ACT. A full stack and a target that is not a
multiple of 8 fault, and so does a lane of CALLL whose entry it may not read. The LMASK of a full stack's record is read from the spec (assumption
26). It rests on assumptions 94 and 96 too. -/
def Obligations.ControlTransfers : Prop :=
  ∀ (xb : FmtB) (x : FmtR) (xm : FmtM) (s : State),
    let pc := s.cur.pc
    let linked := fun (g : Guard) (d : Opnd) (q : Group) => RegsAfter s.cur q (s.actOf g) d 2 (fun i _ => wordOf (pc + 8) i)
    let path := fun (g : Guard) (q : Group) => q.m = s.actOf g ∧ q.stack =
      if s.actOf g = s.cur.m then s.cur.stack else { rcv := false, pc := pc + 8, mask := s.cur.m &&& ~~~(s.actOf g) } :: s.cur.stack
    let room := fun (g : Guard) => s.actOf g = s.cur.m ∨ s.cur.stack.length < 16
    let target := pc + 8 + (xb.ofs.signExtend 64 <<< 3)
    let entry := fun l => BitVec.ofNat 64 (s.readAt 8 (s.reachCur .read 8 (s.src64 xm.a l + xm.ofs.signExtend 64).toNat))
    let indirect := fun (g : Guard) (tgt : Nat → Dword) (q : Group) =>
      let act := s.actOf g
      let t0 := tgt (lowest act)
      let now := maskOf ((lanesOf act).filter (fun l => tgt l == t0))
      let later := act &&& ~~~now
      q.pc = t0 ∧ q.m = now ∧ q.stack = (if later = 0 then [] else [{ rcv := false, pc := pc, mask := later }]) ++
        (if act = s.cur.m then [] else [{ rcv := false, pc := pc + 8, mask := s.cur.m &&& ~~~act }]) ++ s.cur.stack
    let fits := fun (g : Guard) (tgt : Nat → Dword) => s.actOf g ≠ 0 ∧ (∀ l ∈ lanesOf (s.actOf g), tgt l &&& 7 = 0) ∧
      s.cur.stack.length + (if s.actOf g = s.cur.m then 0 else 1) +
        (if (lanesOf (s.actOf g)).all (fun l => tgt l == tgt (lowest (s.actOf g))) then 0 else 1) ≤ 16
    let quiet := fun (q : Group) => q = { s.cur with pc := pc + 8 }
    let full : Host.Outcome State Fault Refusal := .next (s.raise s.curCore s.curSlot { cause := 7 })
    let slot := fun l => s.reachCur .read 8 (s.src64 xm.a l + xm.ofs.signExtend 64).toNat
    let odd := (lanesOf (s.actOf x.g)).filter (fun l => s.src64 x.a l &&& 7 != 0)
    (legal (.bra xb) = true → xb.lnk = .v 0 ∧ xb.a = .v 0) ∧
    (legal (.call xb) = true → xb.a = .v 0 ∧ (xb.lnk = .discard ∨ ∃ n : BitVec 8, xb.lnk = .v n ∧ n.getLsbD 0 = false)) ∧
    (∀ i ∈ [Instr.bra xb, .call xb], s.passes i = true → s.actOf xb.g ≠ 0 → ¬ room xb.g → exec i s = full) ∧
    (∀ i ∈ [Instr.brx x, .ret x, .callx x], s.passes i = true → ∀ l, odd.head? = some l →
      exec i s = .next (s.raise s.curCore s.curSlot { cause := 3, addr := (s.src64 x.a l).toNat, lanes := maskOf odd })) ∧
    (∀ i ∈ [Instr.brx x, .ret x, .callx x], s.passes i = true → s.actOf x.g ≠ 0 → odd = [] → ¬ fits x.g (s.src64 x.a) → exec i s = full) ∧
    (∀ i ∈ [Instr.bra xb, .brx x, .ret x], s.passes i = true → (match i with | .bra _ => s.actOf xb.g | _ => s.actOf x.g) = 0 →
      ∃ t, exec i s = .next t ∧ CurStep s t ∧ quiet t.cur) ∧
    (∀ i ∈ [Instr.call xb, .callx x], s.passes i = true → (match i with | .call _ => s.actOf xb.g | _ => s.actOf x.g) = 0 →
      ∃ t, exec i s = .next t ∧ CurStep s t ∧ GroupRegs s.cur t.cur ∧ ∀ file r l, l < 32 → t.cur.stored file r l = s.cur.stored file r l) ∧
    (s.passes (.bra xb) = true → s.actOf xb.g ≠ 0 → room xb.g → pc < target → ∃ t, exec (.bra xb) s = .next t ∧ CurStep s t ∧
      t.cur.pc = target ∧ path xb.g t.cur ∧ t.cur.v = s.cur.v ∧ t.cur.w = s.cur.w ∧ t.cur.p = s.cur.p ∧ t.cur.k = s.cur.k) ∧
    (s.passes (.bra xb) = true → s.actOf xb.g ≠ 0 → room xb.g → target ≤ pc → ∃ t, exec (.bra xb) s = .next t ∧ MemorySame s t ∧
      OthersSame s t ∧ t.cur.pc = target ∧ path xb.g t.cur ∧ t.cur.v = s.cur.v ∧ t.cur.w = s.cur.w ∧ t.cur.p = s.cur.p ∧ t.cur.k = s.cur.k ∧
      t.cur.loopH = target ∧ t.cur.loopCount = if s.cur.loopH = target then s.cur.loopCount + 1 else 1) ∧
    (s.passes (.call xb) = true → s.actOf xb.g ≠ 0 → room xb.g → ∃ t, exec (.call xb) s = .next t ∧ CurStep s t ∧ t.cur.pc = target ∧
      path xb.g t.cur ∧ linked xb.g xb.lnk t.cur ∧ t.cur.k = s.cur.k) ∧
    (∀ i ∈ [Instr.brx x, .ret x], s.passes i = true → fits x.g (s.src64 x.a) → ∃ t, exec i s = .next t ∧ CurStep s t ∧
      indirect x.g (s.src64 x.a) t.cur ∧ t.cur.v = s.cur.v ∧ t.cur.w = s.cur.w ∧ t.cur.p = s.cur.p ∧ t.cur.k = s.cur.k) ∧
    (s.passes (.callx x) = true → fits x.g (s.src64 x.a) → ∃ t, exec (.callx x) s = .next t ∧ CurStep s t ∧
      indirect x.g (s.src64 x.a) t.cur ∧ linked x.g x.d t.cur ∧ t.cur.k = s.cur.k) ∧
    (s.passes (.calll xm) = true → s.ordOk 1 3 = true → s.lanesOk (s.actOf xm.g) 8 true slot = true →
      outsideLane (s.actOf xm.g) slot = false → s.acqOk 1 3 (laneCells (keysOf (s.actOf xm.g) slot) 8) = true →
      fits xm.g entry → ∃ t, exec (.calll xm) s = .next t ∧ CurStep (s.readBy (mmCh xm.mm) 8 (keysOf (s.actOf xm.g) slot)) t ∧
        MemorySame s t ∧ indirect xm.g entry t.cur ∧ linked xm.g xm.d t.cur ∧ t.cur.k = s.cur.k) ∧
    (s.passes (.calll xm) = true → s.ordOk 1 3 = true → s.actOf xm.g = 0 → ∃ t, exec (.calll xm) s = .next t ∧
      CurStep (s.readBy (mmCh xm.mm) 8 []) t ∧ MemorySame s t ∧ GroupRegs s.cur t.cur ∧ ∀ file r l, l < 32 →
        t.cur.stored file r l = s.cur.stored file r l) ∧
    (let bad := (lanesOf (s.actOf xm.g)).filter (fun l => !(s.cur.helpers s.curBlock).getLsbD l && (slot l).isBad)
     ∀ l cause sub, s.passes (.calll xm) = true → s.ordOk 1 3 = true → (∀ l ∈ lanesOf (s.actOf xm.g), slot l ≠ .wait ∧ slot l ≠ .held) →
      bad.head? = some l → slot l = .bad cause sub → exec (.calll xm) s = .next (s.raise s.curCore s.curSlot
        { cause, sub, addr := (s.src64 xm.a l + xm.ofs.signExtend 64).toNat, lanes := maskOf bad })) ∧
    (let u := s.readBy (mmCh xm.mm) 8 (keysOf (s.actOf xm.g) slot)
     let odd := (lanesOf (s.actOf xm.g)).filter (fun l => entry l &&& 7 != 0)
     s.passes (.calll xm) = true → s.ordOk 1 3 = true → s.lanesOk (s.actOf xm.g) 8 true slot = true →
      outsideLane (s.actOf xm.g) slot = false → s.acqOk 1 3 (laneCells (keysOf (s.actOf xm.g) slot) 8) = true →
      (∀ l, odd.head? = some l → exec (.calll xm) s = .next (u.raise s.curCore s.curSlot { cause := 3, addr := (entry l).toNat, lanes := maskOf odd })) ∧
      (s.actOf xm.g ≠ 0 → odd = [] → ¬ fits xm.g entry → exec (.calll xm) s = .next (u.raise s.curCore s.curSlot { cause := 7 })))

/-- RCV, JOIN, EXIT, LOOPHINT, TRAP, BKPT and NOP (R83 to R89), with the faults of RCV, JOIN and TRAP, whose records' LMASK is read from the
spec (assumption 26). -/
def Obligations.ReconvergenceAndTraps : Prop :=
  ∀ (xb : FmtB) (x : FmtR) (xi : FmtI) (s : State),
    let pc := s.cur.pc
    let act := s.actOf x.g
    let acti := s.actOf xi.g
    let next : Host.Outcome State Fault Refusal := .next (s.setGroup s.curCore s.curSlot s.cur.next)
    let left := s.cur.m &&& ~~~act
    let stop := fun (f : GFault) => (.next (s.raise s.curCore s.curSlot f) : Host.Outcome State Fault Refusal)
    (legal (.rcv xb) = true → xb.lnk = .v 0 ∧ xb.a = .v 0 ∧ xb.g = ⟨false, 7⟩) ∧
    (s.passes (.rcv xb) = true → 16 ≤ s.cur.stack.length → exec (.rcv xb) s = stop { cause := 7 }) ∧
    (∀ n, s.passes (.join x) = true → joinStack pc s.cur.stack = .fault n → exec (.join x) s = stop { cause := 7, sub := n }) ∧
    (s.passes (.trap xi) = true → acti ≠ 0 → s.cur.trapbase = 0 → exec (.trap xi) s = stop { cause := 0xC, sub := xi.imm.toNat }) ∧
    (s.passes (.trap xi) = true → acti ≠ 0 → s.cur.trapbase ≠ 0 → s.cur.m &&& ~~~acti ≠ 0 → 16 ≤ s.cur.stack.length →
      exec (.trap xi) s = stop { cause := 7 }) ∧
    (s.passes (.rcv xb) = true → s.cur.stack.length < 16 → ∃ t, exec (.rcv xb) s = .next t ∧ CurStep s t ∧
      t.cur = { s.cur with
        pc := pc + 8
        stack := { rcv := true, pc := pc + 8 + (xb.ofs.signExtend 64 <<< 3), mask := s.cur.m } :: s.cur.stack }) ∧
    (∀ m q r, s.passes (.join x) = true → joinStack pc s.cur.stack = .run m q r → ∃ t, exec (.join x) s = .next t ∧ CurStep s t ∧
      t.cur = { s.cur with
        st := .waiting .join
        m := m
        pc := q
        stack := r
        y0v := false
        y1v := false }) ∧
    (s.passes (.join x) = true → joinStack pc s.cur.stack = .ends → ∃ t, exec (.join x) s = .next t ∧ MemorySame s t ∧ OthersSame s t ∧
      t.cur.st = .ended ∧ t.cur.m = 0 ∧ t.curBlock.ngrp = s.curBlock.ngrp - 1) ∧
    (s.passes (.exit x) = true → act = 0 → exec (.exit x) s = next) ∧
    (s.passes (.exit x) = true → act ≠ 0 → ∃ t, exec (.exit x) s = .next t ∧ MemorySame s t ∧ t.cur.exitm = s.cur.exitm ||| act ∧
      (∀ e ∈ t.cur.stack, e.mask &&& act = 0) ∧ t.cur.m &&& act = 0 ∧
      (s.cur.st = .running → left ≠ 0 → t.cur.m = left ∧ t.cur.pc = pc + 8 ∧ t.cur.st = .running)) ∧
    (s.passes (.loophint xi) = true → ∃ t, exec (.loophint xi) s = .next t ∧ CurStep s t ∧
      t.cur = if acti = 0 then s.cur.next else { s.cur with
        pc := pc + 8
        hintT := xi.imm.setWidth 8
        hintValid := true
        hintHead := pc + 8 }) ∧
    (s.passes (.trap xi) = true → acti = 0 → exec (.trap xi) s = next) ∧
    (s.passes (.trap xi) = true → acti ≠ 0 → s.cur.trapbase ≠ 0 → (acti = s.cur.m ∨ s.cur.stack.length < 16) →
      ∃ t, exec (.trap xi) s = .next t ∧ CurStep s t ∧ t.cur = { s.cur with
        stack := if acti = s.cur.m then s.cur.stack else { rcv := false, pc := pc + 8, mask := s.cur.m &&& ~~~acti } :: s.cur.stack
        m := acti
        y0v := false
        y1v := false
        trapN := xi.imm
        trapRet := pc + 8
        pc := s.cur.trapbase }) ∧
    (s.passes (.bkpt xi) = true → ((s.part s.curBlock.part).dbgctl.getLsbD 0 = false ∨ acti = 0) → exec (.bkpt xi) s = next) ∧
    (s.passes (.bkpt xi) = true → (s.part s.curBlock.part).dbgctl.getLsbD 0 = true → acti ≠ 0 → ∃ t, exec (.bkpt xi) s = .next t ∧
      CurStep s t ∧ t.cur = { s.cur with haltReq := true }) ∧
    (legal (.nop x) = true → x.d = .v 0 ∧ x.a = .v 0 ∧ x.b = .v 0 ∧ x.c = 0 ∧ x.m = 0) ∧
    (s.passes (.nop x) = true → exec (.nop x) s = next)

/-! ## Barriers, pages, heap, resumption, rearrangement, regions -/

/-- BAR.SYNC and BAR.ARRIVE (R413 to R416) for the group that issues, which is RUNNING (R27): the lanes of ACT arrive at the named barrier; when the
phase is complete its bit of BPH toggles and the group goes on, otherwise the record holds the arrivals and a SYNC waits. A phase that a HALTED
group of the block could complete does not complete till it resumes (R427). An arrival waits till the group's earlier writes stand (assumption 96).
It rests on assumptions 101 and 123 too. -/
def Obligations.NamedBarriers : Prop :=
  ∀ (x : FmtR) (s : State), ∀ q ∈ [(Instr.barSync x, true), (.barArrive x, false)],
    let act := s.actOf x.g
    let c := s.core s.curCore
    let blk := s.cur.blk
    let n := barIndex x.d
    let expl := x.a != .discard
    let cnt := (s.src x.a (lowest act)).toNat
    let old := c.bars.find? (fun r => r.blk == blk && r.name == n)
    let r := old.getD { blk, name := n, explicit := expl, expect := if expl then cnt else 0, arrived := [], waiters := [] }
    let new := (s.cur.threadsIn act).filter (fun t => !r.arrived.contains t)
    let r' : BarRec := { r with
      arrived := r.arrived ++ new
      waiters := if q.2 then r.waiters ++ [s.curSlot] else r.waiters }
    s.passes q.1 = true → s.cur.st = .running →
      (act = 0 → exec q.1 s = .next (s.setGroup s.curCore s.curSlot s.cur.next)) ∧
      (act ≠ 0 → r.explicit = expl → (expl = true → r.expect = cnt ∧ 1 ≤ cnt ∧ cnt ≤ 1024 ∧ r.arrived.length + new.length ≤ r.expect) →
        (old.isSome || c.barFree blk) = true → s.arrivesOk 1 = true → ∃ t, exec q.1 s = .next t ∧ MemorySame s t ∧
          (r'.done s.curBlock = true → c.barHeld r' = false →
            t.cur = s.cur.next ∧ t.curBlock.bph.getLsbD n = !s.curBlock.bph.getLsbD n) ∧
          (r'.done s.curBlock = false ∨ c.barHeld r' = true → r' ∈ (t.core s.curCore).bars ∧
            t.cur = if q.2 then { s.cur with st := .waiting (.bar n) } else s.cur.next))

/-- GBAR.SYNC, GBAR.ARRIVE and CVDECL (R417 to R420) complete for a RUNNING group that has no earlier access to wait for and whose block has room
for the set: a SYNC goes on or waits, an ARRIVE goes on, and CVDECL declares the count of a convergence register. Where no other set of the die is
full and no gang record is held, an arrival that does not complete its block stands in the block's set, and one that completes the phase of an
ordinary launch toggles GPH and frees the set. It rests on assumption 96. -/
def Obligations.GangBarriersAndDeclarations : Prop :=
  ∀ (x : FmtR) (s : State),
    let act := s.actOf x.g
    let n := barIndex x.d
    let b := s.curBlock
    let old := b.gsets.find? (fun q => q.name == n)
    let q := old.getD { name := n, arrived := [], waiters := [], full := false }
    let all := q.arrived ++ (s.cur.threadsIn act).filter (fun t => !q.arrived.contains t)
    let cnt := (s.src x.a (lowest act)).toNat
    let cv := SMap.get {} b.cvs n
    let ready := s.cur.st = .running ∧ act ≠ 0 ∧ (old.isSome || decide (b.gsets.length < 2)) = true ∧ s.arrivesOk 2 = true
    let quiet := s.fullSets (dieOf s.curCore) = [] ∧ SMap.get [] s.gangs (dieOf s.curCore) = []
    let waits := { s.cur with st := .waiting (.gbar n) }
    let turned := fun (t : State) => t.cur = s.cur.next ∧ t.curBlock.gph.getLsbD n = (!b.gph.getLsbD n) ∧ ∀ p ∈ t.curBlock.gsets, p.name ≠ n
    let last := quiet ∧ covers all b.live = true ∧ b.live ≠ [] ∧ b.gangLaunch = false ∧ b.preempt = none ∧ s.curSlot ∈ b.slots
    (∀ i ∈ [Instr.gbarSync x, .gbarArrive x, .cvdecl x], s.passes i = true → act = 0 →
      exec i s = .next (s.setGroup s.curCore s.curSlot s.cur.next)) ∧
    (s.passes (.gbarSync x) = true → ready → ∃ t, exec (.gbarSync x) s = .next t ∧ MemorySame s t ∧ (t.cur = s.cur.next ∨ t.cur = waits) ∧
      (quiet → covers all b.live = false → t.cur = waits ∧ { q with
        arrived := all
        waiters := q.waiters ++ [s.curSlot]
        full := false } ∈ t.curBlock.gsets) ∧
      (last → turned t)) ∧
    (s.passes (.gbarArrive x) = true → ready → ∃ t, exec (.gbarArrive x) s = .next t ∧ MemorySame s t ∧ t.cur = s.cur.next ∧
      (quiet → covers all b.live = false → { q with
        arrived := all
        full := false } ∈ t.curBlock.gsets) ∧
      (last → turned t)) ∧
    (s.passes (.cvdecl x) = true → act ≠ 0 → 1 ≤ cnt → cnt ≤ 40 → (cv.signers = [] ∨ cnt = cv.decl) → ∃ t, exec (.cvdecl x) s = .next t ∧
      MemorySame s t ∧ OthersSame s t ∧ t.cur = s.cur.next ∧ SMap.get {} t.curBlock.cvs n = { cv with decl := cnt })

/-- PGCOMMIT, PGRELEASE, PGPROT, PGQUERY and PGPOOL (R222 to R228): where page generation is enabled, no address has high bits and no access through
an entry that changes is outstanding (R226, R227), the lanes act one after the other in ascending order and D receives their statuses. It rests on
assumptions 37, 46, 96, 112 and 113. -/
def Obligations.PageForms : Prop :=
  ∀ (x : FmtR) (s : State),
    let act := s.actOf x.g
    let v := act &&& ~~~(s.cur.helpers s.curBlock)
    let e := s.fe x.g
    let va := fun l => (s.src64 x.a l).toNat
    let asp := SMap.get {} (s.part s.curBlock.part).aspaces s.curBlock.asid
    let end_ := fun l => walk s s.curBlock.part (s.rootOf s.curBlock.part s.curBlock.asid (va l)) (va l)
    let p := s.part s.curBlock.part
    let forms : List (Instr × (Nat → Bool) × (Nat → State → Nat × State)) :=
      [(.pgcommit x, fun _ => e.commitBusy, fun l s => e.commitLane (x.m.getLsbD 0) s (va l)),
       (.pgrelease x, fun l => e.releaseBusy (end_ l), fun l s => e.releaseLane s (va l)),
       (.pgprot x, fun l => e.protBusy (e.g.rd x.b l).toNat (end_ l), fun l s => e.protLane (fun l => (e.g.rd x.b l).toNat) l s (va l))]
    (∀ f ∈ forms,
      let q := runLanes f.2.2 (lanesOf v) s
      s.passes f.1 = true → (v = 0 ∨ asp.pgen = true) → s.ordOk 3 3 = true →
      (∀ l ∈ lanesOf v, va l < 2 ^ 56 ∧ (end_ l).kind ≠ .absent ∧ (end_ l).kind ≠ .held ∧ f.2.1 l = false ∧
        s.poisonAt (end_ l).addr 8 = false) →
        ∃ t, exec f.1 s = .next t ∧ GroupRegs s.cur t.cur ∧ OthersSame s t ∧ Wrote32 s.cur t.cur x.g act x.d (statusOf q.1) ∧
          (∀ a, SMap.get 0 t.mem a = SMap.get 0 q.2.mem a) ∧ t.parts = q.2.parts ∧ t.tlb = q.2.tlb) ∧
    (s.passes (.pgquery x) = true → (∀ l ∈ lanesOf act, va l < 2 ^ 56 → (end_ l).kind ≠ .absent ∧ (end_ l).kind ≠ .held ∧
      s.poisonAt (end_ l).addr 8 = false) →
      s.ordOk 1 3 = true → s.acqOk 1 3 (((lanesOf act).filter (fun l => decide (va l < 2 ^ 56))).map (fun l => ((end_ l).addr, 8))) = true → ∃ t, exec (.pgquery x) s = .next t ∧
      Result64 s t x.g x.d (fun l => if 2 ^ 56 ≤ va l then 0 else
        BitVec.ofNat 64 ((end_ l).entry % 2 ^ 60 + (end_ l).level * 2 ^ 60 + (if (end_ l).kind = .format then 2 ^ 63 else 0)))) ∧
    (s.passes (.pgpool x) = true → ∃ t, exec (.pgpool x) s = .next t ∧ Result32 s t x.g x.d (fun _ =>
      if fldC x.c 0 2 = 0 then BitVec.ofNat 32 p.poolFree else if fldC x.c 0 2 = 1 then BitVec.ofNat 32 p.poolCap
      else if fldC x.c 0 2 = 2 then BitVec.ofNat 32 p.lowwater else p.empties))

/-- HALLOC, HFREE and HSIZE (R251 to R255): where the heap is enabled, D receives the addresses, the statuses or the sizes, and only the partition's
heap changes. It rests on assumptions 36 and 94. -/
def Obligations.HeapForms : Prop :=
  ∀ (x : FmtR) (s : State),
    let act := s.actOf x.g
    let v := act &&& ~~~(s.cur.helpers s.curBlock)
    let pt := s.curBlock.part
    let on := v = 0 ∨ (SMap.get {} (s.part pt).aspaces s.curBlock.asid).heapen = true
    let size := fun l => (s.src x.a l).toNat
    let addr := fun l => (s.src64 x.a l).toNat
    let qa := runLanes (fun l s => s.halloc pt (size l)) (lanesOf v) s
    let qf := runLanes (fun l s => s.hfree pt (addr l)) (lanesOf v) s
    (s.passes (.halloc x) = true → on → s.ordOk 1 3 = true → ∃ t, exec (.halloc x) s = .next t ∧ MemorySame s t ∧ OthersSame s t ∧
      GroupRegs s.cur t.cur ∧
      Wrote64 s.cur t.cur x.g act x.d (fun l => BitVec.ofNat 64 (oldOf qa.1 l)) ∧ t.parts = qa.2.parts) ∧
    (s.passes (.hfree x) = true → on → s.ordOk 2 3 = true → ∃ t, exec (.hfree x) s = .next t ∧ MemorySame s t ∧ OthersSame s t ∧
      GroupRegs s.cur t.cur ∧ Wrote32 s.cur t.cur x.g act x.d (statusOf qf.1) ∧ t.parts = qf.2.parts) ∧
    (s.passes (.hsize x) = true → on → s.ordOk 1 3 = true → ∃ t, exec (.hsize x) s = .next t ∧ Result32 s t x.g x.d (fun l =>
      if v.getLsbD l then BitVec.ofNat 32 ((s.part pt).hsize (addr l)) else 0))

/-- GRESUME (R433): with fault handling enabled, the action is taken on what the FAULTID names, and D receives the status where the issuing group
still runs. It rests on assumption 65. -/
def Obligations.GroupResume : Prop :=
  ∀ (x : FmtR) (s s1 : State) (st : Nat), ∀ q ∈ [(Instr.gresumeReplay x, 0), (.gresumeSkip x, 1), (.gresumeKill x, 2)],
    let act := s.actOf x.g
    let v := act &&& ~~~(s.cur.helpers s.curBlock)
    let id := s.src x.a (lowest v)
    s.passes q.1 = true →
      (v = 0 → exec q.1 s = .next (s.setGroup s.curCore s.curSlot s.cur.next)) ∧
      (v ≠ 0 → (SMap.get {} (s.part s.curBlock.part).aspaces s.curBlock.asid).flten = true → s.ordOk 2 3 = true →
        s.resumeHeld id q.2 = false → s.resume s.curBlock.part id q.2 (if q.2 = 1 then s.src64 x.b (lowest v) else 0) = some (st, s1) →
          (s1.cur.st = .running → ∃ t, exec q.1 s = .next t ∧ CurStep s1 t ∧ GroupRegs s1.cur t.cur ∧
            Wrote32 s1.cur t.cur x.g act x.d (fun _ => BitVec.ofNat 32 st)) ∧
          (s1.cur.st ≠ .running → exec q.1 s = .next s1))

/-- REGROUP and REGROUPB arrive at the rendezvous (R377), and the shuffle, when every participant has arrived and is drained, its stores performed
(R378, R279), empties the rendezvous and sends the block's groups on past it (R380, R381). It rests on assumptions 74, 96 and 106. -/
def Obligations.Rearrangement : Prop :=
  ∀ (x : FmtR) (core blk : Nat) (r : Rdv) (s : State),
    let b := s.curBlock
    let forms : List (Instr × Bool × Opnd × Nat) := [(.regroup x, false, x.a, fldM x.m 0 6), (.regroupb x, true, .discard, 0)]
    (∀ f ∈ forms,
      let r0 : Rdv := b.rdv.getD { pc := s.cur.pc, back := f.2.1, key := f.2.2.1, bits := f.2.2.2, arrived := [] }
      s.passes f.1 = true → s.cur.m = ~~~s.cur.exitm → s.cur.stack = [] → (s.fe x.g).matPending = false →
      r0.pc = s.cur.pc → r0.back = f.2.1 → r0.key = f.2.2.1 → r0.bits = f.2.2.2 →
        ∃ t, exec f.1 s = .next t ∧ MemorySame s t ∧ OthersSame s t ∧ t.cur = { s.cur with st := .waiting .regroup } ∧
          t.curBlock = { b with rdv := some { r0 with arrived := r0.arrived ++ [s.curSlot] } }) ∧
    (((s.core core).block blk).rdv = some r → (s.core core).shuffleReady ((s.core core).block blk) r = true →
      s.unperformedBy core ((s.core core).participants ((s.core core).block blk)) 1 = false →
      s.unseen core ((s.core core).participants ((s.core core).block blk)) 1 = false → ∃ t, exec (.regroupShuffle core blk) s = .next t ∧
        MemorySame s t ∧ ((t.core core).block blk).rdv = none ∧
        (r.back = false → ((t.core core).block blk).regrouped = true ∧ ∀ i ∈ ((s.core core).block blk).slots,
          ((t.group core i).st = .running ∧ (t.group core i).pc = r.pc + 8) ∨ (t.group core i).st = .reserved) ∧
        (r.back = true → ((t.core core).block blk).regrouped = false))

/-! ## Engines and the matrix node -/

/-- The copy forms (R349 to R352): without a helper-free lane they have no effect; where no check fails and the queue and the tag have room, the
operations enter the queue; a CPYP releases first. CPYWAIT goes on when its tag is 0, as an acquire, and CPYCNT reads it, acquiring where it is 0
(R346). It rests on assumption 94. -/
def Obligations.CopyForms : Prop :=
  ∀ (x3 : FmtR3) (x : FmtR) (s : State),
    let next : Host.Outcome State Fault Refusal := .next (s.setGroup s.curCore s.curSlot s.cur.next)
    let e := s.fe x3.g
    let v := s.actOf x3.g &&& ~~~(s.cur.helpers s.curBlock)
    let low := lowest v
    let tag := tagIndex x3.d
    let vx := s.actOf x.g &&& ~~~(s.cur.helpers s.curBlock)
    let fine := fun (l : List (Nat × Xlat)) => (gravest l).2 = .zero
    let out := x3.m.getLsbD 0
    let a := fun l => (s.src x3.a l).toNat
    let va := fun l => (s.src64 x3.b l).toNat
    let n := fun l => min (s.src x3.c l).toNat 32
    let need := if out then Need.write else .read
    let len := (s.src x3.c low).toNat
    let len64 := (s.src64 x3.c low).toNat
    let end_ := fun (g : Bool) (o : Opnd) (n : Nat) => e.bulkEnd g o n
    let d := end_ (x3.m == 1 || x3.m == 3) x3.a len
    let r := end_ (x3.m == 0 || x3.m == 3) x3.b len
    let df := end_ (x3.m == 1) x3.a len
    let dp := end_ true x3.a len64
    let rp := end_ true x3.b len64
    let scope := fun (tags : Byte) => if s.cur.peerTags &&& tags = 0 then 1 else 4
    (∀ i ∈ [Instr.cpy32 x3, .cpyb x3, .cpyfill x3, .cpyp x3], s.passes i = true → v = 0 → exec i s = next) ∧
    (∀ i ∈ [Instr.cpyst x, .cpywait x, .cpycnt x], s.passes i = true → vx = 0 → exec i s = next) ∧
    (s.passes (.cpy32 x3) = true → v ≠ 0 →
      (∀ l ∈ lanesOf v, fine ([alignedAt 4 (a l), alignedAt 4 (va l), e.ownSpot (a l) (if out then n l else 32)] ++ e.pagesReach need (va l) (n l))) →
      s.copyRoom tag (lanesOf v).length → ∃ t, exec (.cpy32 x3) s = .next t ∧ Copied s t tag false ((lanesOf v).map (fun l =>
        if out then ([(spOff (a l), n l)], e.pages need (va l) (n l)) else (e.pages need (va l) (n l) ++ [(.zero, 32 - n l)], [(spOff (a l), 32)])))) ∧
    (s.passes (.cpyb x3) = true → v ≠ 0 → len ≠ 0 → fine [d.1, r.1] → s.copyRoom tag 1 →
      ∃ t, exec (.cpyb x3) s = .next t ∧ Copied s t tag false [([(r.2, len)], [(d.2, len)])]) ∧
    (s.passes (.cpyfill x3) = true → v ≠ 0 → len ≠ 0 → len % 4 = 0 → df.1.1 % 4 = 0 → fine [df.1] → s.copyRoom tag 1 →
      ∃ t, exec (.cpyfill x3) s = .next t ∧ Copied s t tag false [([(.fill (s.src x3.b low), len)], [(df.2, len)])]) ∧
    (s.passes (.cpyp x3) = true → v ≠ 0 → len64 ≠ 0 → len64 ≤ 2 ^ 40 → fine [dp.1, rp.1] → s.ordOk 2 4 = true → s.copyRoom tag 1 →
      ∃ t, exec (.cpyp x3) s = .next t ∧ Copied s t tag true [([(rp.2, len64)], [(dp.2, len64)])]) ∧
    (∀ i ∈ [Instr.cpyb x3, .cpyfill x3], s.passes i = true → v ≠ 0 → len = 0 → exec i s = next) ∧
    (s.passes (.cpyp x3) = true → v ≠ 0 → len64 = 0 → exec (.cpyp x3) s = next) ∧
    (s.passes (.cpywait x) = true → vx ≠ 0 → s.cur.tagsDone (tagsOf x) = true →
      s.ordOk 1 (scope (tagsOf x)) = true → ∃ t, exec (.cpywait x) s = .next t ∧ CurStep s t ∧ t.cur = { s.cur with
        pc := s.cur.pc + 8
        peerTags := s.cur.peerTags &&& ~~~(tagsOf x) }) ∧
    (s.passes (.cpywait x) = true → vx ≠ 0 → s.cur.tagsDone (tagsOf x) = false →
      ∃ t, exec (.cpywait x) s = .next t ∧ CurStep s t ∧ t.cur = { s.cur with st := .waiting (.cpywait (tagsOf x)) }) ∧
    (s.passes (.cpycnt x) = true → vx ≠ 0 → (s.cur.tag (tagIndex x.a) = 0 → s.ordOk 1 (scope (1#8 <<< tagIndex x.a)) = true) →
      ∃ t, exec (.cpycnt x) s = .next t ∧ Result32 s t x.g x.d (fun _ => (s.cur.tag (tagIndex x.a)).setWidth 32))

/-- CPYST and the memory tile forms (R351, R353 to R356). It rests on assumptions 62 and 94. -/
def Obligations.BoxAndTileForms : Prop :=
  ∀ (x3 : FmtR3) (x : FmtR) (s : State),
    let next : Host.Outcome State Fault Refusal := .next (s.setGroup s.curCore s.curSlot s.cur.next)
    let e := s.fe x.g
    let e3 := s.fe x3.g
    let v := s.actOf x.g &&& ~~~(s.cur.helpers s.curBlock)
    let v3 := s.actOf x3.g &&& ~~~(s.cur.helpers s.curBlock)
    let low := lowest v
    let fine := fun (l : List (Nat × Xlat)) => (gravest l).2 = .zero
    let a := (s.src x.a low).toNat
    let rec_ := (s.src x.b low).toNat
    let h := shapeOf (s.spRead s.curCore s.cur.blk (rec_ % 2 ^ 20) 32)
    let w := 2 ^ h.lesz
    let row := h.e0 * w
    let sp := (List.range (h.e1 * h.e2)).map (fun i => (spOff (a + row * i), row))
    let gl := h.rows.map (fun q => (EAddr.gl q, row))
    let q := if x.m.getLsbD 0 then (sp, gl) else (gl, sp)
    let wt := mmBytes x.m
    let inSp := x.m.getLsbD 8
    let d := (s.src x.d low).toNat
    let at_ := if inSp then (s.src x.a low).toNat else (s.src64 x.a low).toNat
    let el := e.tileAddr x
    let tileFine := fun (need : Need) => ∀ l ∈ lanesOf v, fine ([alignedAt wt d, alignedAt wt at_, e.ownSpot d (32 * wt), alignedAt wt (el l)] ++
      (if inSp then [e.ownSpot (el l) wt] else e.pagesReach need (el l) wt))
    let els := fun (need : Need) => (lanesOf v).flatMap (fun l => if inSp then [(spOff (el l), wt)] else e.pages need (el l) wt)
    let ds := (lanesOf v).map (fun l => (spOff (d + wt * l), wt))
    let w3 := mmBytes x3.m
    let sp3 := x3.m.getLsbD 8
    let d3 := (s.src x3.d (lowest v3)).toNat
    let a3 := if sp3 then (s.src x3.a (lowest v3)).toNat else (s.src64 x3.a (lowest v3)).toNat
    let k := (s.src x3.c (lowest v3)).toNat
    let src := fun (n : Nat) => if sp3 then [e3.ownSpot a3 n] else e3.pagesReach .read a3 n
    let from_ := fun (n : Nat) => if sp3 then [(spOff a3, n)] else e3.pages .read a3 n
    let nz := natOf ((from_ 2).flatMap (s.rangeBytes s.curCore s.cur.blk))
    let n3 := 4 + k / 8 + (if nz ≤ k then nz * w3 else 0)
    (s.passes (.cpyst x) = true → v ≠ 0 → fine [e.ownSpot rec_ 32] → s.toBeWritten s.curCore s.curBlock [(spOff rec_, 32)] = false →
      s.localPoison s.curCore s.cur.blk 32 rec_ = false →
      boxOk (s.spRead s.curCore s.cur.blk (rec_ % 2 ^ 20) 32) = true →
      a % w = 0 → h.va.toNat % w = 0 → h.s1 % w = 0 → h.s2 % w = 0 → fine [e.ownSpot a h.size] → h.below = false →
      (∀ r ∈ h.rows, r + row ≤ 2 ^ 56) → s.copyRoom (tagIndex x.d) 1 →
        ∃ t, exec (.cpyst x) s = .next t ∧ ∃ l, (l = q ∨ (x.m.getLsbD 0 = true ∧ l = (q.1.reverse, q.2.reverse))) ∧
          Copied s t (tagIndex x.d) false [l]) ∧
    (∀ i ∈ [Instr.gath x, .scat x], s.passes i = true → v = 0 → exec i s = next) ∧
    (s.passes (.gath x) = true → v ≠ 0 → tileFine .read → s.tileRoom → ∃ t, exec (.gath x) s = .next t ∧ Tiled s t (els .read) ds .move) ∧
    (s.passes (.scat x) = true → v ≠ 0 → fldM x.m 5 2 = 0 → tileFine .write → s.tileRoom →
      ∃ t, exec (.scat x) s = .next t ∧ Tiled s t ds (els .write) .move) ∧
    (s.passes (.scat x) = true → v ≠ 0 → fldM x.m 5 2 ≠ 0 → tileFine .write → s.tileRoom →
      ∃ t, exec (.scat x) s = .next t ∧ Tiled s t ds (els .write) (.add wt (fldM x.m 5 2 == 2))) ∧
    (s.passes (.gathbm x3) = true → v3 = 0 → exec (.gathbm x3) s = next) ∧
    (s.passes (.gathbm x3) = true → v3 ≠ 0 → a3 % 4 = 0 → d3 % 32 = 0 → k % 32 = 0 → 32 ≤ k → k ≤ 4096 → fine [e3.ownSpot d3 (k * w3)] →
      fine (src (4 + k / 8)) → s.toBeWritten s.curCore s.curBlock (from_ 2) = false → fine (src n3) → s.tileRoom →
        ∃ t, exec (.gathbm x3) s = .next t ∧ Tiled s t (from_ n3) [(spOff d3, k * w3)] (.expand a3 k w3 nz)) ∧
    (s.passes (.mtwait x) = true → v = 0 ∨ (s.cur.mtc = 0 ∧ s.ordOk 1 1 = true) → exec (.mtwait x) s = next) ∧
    (s.passes (.mtwait x) = true → v ≠ 0 → s.cur.mtc ≠ 0 → ∃ t, exec (.mtwait x) s = .next t ∧ CurStep s t ∧
      t.cur = { s.cur with st := .waiting .mtwait })

/-- The engines' operations perform (R343, R345, R347, R353 to R356): one that nothing holds back moves its bytes, a tile lane by lane, and lowers
its counter (no write of the hub waits for its claims); one whose piece fails its checks is suspended under a new FAULTID. It rests on assumption
62. -/
def Obligations.EngineEvents : Prop :=
  ∀ (core n : Nat) (o : CopyOp) (q : TileOp) (s : State),
    let c := s.core core
    let w := s.copyRest core o
    (c.copyq[n]? = some o → o.susp = none → s.enginesHeld core = false → resolved w.1 = true → resolved w.2 = true →
      s.mayRun core o.id (c.block o.blk) w.1 w.2 = true → s.poisonIn core o.blk w.1 = none → s.hubq = [] →
        ∃ t, exec (.copyComplete core n) s = .next t ∧
        (∀ a, SMap.get 0 t.mem a = SMap.get 0 (s.transfer core o.blk o.slot w.1 w.2).mem a) ∧
        (t.group core o.slot).tag o.tag = (s.group core o.slot).tag o.tag - 1 ∧ ∀ p ∈ (t.core core).copyq, p.id ≠ o.id) ∧
    (c.tileq.find? (fun p => p.tile == n) = some q → s.enginesHeld core = false → s.mayRun core q.id (c.block q.blk) q.reads q.writes = true →
      s.poisonIn core q.blk (q.reads ++ (if q.kind.consumes then q.writes else [])) = none → s.hubq = [] →
      (∀ a k w nz, q.kind = .expand a k w nz →
        resolved (s.moreValues core q a w (if k < nz then 0 else nz) (natOf ((q.reads.flatMap (s.rangeBytes core q.blk)).take 2))) = true) →
      ∃ t, exec (.tileComplete core n) s = .next t ∧
        (t.group core q.slot).mtc = (s.group core q.slot).mtc - 1 ∧ (∀ p ∈ (t.core core).tileq, p.id ≠ q.id) ∧
        (q.kind = .move → ∀ a, SMap.get 0 t.mem a = SMap.get 0 (((q.reads.zip q.writes).foldl (fun (s : State) r =>
          s.putRanges core q.blk [r.2] (s.rangeBytes core q.blk r.1)) s).performed core q.slot (memCells q.writes)).mem a)) ∧
    (∀ d a cause sub, c.copyq[n]? = some o → o.susp = none → s.enginesHeld core = false →
      ((List.range ((rangesLen o.writes + 255) / 256)).filterMap (fun i => if o.done ≤ 256 * i then some (256 * i) else none)).find?
        (fun d => !(s.pieceFails core (c.block o.blk) o d).isEmpty) = some d →
      lowestFail (s.pieceFails core (c.block o.blk) o d) = some (a, .bad cause sub) →
        ∃ t, exec (.enginePieceFault core n) s = .next t ∧ (t.group core o.slot).faults = (s.group core o.slot).faults + 1 ∧
          (∀ p ∈ (t.core core).copyq, p.id = o.id → ∃ su, p.susp = some su ∧ su.cause = cause ∧ su.addr = BitVec.ofNat 64 a ∧ su.pc = o.pc) ∧
          (t.group core o.slot).st = (s.group core o.slot).st)

/-- The matrix forms that prepare the operand buffer and the tiles, and MDRAIN (R306, R313 to R315, R321, R357, R358): with ACT empty they have no
effect; where no check fails they complete, or their work enters the queue. It rests on assumptions 63 and 96. -/
def Obligations.MatrixForms : Prop :=
  ∀ (x3 : FmtR3) (x : FmtR) (rv : Resv) (off : Nat) (sp : Spot) (s : State),
    let next : Host.Outcome State Fault Refusal := .next (s.setGroup s.curCore s.curSlot s.cur.next)
    let c := s.core s.curCore
    let blk := s.cur.blk
    let e := s.fe x.g
    let e3 := s.fe x3.g
    let act := s.actOf x.g
    let act3 := s.actOf x3.g
    let v := act &&& ~~~(s.cur.helpers s.curBlock)
    let v3 := act3 &&& ~~~(s.cur.helpers s.curBlock)
    let plain := fun (a n : Nat) => s.spot s.curCore blk a n = .ok sp ∧ sp.win = none
    let ok3 := c.reservation blk (obIndex x3.d) = some rv
    let room := c.matq.length < 16 ∧ s.arrivesOk 1 = true
    let a := (s.src x.a (lowest act)).toNat
    let a3 := (s.src x3.a (lowest act3)).toNat
    let o3 := (s.src x3.b (lowest act3)).toNat
    let n3 := (s.src x3.c (lowest act3)).toNat
    let va := (s.src64 x3.a (lowest v3)).toNat
    let ov := (s.src x3.b (lowest v3)).toNat
    let nv := (s.src x3.c (lowest v3)).toNat
    let t := accIndex x.d
    let mine := SMap.get 0 c.claims t = 0 ∨ SMap.get 0 c.claims t = blk + 1
    let keys := (List.range 16).map (fun i => (i, (s.localReach s.curCore blk .load 1 (a + i)).2.key))
    let readable := s.spot s.curCore blk a 16 = .ok sp ∧ (∀ i, i < 16 → (s.localReach s.curCore blk .load 1 (a + i)).2.fine s 32 false false = true) ∧
      s.destWait s.curCore blk 16 a = false ∧ s.staleAt s.curCore s.curSlot blk 16 a = false ∧
      ((s.fillAll s.curCore blk 1 (a + ·) keys).loadLines s.curCore s.curSlot 0 (laneCells keys 32)).localPoison s.curCore blk 16 a = false
    let r := (s.fillAll s.curCore blk 1 (a + ·) keys).spRead sp.core sp.blk sp.off 16
    let new : Resv := { resvOf r with
      blk := blk
      name := obIndex x.d
      off := off
      len := (resvOf r).rangeBytes }
    (∀ i ∈ [Instr.obrsv x, .obrel x, .accinitZero x, .accinitLd x, .mdrainS x, .mdrainC x, .accrd x, .mwait x], s.passes i = true → act = 0 →
      exec i s = next) ∧
    (∀ i ∈ [Instr.obldS x3, .obldR x3], s.passes i = true → act3 = 0 → exec i s = next) ∧
    (∀ i ∈ [Instr.mma x3, .mmas x3], s.passes i = true → e3.mmaReduced x3 = false → act3 = 0 → exec i s = next) ∧
    (∀ i ∈ [Instr.mma x3, .mmas x3], s.passes i = true → e3.mmaReduced x3 = true →
      exec i s = .next (s.raise s.curCore s.curSlot { cause := 1 })) ∧
    (s.passes (.obrsv x) = true → act ≠ 0 → c.reservation blk (obIndex x.d) = none → c.resv.length < 32 → readable →
      resvOk r = true → c.obFree (resvOf r).rangeBytes = some off → ∃ t, exec (.obrsv x) s = .next t ∧ MemorySame s t ∧ OthersSame s t ∧
        t.cur = s.cur.next ∧ (t.core s.curCore).resv = c.resv ++ [new] ∧
        ∀ k, SMap.get 0 (t.core s.curCore).opbuf k = if off ≤ k ∧ k < off + new.len then 0 else SMap.get 0 c.opbuf k) ∧
    (s.passes (.obrel x) = true → act ≠ 0 → c.reservation blk (obIndex x.d) ≠ none →
      (∀ q ∈ c.matq, q.blk = blk → obIndex x.d ∉ q.work.handles) → ∃ t, exec (.obrel x) s = .next t ∧ MemorySame s t ∧ OthersSame s t ∧
        t.cur = s.cur.next ∧ (t.core s.curCore).reservation blk (obIndex x.d) = none) ∧
    (s.passes (.obldS x3) = true → act3 ≠ 0 → ok3 → a3 % 32 = 0 → o3 % 32 = 0 → n3 % 32 = 0 → 32 ≤ n3 → o3 + n3 ≤ rv.len → plain a3 n3 →
      room → ∃ t, exec (.obldS x3) s = .next t ∧ Entered s t (.obldS rv.name a3 o3 n3 (e3.spotAddr sp))) ∧
    (s.passes (.obldR x3) = true → act3 ≠ 0 → ok3 → rv.sparse = false → o3 % 128 = 0 → o3 + 128 ≤ rv.len → room →
      ∃ t, exec (.obldR x3) s = .next t ∧ Entered s t (.obldR rv.name o3 ((lanesOf v3).map (fun l => (l, s.src x3.a l))))) ∧
    (s.passes (.tfetch x3) = true → v3 = 0 → exec (.tfetch x3) s = next) ∧
    (s.passes (.tfetch x3) = true → v3 ≠ 0 → ok3 → va % 32 = 0 → ov % 32 = 0 → nv % 32 = 0 → 32 ≤ nv → ov + nv ≤ rv.len →
      (gravest (e3.pagesReach .read va nv)).2 = .zero → room →
        ∃ t, exec (.tfetch x3) s = .next t ∧ Entered s t (.tfetch rv.name ov nv va (e3.pages .read va nv))) ∧
    (s.passes (.tfrel x) = true → v = 0 → exec (.tfrel x) s = next) ∧
    (s.passes (.tfrel x) = true → v ≠ 0 → c.reservation blk (obIndex x.d) ≠ none → room →
      ∃ t, exec (.tfrel x) s = .next t ∧ Entered s t (.tfrel (obIndex x.d))) ∧
    (s.passes (.accinitZero x) = true → act ≠ 0 → mine → room → ∃ u, exec (.accinitZero x) s = .next u ∧ Entered s u (.accZero t) ∧
      (u.core s.curCore).claimed blk t = true) ∧
    (s.passes (.accinitLd x) = true → act ≠ 0 → mine → a % 256 = 0 → plain a 16384 → room →
      ∃ u, exec (.accinitLd x) s = .next u ∧ Entered s u (.accLd t (e.spotAddr sp)) ∧ (u.core s.curCore).claimed blk t = true) ∧
    (s.passes (.mdrainS x) = true → act ≠ 0 → c.claimed blk t = true → a % 256 = 0 → plain a 16384 → room →
      ∃ u, exec (.mdrainS x) s = .next u ∧ Entered s u (.drainS t (e.spotAddr sp) (x.m.getLsbD 1) (x.m.getLsbD 2))) ∧
    (s.passes (.mdrainC x) = true → act ≠ 0 → c.claimed blk t = true → c.drainDest blk ≠ none → room →
      ∃ u, exec (.mdrainC x) s = .next u ∧ Entered s u (.drainC t (x.m.getLsbD 1) (x.m.getLsbD 2)))

/-- ACCRD, MMA, MMAS and MWAIT (R316, R317, R322): ACCRD reads a row of a claimed tile that no entry names; a round whose group fires alone enters
the queue, and one that names a convergence register signs it, and fires with the last signer that its declaration asks for; the group that issues
is RUNNING. It rests on assumptions 63, 64 and 96. -/
def Obligations.RoundsAndReads : Prop :=
  ∀ (x3 : FmtR3) (x : FmtR) (va vb : Resv) (s : State),
    let c := s.core s.curCore
    let blk := s.cur.blk
    let t := accIndex x.a
    let r := (s.src x.b (lowest (s.actOf x.g))).toNat
    let all := x.m.getLsbD 0
    let ids := (c.matq.filter (fun q => q.blk == blk && (all || q.work.tile == some (accIndex x.d)))).map (·.id)
    let cvs := (s.curBlock.cvs.filter (fun p => p.2.signers.contains s.curSlot && (all || p.2.d == accIndex x.d))).map (·.1)
    let learnt := s.learn s.curCore [s.curSlot] s.curBlock.slots
    let open_ := s.actOf x.g ≠ 0 ∧ c.claimed blk t = true ∧ r ≤ 63 ∧ c.tileBusy t = false
    let rounds := fun (sparse : Bool) =>
      let k := (if sparse then 2 else 1) * fmtK va.fmt
      s.actOf x3.g ≠ 0 ∧ s.cur.st = .running ∧ s.arrivesOk 1 = true ∧ (s.devstate = 1 → va.fmt = 3 ∧ vb.fmt = 3) ∧
        c.reservation blk (obIndex x3.a) = some va ∧
        c.reservation blk (obIndex x3.b) = some vb ∧
      c.claimed blk (accIndex x3.d) = true ∧ va.sparse = sparse ∧ vb.sparse = false ∧ widthClass va.fmt = widthClass vb.fmt ∧
      fldM x3.m 0 8 * k + k ≤ va.klen ∧ fldM x3.m 0 8 * k + k ≤ vb.klen
    let work := fun (sparse : Bool) => MatWork.mma sparse (accIndex x3.d) (obIndex x3.a) (obIndex x3.b) x3.m
    (s.passes (.accrd x) = true → open_ → x.m.getLsbD 1 = false → ∃ u, exec (.accrd x) s = .next u ∧
      Result32 s u x.g x.d (fun l => c.tileWord t r ((if x.m.getLsbD 0 then 32 else 0) + l))) ∧
    (s.passes (.accrd x) = true → open_ → x.m.getLsbD 1 = true → ∃ u, exec (.accrd x) s = .next u ∧
      Result64 s u x.g x.d (fun l => c.tileWord t r (2 * l + 1) ++ c.tileWord t r (2 * l))) ∧
    (∀ p ∈ [(Instr.mma x3, false), (.mmas x3, true)], s.passes p.1 = true → rounds p.2 → cvOf x3.c = none →
      6 ≤ s.curBlock.kd.shares → c.matq.length < 16 → ∃ u, exec p.1 s = .next u ∧ MemorySame s u ∧ u.cur = s.cur.next ∧
        ∃ id, (u.core s.curCore).matq = c.matq ++ [{ id, blk, signers := [s.curSlot], work := work p.2, started := false, half := false }]) ∧
    (∀ n, ∀ p ∈ [(Instr.mma x3, false), (.mmas x3, true)],
      let cv := SMap.get {} s.curBlock.cvs n
      s.passes p.1 = true → rounds p.2 → cvOf x3.c = some n → cv.signers.length + 1 < cv.decl → s.curSlot ∉ cv.signers →
      (cv.signers = [] ∨ (cv.sparse, cv.d, cv.a, cv.b, cv.m) = (p.2, accIndex x3.d, obIndex x3.a, obIndex x3.b, x3.m)) →
        ∃ u, exec p.1 s = .next u ∧ MemorySame s u ∧ OthersSame s u ∧ u.cur = s.cur.next ∧
          (SMap.get {} u.curBlock.cvs n).signers = cv.signers ++ [s.curSlot]) ∧
    (∀ n, ∀ p ∈ [(Instr.mma x3, false), (.mmas x3, true)],
      let cv := SMap.get {} s.curBlock.cvs n
      s.passes p.1 = true → rounds p.2 → cvOf x3.c = some n → 1 ≤ cv.decl → cv.decl ≤ cv.signers.length + 1 → s.curSlot ∉ cv.signers →
      (cv.signers = [] ∨ (cv.sparse, cv.d, cv.a, cv.b, cv.m) = (p.2, accIndex x3.d, obIndex x3.a, obIndex x3.b, x3.m)) →
      6 ≤ s.curBlock.kd.shares → c.matq.length < 16 →
        ∃ u, exec p.1 s = .next u ∧ MemorySame s u ∧ u.cur = s.cur.next ∧ SMap.get {} u.curBlock.cvs n = { decl := cv.decl } ∧
          ∃ id, (u.core s.curCore).matq = c.matq ++
            [{ id, blk, signers := cv.signers ++ [s.curSlot], work := work p.2, started := false, half := false }]) ∧
    (s.passes (.mwait x) = true → s.actOf x.g = 0 ∨ all = true ∨ c.claimed blk (accIndex x.d) = true → ids = [] → cvs = [] →
      exec (.mwait x) s = .next ((if s.actOf x.g = 0 then s else learnt).setGroup s.curCore s.curSlot s.cur.next)) ∧
    (s.passes (.mwait x) = true → s.actOf x.g ≠ 0 → all = true ∨ c.claimed blk (accIndex x.d) = true → ¬ (ids = [] ∧ cvs = []) →
      ∃ u, exec (.mwait x) s = .next u ∧ CurStep learnt u ∧ MemorySame s u ∧
      u.cur = { s.cur with st := .waiting (.mwait ids cvs) })

/-- The matrix queue executes (R309, R318 to R321): an entry that may run has its effect and leaves; a round starts when the node is free and the
limit of R13 allows it; a drain sends its next token. It rests on assumptions 62, 64 and 115. -/
def Obligations.MatrixEvents : Prop :=
  ∀ (core n : Nat) (p q : MatEntry) (s : State),
    let c := s.core core
    (c.matq[n]? = some p → q = p.translated s core → q.work.isDrainC = false → (q.work.isMma = true → q.started = true) →
      (q.work.isTfetch = true → s.enginesHeld core = false ∧ resolved q.work.ranges.1 = true) → s.matRun core n q = true →
      s.poisonIn core q.blk q.work.ranges.1 = none → ∃ t, exec (.matrixEntryComplete core n) s = .next t ∧
        ((s.matWork core q.blk q.work).hubq = [] → ∀ a, SMap.get 0 t.mem a = SMap.get 0 (s.matWork core q.blk q.work).mem a) ∧
        (t.core core).acc = ((s.matWork core q.blk q.work).core core).acc ∧ (t.core core).opbuf = ((s.matWork core q.blk q.work).core core).opbuf ∧
        ∀ p ∈ (t.core core).matq, p.id ≠ q.id) ∧
    (∀ half, c.matq.findIdx? (fun q => q.work.isMma && !q.started) = some n → c.matq[n]? = some q → c.round = none → c.matFree n q = true →
      c.roundRate q = some half → ∃ t, exec (.mmaRoundStart core) s = .next t ∧ MemorySame s t ∧
        (t.core core).matq = updWhere (fun p => p.id == q.id) (fun p => { p with
          started := true
          half := half }) c.matq) ∧
    (∀ t clr rel, c.matq.findIdx? (fun q => q.work.isDrainC) = some n → c.matq[n]? = some q → q.work = .drainC t clr rel → c.matFree n q = true →
      c.drainBlocked q.blk = false → SMap.get 0 c.drain t < 511 → ∃ u, exec (.drainToken core) s = .next u ∧ MemorySame s u ∧
        SMap.get 0 (u.core core).drain t = SMap.get 0 c.drain t + 1 ∧ (u.core core).matq = c.matq ∧ (u.core core).acc = c.acc)

/-! ## Regions -/

/-- FXLOAD, FXRUN, FXWAIT, FXPARAM, FXDROP and DAMP, and the end of a load (R399 to R405, R45): none of them changes memory or another group, and a
form with a result leaves it in D; the group that issued an FXLOAD holds its D until the load ends. It rests on assumptions 25, 34, 89, 96 and 117.
-/
def Obligations.RegionForms : Prop :=
  ∀ (x : FmtR) (s : State) (pi : Nat) (p : Placed),
    let act := s.actOf x.g
    let c := s.core s.curCore
    let blk := s.cur.blk
    let e := s.fe x.g
    let r := c.regionOf blk (rgnOf x)
    let va := e.baseAddr x.a (lowest act)
    let size := max 64 (imSize (s.pageBytes va 64))
    let image := s.pageBytes va size
    let gave := fun (t : State) (v : Word) => MemorySame s t ∧ OthersSame s t ∧ GroupRegs s.cur t.cur ∧
      Wrote32 s.cur t.cur x.g act x.d (fun _ => v)
    let moved := fun (t : State) => MemorySame s t ∧ OthersSame s t ∧ t.cur = s.cur.next
    let octets := [0, 1, 2, 3].filter (fun o => decide (s.cur.fxOct ≤ o + 1) && ((act >>> (8 * o)).setWidth 8 : Byte) != 0)
    (∀ i ∈ [Instr.fxload x, .fxrun x, .fxwait x, .fxparam x, .fxdrop x, .damp x], s.passes i = true → act = 0 → s.cur.fxEnd = none →
      exec i s = .next (s.setGroup s.curCore s.curSlot s.cur.next)) ∧
    (s.passes (.fxload x) = true → act ≠ 0 → (∀ q, r = some q → q.2.region ≠ some .loading) → va % 64 = 0 → s.pagesOk va 64 = true →
      s.pagesOk va size = true →
      (∀ why detail, e.refusal image r.isSome = some (why, detail) → ∃ t, exec (.fxload x) s = .next t ∧
        gave t (BitVec.ofNat 32 (why + 256 * detail))) ∧
      (e.refusal image r.isSome = none → ∃ t, exec (.fxload x) s = .next t ∧ MemorySame s t ∧ OthersSame s t ∧
        GroupRegs { s.cur with loads := s.cur.loads ++ [(rgnOf x, x.d)] } t.cur ∧ Wrote32 s.cur t.cur x.g act x.d (fun _ => 0) ∧
        let q := (t.core s.curCore).placedAt c.freePlaced
        q.blk = blk ∧ q.rgn = rgnOf x ∧ q.region = some .loading ∧ q.image = image)) ∧
    (s.passes (.fxrun x) = true → act ≠ 0 → r = some (pi, p) → (p.region = some .loaded ∨ p.region = some .done) →
      c.carillonHeld = false → c.flyingTo pi = false → 4 ≤ c.limit → s.arrivesOk 1 = true → ∃ t, exec (.fxrun x) s = .next t ∧ moved t ∧
        (t.core s.curCore).placedAt pi = p.run) ∧
    (s.passes (.fxwait x) = true → act ≠ 0 → s.cur.fxEnd = none → r = some (pi, p) → p.region = some .running →
      ∃ t, exec (.fxwait x) s = .next t ∧ CurStep s t ∧ t.cur = { s.cur with st := .waiting (.fxwait (rgnOf x)) }) ∧
    (∀ n, s.passes (.fxwait x) = true → s.cur.fxEnd = some n → ∃ t, exec (.fxwait x) s = .next t ∧ CurStep s t ∧
      GroupRegs { s.cur with
        fxOct := 0
        fxEnd := none } t.cur ∧ Wrote32 s.cur t.cur x.g act x.d (fun _ => BitVec.ofNat 32 n)) ∧
    (∀ n, s.passes (.fxparam x) = true → s.cur.fxEnd = some n → exec (.fxparam x) s = .next (s.setGroup s.curCore s.curSlot { s.cur with
      pc := s.cur.pc + 8
      fxOct := 0
      fxEnd := none })) ∧
    (∀ v, s.passes (.fxwait x) = true → act ≠ 0 → s.cur.fxEnd = none → ((r = some (pi, p) ∧ p.region = some .done ∧ v = 0) ∨
        (r = some (pi, p) ∧ p.region = some .faulted ∧ v = 1) ∨ (r = some (pi, p) ∧ p.region = some .loaded ∧ v = 2) ∨ (r = none ∧ v = 2)) →
      ∃ t, exec (.fxwait x) s = .next t ∧ gave t v) ∧
    (∀ d, s.passes (.fxparam x) = true → act ≠ 0 → s.cur.fxEnd = none → r = some (pi, p) → p.region ≠ some .loading → p.region ≠ some .faulted →
      (p.ports[fldM x.m 2 4]?).bind (p.dest pi) = some d → (e.paramSend x d octets c).2 = none → ∃ t, exec (.fxparam x) s = .next t ∧
        MemorySame s t ∧ OthersSame s t ∧ t.cur = { s.cur with
          pc := s.cur.pc + 8
          fxOct := 0 } ∧ (t.core s.curCore).hops = c.hops ++ octets.map (fun o => (d, e.paramToken x o))) ∧
    (∀ d o, s.passes (.fxparam x) = true → act ≠ 0 → s.cur.fxEnd = none → r = some (pi, p) → p.region ≠ some .loading → p.region ≠ some .faulted →
      (p.ports[fldM x.m 2 4]?).bind (p.dest pi) = some d → (e.paramSend x d octets c).2 = some o → s.cur.fxOct ≠ o + 1 →
        ∃ t, exec (.fxparam x) s = .next t ∧
        MemorySame s t ∧ OthersSame s t ∧ t.cur = { s.cur with
          fxOct := o + 1
          fxRgn := rgnOf x } ∧
        (t.core s.curCore).hops = c.hops ++ (octets.filter (· < o)).map (fun o => (d, e.paramToken x o))) ∧
    (s.passes (.fxdrop x) = true → act ≠ 0 → r = none → exec (.fxdrop x) s = .next (s.setGroup s.curCore s.curSlot s.cur.next)) ∧
    (s.passes (.fxdrop x) = true → act ≠ 0 → s.cur.st = .running → s.cur.fxOct = 0 → r = some (pi, p) → p.region ≠ some .loading →
      c.drainsInto blk pi = false →
      ∃ t, exec (.fxdrop x) s = .next t ∧ MemorySame s t ∧ t.cur = s.cur.next ∧ (t.core s.curCore).placedAt pi = {} ∧
        ∀ h ∈ (t.core s.curCore).hops, h ∈ c.hops ∧ ∀ n k, h.1 ≠ .port pi n k) ∧
    (s.passes (.damp x) = true → act ≠ 0 →
      let slot := (s.src x.a (lowest act)).toNat
      let l := (c.streaming blk).filter (fun q => !x.m.getLsbD 0 || q.2.slot == slot)
      ∃ t, exec (.damp x) s = .next t ∧ MemorySame s t ∧ GroupRegs s.cur t.cur ∧
        Wrote32 s.cur t.cur x.g act x.d (fun _ => BitVec.ofNat 32 (l.filter (fun q => q.2.injected)).length) ∧
        (∀ k i, (k, i) ≠ (s.curCore, s.curSlot) → t.group k i = s.group k i ∨
          ∃ q ∈ l, q.2.injected = false ∧ k = s.curCore ∧ i = q.2.slot ∧ t.group k i = { s.group k i with st := .running }) ∧
        ((∀ q ∈ l, q.2.injected = true) → ∀ n q, (n, q) ∈ l → (c.placedAt n).copy = some q →
          ((t.core s.curCore).placedAt n).copy = some (q.dampTo q.nextIter .damp))) ∧
    (∀ core b rgn, (s.core core).regionOf b rgn = some (pi, p) → p.region = some .loading → ∃ t, exec (.fxloadLoadEnd core b rgn) s = .next t ∧
      MemorySame s t ∧ (t.core core).placedAt pi = { p with region := some .loaded } ∧
      (∀ c' i, c' ≠ core ∨ i ∉ ((s.core core).block b).slots → t.group c' i = s.group c' i) ∧
      ∀ i ∈ ((s.core core).block b).slots, t.group core i = { s.group core i with loads := (s.group core i).loads.filter (fun q => q.1 != rgn) })

/-! ## Carillon elements -/

/-- The element forms that compute one word in each executed lane (R190, R195, R196, R204): in the lanes X that the guard leaves, the d
registers that DA and DB name hold the rule's word, every other d register of the context is unchanged, and each out port that they name
gets a data token with that word in the lanes of X and 0 elsewhere. -/
def Obligations.ElementResults : Prop :=
  ∀ (x : ElemWord) (s : State),
    let f := s.firing s.curCore s.curElem s.curElemSlot x
    let a := fun l => f.src x.sa l
    let b := fun l => f.src x.sb l
    let e := fun l => if 4 ≤ x.da.toNat ∧ x.da.toNat < 12 then f.src x.da l else f.lit
    let cmp := fun (c : Word → Word → Bool) l => if c (a l) (b l) then 0xFFFFFFFF#32 else 0
    let fl := fun (g : Nat → Nat → Nat) l => w32 (g (a l).toNat (b l).toNat)
    let fc := fun (cc : Nat) => cmp (fun a b => floatCond cc (f32.value a.toNat) (f32.value b.toNat))
    let forms : List (Instr × ElemForm × (Nat → Word)) :=
      [(.elemAdd x, formElemAdd, fun l => a l + b l), (.elemSub x, formElemSub, fun l => a l - b l), (.elemMul x, formElemMul, fun l => a l * b l),
       (.elemMulh x, formElemMulh, fun l => ((a l).setWidth 64 * (b l).setWidth 64 : Dword).extractLsb' 32 32),
       (.elemMad x, formElemMad, fun l => a l * b l + e l),
       (.elemMin x, formElemMin, fun l => if (b l).slt (a l) then b l else a l), (.elemMax x, formElemMax, fun l => if (a l).slt (b l) then b l else a l),
       (.elemAnd x, formElemAnd, fun l => a l &&& b l), (.elemOr x, formElemOr, fun l => a l ||| b l), (.elemXor x, formElemXor, fun l => a l ^^^ b l),
       (.elemAndn x, formElemAndn, fun l => a l &&& ~~~(b l)), (.elemNot x, formElemNot, fun l => ~~~(a l)),
       (.elemShl x, formElemShl, fun l => shlWord false (a l) (b l)), (.elemShr x, formElemShr, fun l => shrWord false (a l) (b l)),
       (.elemSar x, formElemSar, fun l => sarWord false (a l) (b l)),
       (.elemPopc x, formElemPopc, fun l => popcWord (a l)), (.elemClz x, formElemClz, fun l => clzWord (a l)),
       (.elemSel x, formElemSel, fun l => if (f.t.pred (gdPred x.gd)).getLsbD l == x.gd.getLsbD 3 then a l else b l),
       (.elemLsel x, formElemLsel, fun l => f.src x.sa ((b l).toNat % 8)),
       (.elemFadd x, formElemFadd, fl (f32.addC plainArith)), (.elemFsub x, formElemFsub, fl (f32.subC plainArith)),
       (.elemFmul x, formElemFmul, fl (f32.mulC plainArith)),
       (.elemFfma x, formElemFfma, fun l => w32 (f32.fmaC plainArith (a l).toNat (b l).toNat (e l).toNat)),
       (.elemFmin x, formElemFmin, fl (f32.minMax false false)), (.elemFmax x, formElemFmax, fl (f32.minMax true false)),
       (.elemFtoi x, formElemFtoi, fun l => BitVec.ofInt 32 (numToInt .rz true 32 (f32.value (a l).toNat))),
       (.elemItof x, formElemItof, fun l => w32 (f32.narrow .rne false (numOfInt (a l).toInt))),
       (.elemCeq x, formElemCeq, cmp (· == ·)), (.elemCne x, formElemCne, cmp (· != ·)), (.elemClt x, formElemClt, cmp BitVec.slt),
       (.elemCle x, formElemCle, cmp BitVec.sle), (.elemCltn x, formElemCltn, cmp BitVec.ult), (.elemClen x, formElemClen, cmp BitVec.ule),
       (.elemFclt x, formElemFclt, fc 2), (.elemFcle x, formElemFcle, fc 3), (.elemFceq x, formElemFceq, fc 0), (.elemFcne x, formElemFcne, fc 9),
       (.elemSclatch x, formElemSclatch, fun l => a l &&& 0xFF)]
    ∀ q ∈ forms, ∀ r xs, q.2.1.goes f r → q.2.1.lanes f = some xs → ∃ t, exec q.1 s = .next t ∧ MemorySame s t ∧ GroupsSame s t ∧
      ElemsSame s t s.curCore s.curElem ∧
      (∀ k l, k < 8 → l < 8 → (((t.core s.curCore).elem s.curElem).ctx f.k).dreg k l =
        if (x.da.toNat = 4 + k ∨ (x.da ≠ 12 ∧ x.db.toNat = 5 + k)) ∧ xs.getLsbD l = true then q.2.2 l else f.t.dreg k l) ∧
      (t.core s.curCore).hops = f.c.hops ++ f.sent (f.outPorts.map (fun n =>
        (n, tokenOf (hdrTyped (q.2.1.header f) false) (fun l => if xs.getLsbD l then q.2.2 l else 0))))

/-- Every element form (R186, R190, R193, R198): a slot that is not ready does nothing, and NOP never is; one that fires leaves its context with the
effect's values and the header, its number in PTR, takes a token of each channel once for each time the effect names it, and sends the effect's
tokens; a head of the wrong type or a sticky count that disagrees with END makes the region FAULTED. It rests on assumptions 30 and 109. -/
def Obligations.ElementFirings : Prop :=
  ∀ (x : ElemWord) (s : State),
    let f := s.firing s.curCore s.curElem s.curElemSlot x
    let forms : List (Instr × ElemForm) :=
      [(.elemMov x, formElemMov), (.elemAdd x, formElemAdd), (.elemSub x, formElemSub), (.elemMul x, formElemMul), (.elemMulh x, formElemMulh),
       (.elemMad x, formElemMad), (.elemMin x, formElemMin), (.elemMax x, formElemMax), (.elemAnd x, formElemAnd), (.elemOr x, formElemOr),
       (.elemXor x, formElemXor), (.elemAndn x, formElemAndn), (.elemNot x, formElemNot), (.elemShl x, formElemShl), (.elemShr x, formElemShr),
       (.elemSar x, formElemSar), (.elemPopc x, formElemPopc), (.elemClz x, formElemClz), (.elemSel x, formElemSel), (.elemFadd x, formElemFadd),
       (.elemFsub x, formElemFsub), (.elemFmul x, formElemFmul), (.elemFfma x, formElemFfma), (.elemFmin x, formElemFmin),
       (.elemFmax x, formElemFmax), (.elemFtoi x, formElemFtoi), (.elemItof x, formElemItof), (.elemCeq x, formElemCeq), (.elemCne x, formElemCne),
       (.elemClt x, formElemClt), (.elemCle x, formElemCle), (.elemCltn x, formElemCltn), (.elemClen x, formElemClen), (.elemFclt x, formElemFclt),
       (.elemFcle x, formElemFcle), (.elemFceq x, formElemFceq), (.elemFcne x, formElemFcne), (.elemPset x, formElemPset),
       (.elemPclr x, formElemPclr), (.elemPand x, formElemPand), (.elemPor x, formElemPor), (.elemPnot x, formElemPnot),
       (.elemSteer x, formElemSteer), (.elemMerge x, formElemMerge), (.elemMergeu x, formElemMergeu), (.elemDrop x, formElemDrop),
       (.elemEmit x, formElemEmit), (.elemDeq x, formElemDeq), (.elemSclatch x, formElemSclatch), (.elemQuant x, formElemQuant),
       (.elemAmaxr x, formElemAmaxr), (.elemCnt x, formElemCnt), (.elemAcc x, formElemAcc), (.elemAccrel x, formElemAccrel),
       (.elemLsel x, formElemLsel)]
    exec (.elemNop x) s = .next s ∧
    (∀ q ∈ forms, q.2.ready f = none → exec q.1 s = .next s) ∧
    (∀ q ∈ forms, ∀ r, q.2.goes f r → ∃ t, exec q.1 s = .next t ∧ MemorySame s t ∧ GroupsSame s t ∧ ElemsSame s t s.curCore s.curElem ∧
      let e := (t.core s.curCore).elem s.curElem
      e.ctx f.k = { r.t with hdr := q.2.header f } ∧ (∀ k, k ≠ f.k → e.ctx k = f.e.ctx k) ∧ e.ptr = f.k ∧
      (∀ n, e.chan n = Nat.repeat Channel.deq (r.deqs.count n) (f.e.chan n)) ∧ (t.core s.curCore).hops = f.c.hops ++ f.sent r.sends) ∧
    (∀ q ∈ forms, ∀ r, q.2.ready f = some r → f.p.copy = none → ((q.2.typeFault f).isSome || (q.2.stickyFault f r.deqs).isSome) = true →
      ∃ t, exec q.1 s = .next t ∧ ((t.core s.curCore).placedAt f.pi).region = some .faulted ∧ (t.core s.curCore).hops = f.c.hops) ∧
    (∀ core elem slot, let e := (s.core core).elem elem
      e.owner ≠ 0 → 8 ≤ e.wdog → 2 ^ e.wdog ≤ SMap.get 0 e.wcount slot → ((s.core core).placedAt (e.owner - 1)).copy = none →
        ∃ t, exec (.carillonStarve core elem slot) s = .next t ∧ ((t.core core).placedAt (e.owner - 1)).region = some .faulted ∧
          SMap.get 0 ((t.core core).elem elem).wcount slot = 0)

/-- What the transport, predicate, quantization and accumulating element forms do when they fire (R197 to R209): their tokens, the channels they
take from and the accumulating parts of their context. What e4m3 holds between 448 and 512 is the MODEL'S CHOICE (assumption 91); where QUANT takes
its source B from is read from the spec (assumption 27). It rests on assumptions 108 and 111 too. -/
def Obligations.ElementTransport : Prop :=
  ∀ (x : ElemWord) (s : State),
    let f := s.firing s.curCore s.curElem s.curElemSlot x
    let a := fun l => f.src x.sa l
    let pred := fun (n : Nat) l => (f.t.pred n).getLsbD l
    let arm := fun (n : Nat) => if (f.headLane n 0).getLsbD 0 then x.sb.toNat else x.sa.toNat
    let after := fun (i : Instr) (m : ElemForm) (r : Effect) (post : (h : Word) → (xs : Byte) → Ctx → List (Nat × Token) → List Nat → Prop) =>
      ∀ xs, m.goes f r → m.lanes f = some xs → ∃ t, exec i s = .next t ∧
        post (m.header f) xs (((t.core s.curCore).elem s.curElem).ctx f.k) r.sends r.deqs ∧ (t.core s.curCore).hops = f.c.hops ++ f.sent r.sends
    let preds : List (Instr × ElemForm × (Nat → Bool)) := [(.elemPset x, formElemPset, fun _ => true), (.elemPclr x, formElemPclr, fun _ => false),
      (.elemPand x, formElemPand, fun l => pred x.sa.toNat l && pred x.sb.toNat l), (.elemPor x, formElemPor, fun l => pred x.sa.toNat l || pred x.sb.toNat l),
      (.elemPnot x, formElemPnot, fun l => !pred x.sa.toNat l)]
    let acc := fun (h : Word) (xs : Byte) (k : Ctx) => (∀ l, l < 8 → SMap.get 0 k.accv l =
        if xs.getLsbD l then opAcc (accOp f.t.accmode) (SMap.get 0 f.t.accv l) (a l) else SMap.get 0 f.t.accv l) ∧
      k.ecnt = (if hdrEnd h (accLvl f.t.accmode) then (f.t.ecnt + 1) % 256 else f.t.ecnt) ∧
      k.ardy = (hdrEnd h (accLvl f.t.accmode) && (f.t.ecnt + 1) % 256 == accN f.t.accmode || f.t.ardy)
    (∀ q ∈ preds, ∀ r, after q.1 q.2.1 r (fun _ xs k sends deqs => sends = [] ∧ deqs = f.ta ∧
      ∀ l, l < 8 → (k.pred x.db.toNat).getLsbD l = if x.db.toNat ≠ 7 ∧ xs.getLsbD l = true then q.2.2 l else pred x.db.toNat l)) ∧
    (∀ r, after (.elemMov x) formElemMov r (fun h _ _ sends deqs => sends = f.outPorts.map (fun n => (n, tokenOf h a)) ∧ deqs = f.ta)) ∧
    (∀ r, after (.elemDeq x) formElemDeq r (fun _ _ _ sends deqs => sends = [] ∧ deqs = f.ta)) ∧
    (∀ r, after (.elemDrop x) formElemDrop r (fun h _ _ sends deqs =>
      let keep := (List.range 8).foldl (fun (m : Byte) l =>
        if (f.lit.getLsbD 0 && (a l &&& 0x7FFFFFFF) == 0) || (f.lit.getLsbD 1 && f32.isNaN (a l).toNat) then m &&& ~~~(1#8 <<< l) else m) (hdrMask h)
      deqs = f.ta ∧ (keep = 0 → sends = []) ∧ (keep ≠ 0 → sends = f.outPorts.map (fun n => (n, tokenOf (hdrMasked h keep) a))))) ∧
    (∀ r, after (.elemEmit x) formElemEmit r (fun h _ _ sends deqs => deqs = f.ta ∧
      sends = f.outPorts.map (fun n => (n, tokenOf (hdrTyped (h ||| ((f.lit &&& 0xF) <<< 8)) (f.lit.getLsbD 4)) a)))) ∧
    (∀ r l0, ((List.range 8).find? (fun l => (hdrMask (formElemSteer.header f)).getLsbD l)) = some l0 →
      after (.elemSteer x) formElemSteer r (fun h _ _ sends deqs =>
        let b := (f.src x.sb l0).getLsbD 0
        deqs = f.ta ∧ sends = (if b = true ∧ x.db ≠ 0 then [(x.db.toNat - 1, tokenOf h a)]
          else if b = false ∧ x.da.toNat < 4 then [(x.da.toNat, tokenOf h a)] else []) ++
          (if f.lit.getLsbD 2 then [(f.lit.toNat % 4, tokenOf (hdrTyped h false) (fun _ => if b then 1 else 0))] else []))) ∧
    (∀ r, after (.elemMerge x) formElemMerge r (fun h _ _ sends deqs => let n := arm (f.lit.toNat % 4)
      deqs = [f.lit.toNat % 4, n] ∧ sends = f.outPorts.map (fun q => (q, tokenOf h (f.headLane n))))) ∧
    (∀ r n, formElemMergeu.goes f r → f.mergeuArm = some n → ∃ t, exec (.elemMergeu x) s = .next t ∧ r.deqs = [n] ∧
      (t.core s.curCore).hops = f.c.hops ++ f.sent (f.outPorts.map (fun q => (q, tokenOf (formElemMergeu.header f) (f.headLane n)))) ∧
      (f.slot < 16 → ((t.core s.curCore).elem s.curElem).mlast.getLsbD f.slot = (n != x.sa.toNat))) ∧
    (∀ r, after (.elemQuant x) formElemQuant r (fun h xs _ sends deqs => deqs = f.ta ∧
      sends = f.outPorts.map (fun n => (n, tokenOf (hdrTyped h false) (fun l => if xs.getLsbD l then
        w32 (quantCode (f.lit.toNat % 32) (rndOf (f.lit.toNat / 2 ^ 6 % 8) 0) false (f.lit.getLsbD 5)
          (if x.sb = 12 then f.lit.toNat / 2 ^ 16 % 256 else (f.src x.sb l).toNat % 256) (f32.value (a l).toNat)) else 0))))) ∧
    (∀ r, after (.elemCnt x) formElemCnt r (fun h xs k sends deqs =>
      let n := f.t.ccnt + BitVec.ofNat 32 ((List.range 8).filter (fun l => xs.getLsbD l && (!f.lit.getLsbD 0 || a l != 0))).length
      deqs = f.ta ∧ (hdrEnd h (f.lit.toNat / 2 % 4) = false → sends = [] ∧ k.ccnt = n) ∧
      (hdrEnd h (f.lit.toNat / 2 % 4) = true → k.ccnt = 0 ∧ sends = f.outPorts.map (fun q => (q, tokenOf (hdrTyped h false) (fun _ => n)))))) ∧
    (∀ r, after (.elemAmaxr x) formElemAmaxr r (fun h _ k sends deqs => deqs = f.ta ∧
      ((f.t.tcnt + 1) % 4 ≠ 0 → hdrEnd h 0 = false → sends = [] ∧ k.tcnt = (f.t.tcnt + 1) % 4) ∧
      ((f.t.tcnt + 1) % 4 = 0 ∨ hdrEnd h 0 = true → k.tcnt = 0 ∧ k.amx = 0 ∧ sends.length = f.outPorts.length ∧
        ∀ q ∈ sends, hdrScale q.2.hdr = true))) ∧
    (∀ r, after (.elemAcc x) formElemAcc r (fun h xs k sends deqs => sends = [] ∧ deqs = f.ta ∧ acc h xs k)) ∧
    (∀ r, after (.elemAccrel x) formElemAccrel r (fun _ _ k sends deqs => deqs = [] ∧
      sends = f.outPorts.map (fun n => (n, tokenOf f.t.ahdr (fun l => if (hdrMask f.t.ahdr).getLsbD l then SMap.get 0 f.t.accv l else 0))) ∧
      k.accv = accClear f.t.accmode ∧ k.ecnt = 0 ∧ k.ardy = false))

/-! ## Events of a region -/

/-- Token arrival, count tokens, and the nodes of a RUNNING region (R361 to R364, R366, R395, R403, R423): tokens of one channel arrive in the order
sent; a memory node takes its tokens and performs, a stream engine sends its next elements, and the end node makes the region DONE. A node's port
holds two tokens, read from the spec (assumption 35); which moment a streaming read returns is free (assumption 100), and which accesses the end of
a region awaits is the MODEL'S CHOICE (assumption 116). It rests on assumptions 81 and 96 too. -/
def Obligations.TokensAndNodes : Prop :=
  ∀ (s : State) (core n : Nat),
    let c := s.core core
    let full := fun (d : Dest) => match d with
      | .chan e k => ((c.elem e).chan k).limit ≤ ((c.elem e).chan k).q.length
      | .port pi node k => 2 ≤ (((c.placedAt pi).node node).port k).length
    (∀ d tok, c.hops[n]? = some (d, tok) → (∀ h ∈ c.hops.take n, h.1 ≠ d) → ¬ full d → ∃ t, exec (.channelTokenArrive core n) s = .next t ∧
      MemorySame s t ∧ GroupsSame s t ∧ (t.core core).hops = c.hops.eraseIdx n ∧
      (match d with
       | .chan e k => ((t.core core).elem e).chan k = ((c.elem e).chan k).put tok
       | .port pi node k => (((t.core core).placedAt pi).node node).port k = ((c.placedAt pi).node node).port k ++ [tok])) ∧
    (∀ d tok, c.hops[n]? = some (d, tok) → (∃ h ∈ c.hops.take n, h.1 = d) ∨ full d → exec (.channelTokenArrive core n) s = .next s) ∧
    (∀ blk k v r, (c.block blk).tokens = (k, v) :: r → ∃ t, exec (.countToken core blk) s = .next t ∧ MemorySame s t ∧ GroupsSame s t ∧
      let b := (t.core core).block blk
      let up := fun (old : Nat) => min (old + v) (2 ^ 48 - 1)
      b.tokens = r ∧ b.satn = (if k = 0 then up (c.block blk).satn else (c.block blk).satn) ∧
      b.nann = (if k = 1 then up (c.block blk).nann else (c.block blk).nann) ∧
      b.skipn = (if 2 ≤ k then up (c.block blk).skipn else (c.block blk).skipn)) ∧
    (∀ q, s.nodeTurn core n = some q → q.p.copy = none → q.d.kind = 1 → q.d.past = [] → q.d.whole = true → (q.d.returns = true → q.room = true) →
      q.held = false → q.fine = true → ∃ t, exec (.memoryNodeAccess core n) s = .next t ∧ GroupsSame s t ∧ MemorySame (q.perform q.keys).1 t ∧
        let d := ((t.core core).placedAt q.pi).node q.ni
        d.in0 = q.d.in0.tail ∧ d.in1 = (if q.d.needs.1 then q.d.in1.tail else q.d.in1) ∧
        d.in2 = (if q.d.needs.2 then q.d.in2.tail else q.d.in2) ∧
        (∀ dest, q.d.returns = true → q.p.dest q.pi q.d.route = some dest → ∃ h, (t.core core).hops = c.hops ++ [(dest, tokenOf h (fun l =>
          if q.d.lanes.contains l then BitVec.ofNat 32 ((q.perform q.keys).2 l) else 0))]) ∧
        (q.d.returns = false → (t.core core).hops = c.hops)) ∧
    (∀ q dest, s.nodeTurn core n = some q → q.d.kind = 3 → q.d.walking = true → q.p.dest q.pi q.d.route = some dest → q.room = true →
      q.d.past = [] → q.streams = true → ∃ t h, exec (.streamToken core n) s = .next t ∧ GroupsSame s t ∧ MemorySame s t ∧
        ((t.core core).placedAt q.pi).node q.ni = q.d.advance ∧ (t.core core).hops = c.hops ++ [(dest, tokenOf h (fun l =>
          if l < q.d.take then BitVec.ofNat 32 (if q.d.space = 0 then s.laneRead q.elements 4 l
            else q.localSeen q.streamRead 4 (q.d.streamAddr l) l) else 0))]) ∧
    (∀ q tok r, s.nodeTurn core n = some q → q.d.kind = 3 → q.d.walking = false → q.d.in0 = tok :: r →
      ∃ t, exec (.streamRound core n) s = .next t ∧ MemorySame s t ∧ GroupsSame s t ∧
        ((t.core core).placedAt q.pi).node q.ni = { q.d.param tok with
          in0 := r
          pos := [0, 0, 0, 0]
          round := q.d.round + 1
          walking := true }) ∧
    (∀ ni d, let p := c.placedAt n
      p.nodes.find? (fun q => q.2.kind == 6) = some (ni, d) → p.region = some .running → p.frozen = false →
      ((d.ended = true ∨ ∃ q r, d.in0 = q :: r ∧ hdrEnd q.hdr 3 = true) → s.accessComing core n (p.wiredTo ni) = false →
        s.unperformedBy core ((p.wiredTo ni).map (nodeSlot n)) d.scope = false → ∃ t, exec (.regionDone core n) s = .next t ∧ MemorySame s t ∧
          ((t.core core).placedAt n).region = some .done ∧
          ∀ i ∈ (c.block p.blk).slots, (c.group i).st = .waiting (.fxwait p.rgn) →
            (t.group core i).st = .running ∧ (t.group core i).fxEnd = some 0) ∧
      (∀ q r, d.ended = false → d.in0 = q :: r → hdrEnd q.hdr 3 = false → ∃ t, exec (.regionDone core n) s = .next t ∧ MemorySame s t ∧
        GroupsSame s t ∧ ((t.core core).placedAt n).region = some .running ∧ (((t.core core).placedAt n).node ni).in0 = r))

/-- Echo probes (R369 to R371): a channel that has been blocked for 4,096 cycles sends one where its region has none; a probe goes along one
wait-for edge, dies where there is none, and one that comes back to its element makes the region FAULTED. It rests on assumption 38. -/
def Obligations.Probes : Prop :=
  ∀ (s : State) (core elem chan : Nat),
    let c := s.core core
    let e := c.elem elem
    let p := c.placedAt (e.owner - 1)
    (e.owner ≠ 0 → chan < 4 → p.region = some .running → p.frozen = false → 4096 ≤ (e.chan chan).timer →
      (∀ q ∈ c.probes, q.placed ≠ e.owner - 1) → ∃ t, exec (.probeSend core elem chan) s = .next t ∧ MemorySame s t ∧ GroupsSame s t ∧
        (((t.core core).elem elem).chan chan).timer = 0 ∧
        (t.core core).probes = c.probes ++ [{ placed := e.owner - 1, elem, chan, place := elem, path := [] }]) ∧
    (∀ q r, c.probes = q :: r →
      let es := s.probeEdges core q
      let edge := es[Config.freeChoice s.tick % es.length]?
      ((edge = none ∨ ∃ k, edge = some (k, none)) → ∃ t, exec (.probeForward core) s = .next t ∧ MemorySame s t ∧ GroupsSame s t ∧
        (t.core core).probes = r) ∧
      (∀ k dest, edge = some (k, some dest) → dest ≠ q.elem → ∃ t, exec (.probeForward core) s = .next t ∧ MemorySame s t ∧ GroupsSame s t ∧
        (t.core core).probes = r ++ [{ q with
          place := dest
          path := q.path ++ [(q.place, if q.path.isEmpty then q.chan else k)] }]) ∧
      (∀ k, edge = some (k, some q.elem) → (c.placedAt q.placed).copy = none → ∃ t, exec (.probeForward core) s = .next t ∧
        (t.core core).probes = r ∧ ((t.core core).placedAt q.placed).region = some .faulted))

/-! ## Captured loops -/

/-- The events of a captured loop (R38 to R46), each of which completes: PLACER_COMPLETE enters a placement or an unplaceable mark for its oldest
request; HAND_OVER gives a candidate group's loop to a copy that streams; ITERATION_ADMIT admits an iteration for a permit; ITERATION_COMMIT
executes the oldest iteration and commits it, or names a damp boundary; LOOP_EXIT and LOOP_DAMP squash what has not committed; LIVEOUT_WRITEBACK
returns the group to the front end. That an iteration is executed whole at its commit, the placer's image (a free value), the lanes with which a
damped group resumes and where the damp record is kept are the model's choices (assumptions 10, 11, 86, 84); that a group may be handed over at any
boundary is read from the spec (assumption 31). It rests on assumptions 25 and 90 too. -/
def Obligations.CapturedLoops : Prop :=
  ∀ (s : State) (core n slot : Nat),
    let c := s.core core
    let g := c.group slot
    let b := c.block g.blk
    let held := fun (t : State) => ((t.core core).placedAt n).copy
    (∀ r rest, c.placerq = r :: rest →
      let b := c.block (c.group r.slot).blk
      let k : PlaceKey := ⟨r.objid, r.headofs, r.layhash, r.k⟩
      let o := (s.part b.part).objects.find? (fun q => q.2.st == 2 && q.2.objid == r.objid)
      (o = none → exec (.placerComplete core) s = .next (s.setCore core { c with placerq := rest })) ∧
      (∀ q, o = some q → s.bodyHeld core b (q.2.base + BitVec.ofNat 64 r.headofs) 96 0 = false →
        let image := s.placerResult core b (q.2.base + BitVec.ofNat 64 r.headofs) k
        ∃ t, exec (.placerComplete core) s = .next t ∧ MemorySame s t ∧ GroupsSame s t ∧ (t.core core).placerq = rest ∧
          (c.cache.any (·.has k) = true ∨ c.cache.length < 32 → ∃ e ∈ (t.core core).cache, e.has k = true ∧ e.image = image) ∧
          (s.eligibleBody core b (q.2.base + BitVec.ofNat 64 r.headofs) = none → image = none) ∧
          ∀ i, image = some i → imKind i = 0 ∧ imKey i = k ∧ imageReject i (min c.budget b.kd.shares) = none)) ∧
    (∀ oi o ws l e i x0 y0,
      let k : PlaceKey := ⟨o.objid, g.loopH.toNat - o.base.toNat, b.kd.layhash, g.kDepth⟩
      g.st = .running → g.candidate = true → g.haltReq = false → b.preempt = none → g.pc = g.loopH → c.copies < 16 → s.devstate ≠ 1 →
      c.carillonHeld = false → 4 ≤ c.limit →
      (s.part b.part).objectAt b.asid g.loopH.toNat = some (oi, o) → s.eligibleBody core b g.loopH = some (ws, l) →
      s.breakIn b.part g.loopH.toNat (g.loopH.toNat + 8 * (ws.length - 1)) = false → c.cache.find? (·.has k) = some e → e.image = some i →
      c.sharesFit b i = true → c.origin i = some (x0, y0) → ∃ t, exec (.handOver core slot) s = .next t ∧ MemorySame s t ∧ GroupsBut s t core slot ∧
        t.group core slot = { g with st := .streaming } ∧ ((t.core core).placedAt c.freePlaced).copy = some
          { slot, head := g.loopH, exitPc := g.loopH + BitVec.ofNat 64 (8 * ws.length), k := g.kDepth, oldest := g.loopCount, inflight := 0
            permits := g.kDepth, entryMask := g.m, cacheKey := (k.objid, k.headofs, k.layhash, k.k), body := ws, outs := liveOuts l
            ins := liveIns l, gidx := c.freeStream, committed := g.regs (liveIns l) }) ∧
    (∀ p q, c.copyAt n = some (p, q) →
      (q.permits ≠ 0 → q.damp = none → q.exitIter = none → (∀ d ∈ p.entries, c.spaceFor d q.octets.length = true) →
        ∃ t, exec (.iterationAdmit core n) s = .next t ∧ MemorySame s t ∧ GroupsSame s t ∧
        held t = some { q with
          permits := q.permits - 1
          inflight := q.inflight + 1
          injected := true }) ∧
      (q.inflight ≠ 0 → q.exitIter = none → (∀ d, q.damp = some d → d.1 ≠ q.oldest) →
        let ran := State.sweep core q.slot p.blk q.head ⟨q.oldest, q.early, q.body.length⟩ q.body 0 0 (s.trial core q) (q.entryMask &&& ~~~q.exited) [] {}
        (∀ s1 exits tr, ran = .done s1 exits tr →
          let last := q.entryMask &&& ~~~(q.exited ||| exits) = 0
          let g1 := s1.group core q.slot
          ∃ t, exec (.iterationCommit core n) s = .next t ∧ MemorySame s1 t ∧
            held t = some { q with
              oldest := q.oldest + 1
              inflight := q.inflight - 1
              permits := q.permits + 1
              committed := g1.regs q.ins
              exited := q.exited ||| exits
              early := q.early.filter (fun w => w.it != q.oldest)
              damp := if last then none else q.damp
              exitIter := if last then some q.oldest else none } ∧
            t.group core q.slot = { (c.group q.slot) with
              y0 := g1.y0
              y1 := g1.y1
              y0v := g1.y0v
              y1v := g1.y1v }) ∧
        (∀ out s1, ran = .damp out s1 → ∃ t, exec (.iterationCommit core n) s = .next t ∧ MemorySame s t ∧ GroupsSame s t ∧
          held t = some (q.dampTo q.oldest (if out then .branchOut q.oldest else .faulted q.oldest)))) ∧
      (q.exitIter.isSome = true → ∃ t, exec (.loopExit core n) s = .next t ∧ MemorySame s t ∧ GroupsSame s t ∧
        held t = some { q with
          inflight := 0
          permits := q.k
          early := []
          leaving := some q.exitPc }) ∧
      (∀ why, q.exitIter = none → q.damp = some (q.oldest, why) → ∃ t, exec (.loopDamp core n why) s = .next t ∧ MemorySame s t ∧
        GroupsBut s t core q.slot ∧ t.group core q.slot = { (c.group q.slot) with dampRec := some (q.head, q.oldest, why) } ∧
        held t = some { q with
          inflight := 0
          permits := q.k
          early := []
          leaving := some q.head })) ∧
    (∀ q pc, (c.placedAt n).frozen = false → (c.placedAt n).copy = some q → q.leaving = some pc →
      let g := c.group q.slot
      let out := q.entryMask &&& q.exited
      (q.damp.isSome = true → out ≠ 0 → g.stack.length < 16) →
      ∃ t, exec (.liveoutWriteback core n) s = .next t ∧ MemorySame s t ∧ GroupsBut s t core q.slot ∧ (t.core core).placedAt n = {} ∧
        let h := t.group core q.slot
        h.st = .running ∧ h.pc = pc ∧ h.loopCount = q.oldest ∧ h.y0v = false ∧ h.y1v = false ∧
        h.armPoint = (if q.damp.isSome then q.oldest else g.armPoint) ∧
        h.m = (if q.damp.isSome then q.entryMask &&& ~~~q.exited else q.entryMask) ∧
        h.stack = (if q.damp.isSome && out != 0 then { rcv := false, pc := q.exitPc, mask := out } :: g.stack else g.stack) ∧
        (∀ r l, l < 32 → r < 0x110 → h.regAt r l = if r ∈ q.outs then SMap.get 0 q.committed (32 * r + l) else g.regAt r l) ∧
        ∀ r l, l < 32 → r < 7 → (SMap.get 0 h.p r).getLsbD l =
          if 0x110 + r ∈ q.outs then (SMap.get 0 q.committed (32 * (0x110 + r) + l)).getLsbD 0 else (SMap.get 0 g.p r).getLsbD l)

/-! ## Memory system -/

/-- Replies, host translations, writes and notices, and the directory's steps (R230, R232, R268, R284, R294 to R298, R302, R339). It rests on
assumptions 44, 67, 97, 98 and 113. -/
def Obligations.RepliesAndDirectory : Prop :=
  ∀ (s : State) (core n kit line slot : Nat),
    let c := s.core core
    let d := s.dirEntry line
    let steps : List (Instr × DirEntry) := [(.coherenceRead kit line, d.read kit), (.coherenceReadForWrite kit line, d.write kit),
      (.coherenceEvict kit line, d.evict kit)]
    (∀ r op sg dst m lanes, c.request n = some r → r.work = .atomic op sg dst m lanes none → s.requestHeld r = false →
      ∃ t, exec (.homeAtomic core n) s = .next t ∧
      GroupsSame s t ∧ MemorySame (s.atomics (atOpOf op) sg (mmBytes m) lanes).1 t ∧
      (t.core core).request n = some { r with
        work := .atomic op sg dst m lanes (some (s.atomics (atOpOf op) sg (mmBytes m) lanes).2) }) ∧
    (∀ r dst m (v : Nat → Nat), c.request n = some r →
      ((∃ lanes, r.work = .load dst m lanes 0 ∧ v = s.laneRead lanes (mmBytes m)) ∨
        (∃ op sg lanes olds, r.work = .atomic op sg dst m lanes (some olds) ∧ v = oldOf olds)) →
      (∀ k, dst ≠ .k k) → (8 ≤ mmBytes m → ∀ k, dst ≠ .p k) → s.replyWaits core r = false → r.gen = c.gen → (c.group r.slot).st = .waiting .reply →
        ∃ t, exec (.loadReturn core n) s = .next t ∧ MemorySame s t ∧ GroupsBut s t core r.slot ∧ (t.core core).request n = none ∧
          let g := { (c.group r.slot) with st := .running }
          GroupRegs g (t.group core r.slot) ∧ WroteLoad g (t.group core r.slot) r.x r.act dst m v) ∧
    (∀ r p, c.request n = some r → s.replyWaits core r = false → r.gen ≠ c.gen → s.partOfDie (dieOf core) = some p →
      ∃ t, exec (.loadReturn core n) s = .next t ∧ MemorySame s t ∧ GroupsSame s t ∧ (t.core core).request n = none ∧
        (t.part p).stalegen = (s.part p).stalegen + 1) ∧
    (∀ lanes, (c.group slot).st = .waiting (.translation lanes) →
      let g := c.group slot
      let fetch := lanes.any (fun l => l.1 == 32)
      (∃ t, exec (.translationResponse core slot true) s = .next t ∧ MemorySame s t ∧ GroupsBut s t core slot ∧
        t.group core slot = { g with
          st := .running
          answer := if fetch then g.answer else some g.refused } ∧ ∀ l ∈ lanes, t.atsHit core (c.block g.blk).asid l.2 = true) ∧
      (fetch = false → ∃ t, exec (.translationResponse core slot false) s = .next t ∧ MemorySame s t ∧ GroupsBut s t core slot ∧
        t.group core slot = { g with
          st := .running
          answer := some (g.refused ++ lanes.map (fun l => l.2 / 65536)) }) ∧
      (fetch = true → ∃ t fid, exec (.translationResponse core slot false) s = .next t ∧ GroupsBut s t core slot ∧
        (t.group core slot).st = .suspended fid ∧ (t.group core slot).pc = (c.group slot).pc ∧
        ∃ su, (t.group core slot).susp = some su ∧ su.cause = 4 ∧ su.sub = 0)) ∧
    ((∀ q ∈ s.notices, q.write ≠ n) → (∀ w ∈ s.writes, w.id = n → w.gen = (s.core w.core).gen) →
      exec (.writePerform n) s = .next { s with writes := s.writes.filter (fun w => w.id != n) }) ∧
    (∀ q, s.notices[n]? = some q → ∃ t, exec (.windowNotice n) s = .next t ∧ MemorySame s t ∧ GroupsSame s t ∧ t.notices = s.notices.eraseIdx n ∧
      ∀ w, (s.core q.core).windows.find? (fun w => w.wid == q.wid) = some w → ∀ o ∈ w.words,
        (s.marksAt q.core w.blk o).hitBy q.line q.words = true → (t.marksAt q.core w.blk o).v = false) ∧
    (∀ q ∈ steps, kit < 64 → s.holds (128 * line) 128 = true → d.eq = [] → s.slices kit ≠ [] → ∃ t, exec q.1 s = .next t ∧ MemorySame s t ∧
      GroupsSame s t ∧ t.dirEntry line = q.2 ∧ (∀ k, k ≠ line → t.dirEntry k = s.dirEntry k) ∧ kit ∉ t.retention) ∧
    (64 ≤ kit → s.holds (128 * line) 128 = true → d.eq = [] → ∃ t, exec (.coherenceEvict kit line) s = .next t ∧ MemorySame s t ∧
      GroupsSame s t ∧ t.dirEntry line = {} ∧ ∀ k, k ≠ line → t.dirEntry k = s.dirEntry k) ∧
    ((if kit < 64 then d.kits.contains kit else s.notices.any (fun q => q.line == line && q.core + 64 == kit)) = true →
      line ∉ linesAt (s.ringKey (s.homeOf line).1) 64 → (∀ q ∈ s.notices, q.write ≠ s.freshWrite) →
      ∃ t, exec (.homeAnswerTimeout line kit) s = .next t ∧ GroupsSame s t ∧ (∀ i, i < 32 → 128 * line + 4 * i ∈ t.poisoned) ∧
        (kit < 64 → t.dirEntry line = d.evict kit) ∧ (64 ≤ kit → ∀ q ∈ t.notices, ¬(q.line = line ∧ q.core + 64 = kit))) ∧
    (kit < 64 → s.retention.contains kit = false → (∀ i, i < 16 → (s.core (16 * kit + i)).blocks = []) →
      exec (.kitEntersRetention kit) s = .next { s with retention := s.retention ++ [kit] })

/-- Soft errors, walks and accesses from outside (R211, R219, R247, R303, R304): a clean error changes nothing and a corrected one is counted, a TLB
entry in error is dropped, a word or a dirty line that cannot be corrected is poisoned, an error of a block's own state kills it, and the host's
accesses change the bytes that they name and no others. It rests on assumptions 13, 39 and 113. -/
def Obligations.ErrorsAndOutsideAccesses : Prop :=
  ∀ (s : State) (core blk addr : Nat) (va w v : Dword) (l : List Byte),
    let own : List EccSite := [.register core blk, .matrix core blk, .element core blk]
    let eight : List (OutsideAccess × (Nat → Nat)) := [(.atomicAdd addr w, fun old => (old + w.toNat) % 2 ^ 64),
      (.atomicSwap addr w, fun _ => w.toNat), (.atomicCas addr v w, fun old => if old = v.toNat then w.toNat else old)]
    exec (.patrolScrub addr) s = .next s ∧
    exec (.eccError (.cleanLine addr)) s = .next s ∧ exec (.eccError .correctable) s = .next { s with corrected := s.corrected + 1 } ∧
    exec (.eccError (.tlbEntry addr)) s = .next { s with tlb := s.tlb.eraseIdx addr } ∧
    (∀ e ∈ own, (s.core core).hasBlock blk = true → ((s.core core).block blk).gangLaunch = false → ∃ t, exec (.eccError e) s = .next t ∧
      (t.core core).hasBlock blk = false ∧ ∀ i ∈ ((s.core core).block blk).slots, (t.group core i).st = .free) ∧
    (s.poisonAt addr 4 = true → (s.core core).hasBlock blk = true → ((s.core core).block blk).gangLaunch = false →
      ∃ t, exec (.eccError (.consumed core blk addr)) s = .next t ∧ (t.core core).hasBlock blk = false) ∧
    (s.holds addr 1 = true → (∃ t, exec (.eccError (.hbmWord addr)) s = .next t ∧ MemorySame s t ∧ t.cores = s.cores ∧
        addr / 8 * 8 ∈ t.poisoned ∧ addr / 8 * 8 + 4 ∈ t.poisoned) ∧
      ∃ t, exec (.eccError (.l1Word addr)) s = .next t ∧ MemorySame s t ∧ t.cores = s.cores ∧ addr / 4 * 4 ∈ t.poisoned) ∧
    (s.holds addr 1 = true → ∃ t, exec (.eccError (.dirtyLine addr)) s = .next t ∧ MemorySame s t ∧ t.cores = s.cores ∧
      ∀ i, i < 32 → 128 * (addr / 128) + 4 * i ∈ t.poisoned) ∧
    (addr < Config.localArrayBytes → ∃ t, exec (.eccError (.scratchWord core addr)) s = .next t ∧ MemorySame s t ∧ t.cores = s.cores ∧
      spKey core (addr / 4 * 4) ∈ t.poisoned) ∧
    (addr < 65536 → ∃ t, exec (.eccError (.laneWord core addr)) s = .next t ∧ MemorySame s t ∧ t.cores = s.cores ∧
      laneWordKey core (addr / 4 * 4) ∈ t.poisoned) ∧
    (∃ t, exec (.eccError (.directory addr)) s = .next t ∧ GroupsSame s t) ∧
    (∀ p asid, s.partOfDie (dieOf core) = some p → va.toNat < 2 ^ 56 → (SMap.get [] s.walks (dieOf core)).length ≤ 256 →
      (s.walkFor p core asid va.toNat).cached = true → ∃ t, exec (.walkComplete core asid va) s = .next t ∧
        MemorySame s t ∧ t.cores = s.cores ∧ (t.tlbHit core asid va.toNat).isSome = true) ∧
    exec (.peerOrHostAccess (.read addr l.length)) s = .next s ∧
    (s.holds addr l.length = true → s.claimed addr l.length = false → ∃ t, exec (.peerOrHostAccess (.write addr l)) s = .next t ∧ GroupsSame s t ∧
      ∀ a, SMap.get 0 t.mem a = if addr ≤ a ∧ a < addr + l.length then l.getD (a - addr) 0 else SMap.get 0 s.mem a) ∧
    (∀ q ∈ eight, addr % 8 = 0 → s.holds addr 8 = true → s.claimed addr 8 = false → ∃ t, exec (.peerOrHostAccess q.1) s = .next t ∧ GroupsSame s t ∧
      t.rd addr 8 = q.2 (s.rd addr 8) ∧ ∀ a, (a < addr ∨ addr + 8 ≤ a) → SMap.get 0 t.mem a = SMap.get 0 s.mem a)

/-! ## Commands -/

/-- COMMAND_FETCH (R327, R328, R332, R333, R335): the record of the chosen queue is copied and RIDX advances; an accepted record becomes a command,
a refused one leaves only a journal record; a record that cannot be read puts its queue in ERROR. It rests on assumptions 56 and 99. -/
def Obligations.CommandFetch : Prop :=
  ∀ (s : State) (q : Nat) (x : Queue),
    let va := x.base.toNat + 64 * (x.ridx.toNat % 2 ^ x.logsize)
    let mirror := if x.rmirror = 0 then Reach.ok [] else s.hubReach x.part x.asid .write x.rmirror.toNat 8
    (s.devstate = 1 ∨ s.devstate = 2) → s.commands.length < 16384 → s.fetchQueue = some (q, x) → s.queue q = x →
      (∀ l w, s.hubReach x.part x.asid .read va 64 = .ok l → mirror = .ok w →
        let raw := s.hubBytes l
        let ver := recField raw 0 1
        let typ := recField raw 1 1
        let l2 := if ver = 1 then layout2Of x.asid raw else raw
        let fits := (ver = 1 ∧ typ ≤ 5 ∧ (typ = 0 ∨ layout1Reserved raw = false)) ∨ ver = 2
        (∀ k, fits → (ver = 1 → layout1Limits raw = true) → (s.advance q w).checkRecord x.part l2 = .accept k →
          ∃ t, exec .commandFetch s = .next t ∧ GroupsSame s t ∧
          (t.queue q).ridx = x.ridx + 1 ∧ s.jhead < t.jhead ∧ t.nextCmd = s.nextCmd + 1 ∧
          let c := t.command s.nextCmd
          t.hasCommand s.nextCmd = true ∧ c.q = q ∧ c.part = x.part ∧ c.typ = typ ∧ c.ridx = x.ridx ∧ c.raw = l2 ∧ c.kd = k ∧ c.st = .accepted ∧
            c.acceptSeq = t.jhead) ∧
        ((¬fits ∨ (∃ r d, (s.advance q w).checkRecord x.part l2 = .refuse r d) ∨
          (ver = 1 ∧ layout1Limits raw = false ∧ ∃ k, (s.advance q w).checkRecord x.part l2 = .accept k)) →
            ∃ t, exec .commandFetch s = .next t ∧ GroupsSame s t ∧
          (t.queue q).ridx = x.ridx + 1 ∧ s.jhead < t.jhead ∧ t.nextCmd = s.nextCmd ∧ ∀ i, t.hasCommand i = s.hasCommand i)) ∧
      (∀ a, (s.hubReach x.part x.asid .read va 64 = .bad a ∨ ((∃ l, s.hubReach x.part x.asid .read va 64 = .ok l) ∧ mirror = .bad a)) →
        ∃ t, exec .commandFetch s = .next t ∧ GroupsSame s t ∧ (t.queue q).st = .error ∧ (t.queue q).ridx = x.ridx ∧ s.jhead < t.jhead)

/-- SIGNAL, WAIT, BARRIER_AND, JOURNAL_MARK and QUEUE_DESTROY (R330, R334, R494). That SIGNAL ADD needs R and W is an inference (assumption 61). -/
def Obligations.OrderingCommands : Prop :=
  ∀ (s : State) (id : Nat),
    let c := s.command id
    let a := c.field 8 8
    let v := c.field 0x10 8
    let q := c.field 4 2 % 4096
    let signals : List (Instr × Bool × Need × (Nat → Nat)) := [(.signalSet id, false, .write, fun _ => v),
      (.signalAdd id, true, .atomic, fun x => (x + v) % 2 ^ 64)]
    let waits : List (Instr × Nat) := [(.wait id, 4), (.barrierAnd id, 5), (.waitReread id, 4), (.waitReread id, 5)]
    let destroys : List (Instr × Bool) := [(.queueDestroy id, false), (.queueDestroyForce id, true)]
    let at_ := fun (k : Nat × Nat × Bool) => s.counterAt c.part c.asid k.1
    (∀ i ∈ signals, s.isCommand id 3 = true → (c.field 4 1 % 2 == 1) = i.2.1 → s.oldest id = true →
      (∀ l, s.hubReach c.part c.asid i.2.2.1 a 8 = .ok l → ∃ t, exec i.1 s = .next t ∧ Finished s t id ∧
        t = (s.hubPut l (bytesOf 8 (i.2.2.2 (natOf (s.hubBytes l))))).cmdRetire id) ∧
      (∀ x, s.hubReach c.part c.asid i.2.2.1 a 8 = .bad x → ∃ t, exec i.1 s = .next t ∧ Finished s t id ∧ Erred s t c.q)) ∧
    (∀ i ∈ waits, s.isCommand id i.2 = true → (i.2 = 5 → s.oldest id = true) →
      ((∀ k ∈ c.conds, ∃ x, at_ k = some x ∧ condHolds k x = true) → ∃ t, exec i.1 s = .next t ∧ Finished s t id) ∧
      ((∀ k ∈ c.conds, (at_ k).isSome = true) → (∃ k ∈ c.conds, ∃ x, at_ k = some x ∧ condHolds k x = false) → exec i.1 s = .next s) ∧
      (∀ x, s.readConds c.part c.asid c.conds = .bad x → ∃ t, exec i.1 s = .next t ∧ Finished s t id ∧ Erred s t c.q)) ∧
    (s.isCommand id 4 = true → c.field 0x18 4 ≠ 0 → ∃ t, exec (.waitTimeout id) s = .next t ∧ Finished s t id ∧ Erred s t c.q) ∧
    (s.isCommand id 8 = true → ∃ t, exec (.journalMark id) s = .next t ∧ Finished s t id) ∧
    (∀ i ∈ destroys, s.isCommand id 7 = true → (c.field 2 1 % 2 == 1) = i.2 →
      ((s.queue q).st = .free → ∃ t, exec i.1 s = .next t ∧ Finished s t id ∧ t.queues = s.queues) ∧
      ((s.queue q).st ≠ .free → s.othersOf q id = [] → ∃ t, exec i.1 s = .next t ∧ Finished s t id ∧ t.queue q = {}) ∧
      ((s.queue q).st ≠ .free → s.othersOf q id ≠ [] → i.2 = false → ∃ t, exec i.1 s = .next t ∧ Finished s t id ∧ t.queues = s.queues) ∧
      ((s.queue q).st ≠ .free → i.2 = true → ∃ t, exec i.1 s = .next t ∧ t.hasCommand id = false ∧ t.queue q = {} ∧
        ∀ j ∈ s.othersOf q id, t.hasCommand j = false))

/-- LAUNCH, GRID_RETIRE, COPY and PLACE_PRELOAD (R19 to R21, R26, R331, R409). It rests on assumptions 48 and 59. -/
def Obligations.WorkCommands : Prop :=
  ∀ (s : State) (id : Nat),
    let c := s.command id
    let left := c.field 0x18 8 - c.copied
    let n := min 256 left
    let src := s.hubReach c.part c.asid .read (c.field 8 8 + c.copied) n
    let dst := s.hubReach c.part c.asid .write (c.field 0x10 8 + c.copied) n
    let signalled := fun (u : State) => c.sig.1 = 0 ∨ ∃ l, u.hubReach c.part c.asid .atomic c.sig.1 8 = .ok l
    (s.isCommand id 1 = true → c.st = .accepted → s.launchHeld id = false → ∃ t, exec (.launch id) s = .next t ∧ GroupsSame s t ∧
      (t.command id).st = .dispatched ∧ s.jhead < t.jhead ∧ t.units = dealUnits (s.partDies c.part) (c.unitsOf id) s.units) ∧
    (s.isCommand id 1 = true → c.st = .accepted → s.launchHeld id = true → exec (.launch id) s = .next s) ∧
    (s.isCommand id 1 = true → c.st = .dispatched → c.total ≤ c.finished → (c.failed.isSome = true ∨ signalled s) →
      ∃ t, exec (.gridRetire id) s = .next t ∧ Finished s t id) ∧
    (s.isCommand id 1 = true → c.st = .dispatched → c.finished < c.total → exec (.gridRetire id) s = .next s) ∧
    (s.isCommand id 2 = true → c.st = .accepted → ∃ t, exec (.copy id) s = .next t ∧ GroupsSame s t ∧ (t.command id).st = .dispatched ∧
      s.jhead < t.jhead) ∧
    (∀ l w, s.isCommand id 2 = true → c.st = .dispatched → src = .ok l → dst = .ok w →
      (256 < left → ∃ t, exec (.copyRetire id) s = .next t ∧ GroupsSame s t ∧ MemorySame (s.hubMove l w) t ∧
        t.command id = { c with copied := c.copied + 256 }) ∧
      (0 < left → left ≤ 256 → signalled ((s.hubMove l w).setCommand id { c with copied := c.copied + n }) →
        ∃ t, exec (.copyRetire id) s = .next t ∧ t.hasCommand id = false ∧ s.jhead < t.jhead)) ∧
    (∀ a, s.isCommand id 2 = true → c.st = .dispatched → 0 < left → (src = .bad a ∨ ((∃ l, src = .ok l) ∧ dst = .bad a)) →
      ∃ t, exec (.copyRetire id) s = .next t ∧ Finished s t id) ∧
    (s.isCommand id 6 = true → c.st = .accepted → ∃ t, exec (.placePreload id) s = .next t ∧ GroupsSame s t ∧ MemorySame s t ∧
      t.command id = { c with
        st := .dispatched
        cores := ((s.partDies c.part).filter (fun d => (c.field 4 1).testBit d)).flatMap s.dieCores }) ∧
    (s.isCommand id 6 = true → c.st = .dispatched → c.cores = [] → ∃ t, exec (.preloadRetire id) s = .next t ∧ Finished s t id) ∧
    (∀ k r x, s.isCommand id 6 = true → c.st = .dispatched → c.cores = k :: r →
      s.preloadCore c k (c.field 0x10 4) 0 (s.core k) = (.miss, x) → ∃ t, exec (.preloadRetire id) s = .next t ∧ (t.core k).cache = x.cache ∧
        (r ≠ [] → t.core k = x ∧ t.command id = { c with cores := r }) ∧ (r = [] → t.hasCommand id = false ∧ s.jhead < t.jhead))

/-! ## The register page -/

/-- Doorbells, queue control, address spaces, the commit pool and TLB invalidation (R221, R222, R325, R326, R334, R450, R496): each leaves its
status where software reads it, and no group changes but where DESTROY with FORCE kills. `p` is the physical function of a partition; `f` a virtual
function, which reaches only its own queues and address spaces (R447) and whose PF registers read zero and ignore writes (R449). Which functions
reach what, and the status of a space that is not reached, are the MODEL'S CHOICE (assumption 55); the pool's ring in device memory is assumption
46, the order of the statuses 57, the refusal of a pool frame that is misaligned or beyond device memory 58. It rests on assumptions 112, 113 and
121 too. -/
def Obligations.QueueAndSpaceControl : Prop :=
  ∀ (s : State) (p f q asid : Nat) (w : Dword), p < 4 → 4 ≤ f →
    let x := s.part p
    let y := s.queue q
    let sp := SMap.get {} x.aspaces asid
    let a := x.qtbase + 32 * (q - x.qfirst)
    let bell := Instr.doorbell (4096 * p + q) w
    let quiet := fun (t : State) => MemorySame s t ∧ t.cores = s.cores
    let qctl := fun (t : State) (op status result : Nat) =>
      (t.part p).qctl = BitVec.ofNat 64 (q % 4096 + op * 2 ^ 12 + status * 2 ^ 16 + result % 2 ^ 44 * 2 ^ 20)
    let asctl := fun (t : State) (op status : Nat) => (t.part p).asctl = BitVec.ofNat 64 (asid % 65536 + op * 2 ^ 16 + status * 2 ^ 20)
    let space := fun (t : State) => SMap.get {} (t.part p).aspaces asid
    let ops : List (Instr × Nat) := [(.qctlCreate p q, 1), (.qctlReadRidx p q, 2), (.qctlDestroy p q, 3), (.qctlDestroyForce p q, 4)]
    (q < 4096 → s.devstate ≠ 0 → x.hasQueue q = true → y.st ≠ .free → y.widx.toNat ≤ w.toNat → (y.st = .active →
      w.toNat - y.ridx.toNat ≤ 2 ^ y.logsize) →
      exec bell s = .next (s.setQueue q { y with widx := w })) ∧
    (q < 4096 → s.devstate ≠ 0 → x.hasQueue q = true → y.st = .active → y.widx.toNat ≤ w.toNat → 2 ^ y.logsize < w.toNat - y.ridx.toNat →
      ∃ t, exec bell s = .next t ∧ GroupsSame s t ∧ t.queue q = { y with
        widx := w
        st := .error }) ∧
    (q < 4096 → (s.devstate = 0 ∨ x.hasQueue q = false ∨ y.st = .free ∨ w.toNat < y.widx.toNat) →
      exec bell s = .next (if s.parts.any (fun k => k.1 == p) then s.setPart p { x with doorbellign := x.doorbellign + 1 }
        else { s with strayBells := SMap.set 0 s.strayBells p (SMap.get 0 s.strayBells p + 1) })) ∧
    (q < 4096 → (∀ k, s.functionPart f = some k → (s.part k).hasQueue q = true → Config.vfQueue (f - 4) q = false) →
      ∃ t, exec (.doorbell (4096 * f + q) w) s = .next t ∧ quiet t ∧ t.queues = s.queues ∧ t.readPage f 0x110 = 0) ∧
    (∀ k, s.functionPart f = some k → (Config.vfQueue (f - 4) q = false → ∀ o ∈ ([(.qctlCreate f q, 1), (.qctlReadRidx f q, 2),
        (.qctlDestroy f q, 3), (.qctlDestroyForce f q, 4)] : List (Instr × Nat)), ∃ t, exec o.1 s = .next t ∧ quiet t ∧ t.queues = s.queues ∧
        (t.part k).qctl = (s.part k).qctl ∧ (SMap.get {} t.vfs (f - 4)).qctl = BitVec.ofNat 64 (q % 4096 + o.2 * 2 ^ 12 + 2 ^ 16)) ∧
      (Config.vfSpace (f - 4) asid = false → ∀ o ∈ ([(.asctlCreate f asid, 1), (.asctlUpdate f asid, 2), (.asctlDestroy f asid, 3)] :
        List (Instr × Nat)), ∃ t, exec o.1 s = .next t ∧ quiet t ∧ (t.part k).aspaces = (s.part k).aspaces ∧
        (SMap.get {} t.vfs (f - 4)).asctl = BitVec.ofNat 64 (asid % 65536 + o.2 * 2 ^ 16 + 2 ^ 20))) ∧
    (∀ off, pfOnly off = true → s.readPage f off = 0 ∧ exec (.registerWrite f off w) s = .next s) ∧
    (∀ o ∈ ops, x.hasQueue q = false → ∃ t, exec o.1 s = .next t ∧ quiet t ∧ t.queues = s.queues ∧ qctl t o.2 1 0) ∧
    (x.hasQueue q = true → y.st ≠ .free → ∃ t, exec (.qctlCreate p q) s = .next t ∧ quiet t ∧ t.queues = s.queues ∧ qctl t 1 2 0) ∧
    (x.hasQueue q = true → y.st = .free → a + 32 ≤ s.partBytes p → ∃ t, exec (.qctlCreate p q) s = .next t ∧ quiet t ∧
      (∀ c, s.queueOf p (readList s.mem (partKey p a) 32) = some c → t.queue q = c ∧ qctl t 1 0 0) ∧
      (s.queueOf p (readList s.mem (partKey p a) 32) = none → t.queues = s.queues ∧ qctl t 1 3 0)) ∧
    (x.hasQueue q = true → ∃ t, exec (.qctlReadRidx p q) s = .next t ∧ quiet t ∧ t.queues = s.queues ∧
      (if y.st = .free then qctl t 2 2 0 else qctl t 2 0 y.ridx.toNat)) ∧
    (∀ o ∈ [(Instr.qctlDestroy p q, 3), (.qctlDestroyForce p q, 4)], x.hasQueue q = true → ∃ t, exec o.1 s = .next t ∧
      (y.st = .free → quiet t ∧ t.queues = s.queues ∧ qctl t o.2 2 0) ∧
      (y.st ≠ .free → s.othersOf q 0 = [] → quiet t ∧ t.queue q = {} ∧ qctl t o.2 0 0) ∧
      (y.st ≠ .free → s.othersOf q 0 ≠ [] → o.2 = 3 → quiet t ∧ t.queues = s.queues ∧ qctl t 3 4 0) ∧
      (y.st ≠ .free → o.2 = 4 → t.queue q = {} ∧ qctl t 4 0 0)) ∧
    (∃ t, exec (.asctlCreate p asid) s = .next t ∧ quiet t ∧ (sp.used = true → space t = sp ∧ asctl t 1 1) ∧
      (sp.used = false → ∀ d, asid ≠ 0 → asid < 65536 → s.descriptor p = some d → space t = d ∧ asctl t 1 0) ∧
      (sp.used = false → (asid = 0 ∨ 65536 ≤ asid ∨ s.descriptor p = none) → space t = sp ∧ asctl t 1 2)) ∧
    (∃ t, exec (.asctlUpdate p asid) s = .next t ∧ quiet t ∧ (sp.used = false → space t = sp ∧ asctl t 2 1) ∧
      (sp.used = true → s.descriptor p = none → space t = sp ∧ asctl t 2 2) ∧
      (∀ d, sp.used = true → s.descriptor p = some d → asctl t 2 0 ∧ space t = { sp with
        pgen := d.pgen
        heapen := d.heapen
        flten := d.flten
        nextRoot := some (d.ptroot, d.pasid)
        oldDrains := (s.drains.filter (fun k => k.1 == p && k.2.1 == asid)).length })) ∧
    (∃ t, exec (.asctlDestroy p asid) s = .next t ∧ quiet t ∧ (sp.used = false → space t = sp ∧ asctl t 3 1) ∧
      (sp.used = true → s.spaceNamed p asid = true → space t = sp ∧ asctl t 3 3) ∧
      (sp.used = true → s.spaceNamed p asid = false → space t = {} ∧ asctl t 3 0)) ∧
    (∃ t, exec (.pooladd p w) s = .next t ∧ GroupsSame s t ∧
      (if x.poolFree < x.poolCap ∧ w.toNat % 65536 = 0 ∧ w.toNat + 65536 ≤ s.partBytes p
        then (t.part p).poolW = x.poolW + 1 ∧ (t.part p).poolRefuse = x.poolRefuse ∧
          (let k := s.poolKey p x.poolW
           s.hubQuiet k 8 → t.cores = s.cores ∧ t.rd k 8 = w.toNat ∧ MemoryBut s t k 8)
        else quiet t ∧ (t.part p).poolW = x.poolW ∧ (t.part p).poolRefuse = x.poolRefuse + 1)) ∧
    (∃ t, exec (.tlbinv p w) s = .next t ∧ quiet t ∧ t.tlb = s.tlb ∧ (t.readRegister p 0x20).getLsbD 63 = true ∧
      t.drains = s.drains ++ [(p, w.toNat / 2 ^ 32 % 65536, x.tlbinvVa.toNat / 65536 * 65536, 65536 * (w.toNat % 2 ^ 32))]) ∧
    (∀ i va n, s.drains.find? (fun d => d.1 == p) = some (p, i, va, n) → (∀ c ∈ s.cores, x.dies.contains (dieOf c.1) = true →
        ∀ b ∈ c.2.blocks, b.2.asid = i → s.translatedAhead c.1 b.1 = false) → ∃ t, exec (.tlbinvComplete p) s = .next t ∧ quiet t ∧
      t.drains = s.drains.erase (p, i, va, n) ∧ SMap.get {} (t.part p).aspaces i = (SMap.get {} x.aspaces i).rooted va n ∧
      ∀ e ∈ t.tlb, e ∈ s.tlb ∧ ¬(e.asid = i ∧ e.va < va + n ∧ va < e.va + e.bytes ∧ e.level = 0 ∧ x.dies.contains (dieOf e.owner) = true))

/-- Host resumption, pre-emption requests, power, save areas, rings, and the registers that software writes and reads back (R338, R434, R439, R448,
R449, R457, R495), through the page of a partition's physical function. A SKIP whose faulted word an engine claims waits (R299). The order of
PREEMPT's statuses is read from the spec (assumption 57), an ignored base beyond device memory is the MODEL'S CHOICE (assumption 58); so are the
core's limit (47) and the pages (55). It rests on assumption 121 too. -/
def Obligations.FunctionRegisters : Prop :=
  ∀ (s : State) (p : Nat) (fid : Word) (w : Dword), p < 4 →
    let x := s.part p
    let v := w.toNat
    let free := !s.anyActive p
    let pa := fun (n : Nat) => v % n == 0 && decide (v < s.partBytes p)
    let resumes : List (Instr × Nat × Dword) := [(.fresumeReplay p fid, 0, x.fresumeSkip), (.fresumeSkip p fid w, 1, w),
      (.fresumeKill p fid, 2, x.fresumeSkip)]
    let deadline := v % 2 ^ 25
    let one := w.getLsbD 32
    let fits := 1024 ≤ deadline ∧ deadline ≤ 2 ^ 24
    let asked := fun (t : State) (status : Nat) => MemorySame s t ∧ t.cores = s.cores ∧
      (t.part p).preemptCtl = BitVec.ofNat 64 (deadline + (if one then 2 ^ 32 else 0) + status * 2 ^ 60)
    let waits := fun (t : State) (l : List (Nat × Nat)) => ∀ b ∈ l, ∃ r ∈ (t.part p).preemptWait, r.1 = b.1 ∧ r.2.1 = b.2
    let grid := s.gridOf p x.preemptGrid.toNat
    let core := 256 * (v % 2 ^ 24 / 256 % 256) + v % 2 ^ 24 % 256
    let budget := v % 2 ^ 24 / 65536
    let regs : List (Nat × Bool × Nat) := [(0x110, v % 4096 == 0, v), (0x140, free && pa 64, v), (0x148, free && 6 ≤ v % 32 && v % 32 ≤ 16, v % 32),
      (0x158, x.chmr.toNat ≤ v && v ≤ x.chmw.toNat, v), (0x160, free && pa 4096, v), (0x168, free, v % 4096 + v / 65536 % 4096 * 65536),
      (0x170, free && pa 1, v), (0x178, free && 8 ≤ v % 32 && v % 32 ≤ 24, v % 32 + v / 2 ^ 32 * 2 ^ 32), (0x180, free && v % 2 ^ 21 == 0, v),
      (0x188, free && v % 2 ^ 21 == 0, v), (0x190, free && pa 1, v), (0x200, true, v % 1024)]
    (∀ r ∈ resumes, s.resumeHeld fid r.2.1 = true → exec r.1 s = .next s) ∧
    (∀ r ∈ resumes, s.resumeHeld fid r.2.1 = false → ∀ status u, s.resume p fid r.2.1 r.2.2 = some (status, u) →
      ∃ t, exec r.1 s = .next t ∧ t.cores = u.cores ∧ MemorySame u t ∧
      (t.part p).fresumeStatus = status ∧ (t.part p).fresumeId = fid ∧ (t.part p).fresumeAct = BitVec.ofNat 64 r.2.1) ∧
    (∀ r ∈ resumes, s.resumeHeld fid r.2.1 = false → (x.dies.contains (dieOf (faultCore fid)) = false ∨
      fid.toNat / 256 % 256 ≠ (s.core (faultCore fid)).gen.toNat) →
      ∃ t, exec r.1 s = .next t ∧ t.cores = s.cores ∧ MemorySame s t ∧ (t.part p).fresumeStatus = 1) ∧
    (one = false → ∃ t, exec (.preemptGrid p w) s = .next t ∧ (grid = none → asked t 1) ∧
      (∀ id, grid = some id → if fits then asked t 0 ∧ waits t (s.blocksOf id) else asked t 2)) ∧
    (one = true → ∃ t, exec (.preemptBlock p w) s = .next t ∧ (grid = none → asked t 1) ∧ (∀ id, grid = some id →
      let hit := (s.blocksOf id).find? (fun q => ((s.core q.1).block q.2).b == x.preemptBlock.toNat)
      (¬fits → asked t 2) ∧ (fits → hit = none → asked t (if s.savedOf p id x.preemptBlock.toNat then 0 else 3)) ∧ (∀ q, fits →
        hit = some q → asked t 0 ∧ waits t (s.gangBlocks q.1 q.2)))) ∧
    (∃ t, exec (.pwrbudget p w) s = .next t ∧ GroupsSame s t ∧ MemorySame s t ∧
      (if 8 ≤ budget ∧ budget ≤ 16 ∧ x.dies.contains (dieOf core) = true then (t.core core).budget = budget else t = s)) ∧
    (∃ t, exec (.csaadd p w) s = .next t ∧ GroupsSame s t ∧ MemorySame s t ∧
      (if x.csa.length < 4096 ∧ x.csaAddr.toNat + v ≤ s.partBytes p then (t.part p).csa = x.csa ++ [(x.csaAddr.toNat, v)] else t = s)) ∧
    (∃ t, exec (.fqrWrite p w) s = .next t ∧ GroupsSame s t ∧
      (if x.fqr.toNat ≤ v ∧ v ≤ x.fqw.toNat then (t.part p).fqr = w else t = s)) ∧
    (∃ t, exec (.fqbaseWrite p w) s = .next t ∧ GroupsSame s t ∧ (if (free && pa 64) = true then (t.part p).fqbase = v else t = s)) ∧
    (∀ r ∈ regs, ∃ t, exec (.registerWrite p r.1 w) s = .next t ∧ GroupsSame s t ∧ MemorySame s t ∧
      if r.2.1 then t.readRegister p r.1 = BitVec.ofNat 64 r.2.2 else t = s)

/-! ## Blocks: distribution, pre-emption -/

/-- The distributors (R16, R18, R19, R21 to R26): a die without work takes the highest unstarted unit of the distributor that holds most; a block
starts with its home groups RUNNING at the kernel's entry; a block that has finished leaves its core. The lowest free block table entry, the site as
an operand, a steal as two events and the look at the barrier records are the MODEL'S CHOICES (assumptions 85, 12, 60, 123). It rests on assumption
40 too. -/
def Obligations.Distribution : Prop :=
  ∀ (s : State) (id die thief victim core blk : Nat) (sites : List Site) (x : Site),
    let c := s.command id
    let names := s.nameable c.part thief
    let dies := s.partDies c.part
    let n := groupsOf c.threads
    let unit := lowestUnit ((s.unitsAt die).filter (fun u => u.cmd == id))
    (∀ u, id ∈ names → thief ∈ dies → victim ∈ dies → victim ≠ thief → s.idleDie thief = true →
      (∀ d ∈ dies, d ≠ thief → (s.freshUnits d names).length ≤ (s.freshUnits victim names).length) →
      highestUnit (s.freshUnits victim [id]) = some u → ∃ t, exec (.stealMessage id thief victim) s = .next t ∧ MemorySame s t ∧
        t.cores = s.cores ∧ t.unitsAt victim = (s.unitsAt victim).erase u ∧ SMap.get [] t.steals thief = [u]) ∧
    (∃ t, exec (.stealReply thief) s = .next t ∧ MemorySame s t ∧ t.cores = s.cores ∧ SMap.get [] t.steals thief = [] ∧
      t.unitsAt thief = s.unitsAt thief ++ SMap.get [] s.steals thief) ∧
    (∀ u, s.isCommand id 1 = true → c.kd.gang = 0 → s.siteOk die c.kd n id x = true → unit = some u → ∃ t, exec (.blockPlace id die [x]) s = .next t ∧
      MemorySame s t ∧ (t.command id).started = c.started + 1 ∧
      let k := s.core x.core
      let homes := (k.freeSlots.take (n + c.kd.headroom)).take n
      let b := (t.core x.core).block k.freeBlockId
      b.b = u.next ∧ b.cmd = id ∧ b.part = c.part ∧ b.asid = c.asid ∧ b.sbase = x.sbase ∧ b.lbase = x.lbase ∧ b.ngrp = n ∧ b.hslot = homes ∧
      (t.core x.core).l1kib = (if k.blocks.isEmpty then c.kd.l1slice else k.l1kib) ∧
      (t.core x.core).gen = (if k.newGen id then k.gen + 1 else k.gen) ∧
      (∀ i, i < homes.length → let g := t.group x.core (homes.getD i 0)
        let th := homeThreads c.threads i
        g.st = .running ∧ g.home = some i ∧ g.pc = c.kd.entry ∧ g.m = maskOf (th.map (·.1)) ∧ g.exitm = ~~~(maskOf (th.map (·.1))) ∧
        g.stack = [] ∧ g.tids = th ∧ g.y0v = false ∧ g.y1v = false ∧ g.kreg 0 = (BitVec.ofNat 64 (c.field 0x10 8)).setWidth 32 ∧
        g.kreg 1 = (BitVec.ofNat 64 (c.field 0x10 8)).extractLsb' 32 32) ∧
      (∀ k i, (k ≠ x.core ∨ i ∉ (s.core x.core).freeSlots) → t.group k i = s.group k i)) ∧
    (∀ u, s.isCommand id 1 = true → c.kd.gang ≠ 0 → sites.all (s.siteOk die c.kd n id) = true → (sites.map (·.core)).Nodup → unit = some u →
      sites.length = u.count → s.gangsOn die < 16 → ∃ t, exec (.blockPlace id die sites) s = .next t ∧ MemorySame s t ∧
        (t.command id).started = c.started + u.count ∧ t.unitsAt die = (s.unitsAt die).erase u) ∧
    (∀ s1, let b := (s.core core).block blk
      (s.core core).hasBlock blk = true → b.flushHold = none → s.finished core blk = true → s.flushBlock core blk = .done s1 →
      ∃ t u, exec (.blockRetire core blk) s = .next t ∧ u = s1.leave core blk false ∧ t = u.gangSettle (dieOf core) 64 ∧
        (u.core core).hasBlock blk = false ∧ (∀ i ∈ ((s1.core core).block blk).slots, (u.group core i).st = .free) ∧
        (s1.hasCommand ((s1.core core).block blk).cmd = true →
          (u.command ((s1.core core).block blk).cmd).finished = (s1.command ((s1.core core).block blk).cmd).finished + 1))

/-- Pre-emption (R439 to R442, R47): a request that finds a save area stops the block and damps its copies; at the deadline its placed images
freeze; a block at rest is saved and leaves; a saved block goes on where it fits, loaded from its area's bytes, and an area that fails its CRC or
holds poison kills it (R304). What of a saved block the area's bytes give is the MODEL'S CHOICE (assumption 16), and so are the size of an area and
what else of a save and a restore assumptions 17 to 22 and 119 name. It rests on assumptions 12, 40 and 77 too. -/
def Obligations.Preemption : Prop :=
  ∀ (s : State) (core blk p n : Nat) (sites : List Site),
    let c := s.core core
    let b := c.block blk
    (∀ deadline a, c.hasBlock blk = true → b.preempt = none → b.gangLaunch = false → (s.part b.part).awaits core blk = some deadline →
      let own := pad256 (s.areaNeed core blk)
      (s.part b.part).csa.find? (fun a => decide (own * b.gangSize ≤ a.2)) = some a → ∃ t, exec (.preemptArrive core blk) s = .next t ∧
        MemorySame s t ∧ (t.part b.part).csa = (s.part b.part).csa.erase a ∧
        ((t.core core).block blk).preempt = some { deadline, area := a.1, size := a.2, ofs := own * b.rank, own, expired := false } ∧
        (∀ i, (t.core core).eligible i = true → (t.group core i).blk ≠ blk) ∧
        ((∀ k ∈ c.streaming blk, ∀ q, (c.placedAt k.1).copy = some q → q.injected = true) → GroupsSame s t) ∧
        ∀ pi q, (pi, q) ∈ c.streaming blk → (c.placedAt pi).copy = some q → if q.injected
          then ((t.core core).placedAt pi).copy = some (q.dampTo q.nextIter .preempt)
          else ((t.core core).placedAt pi).copy = none ∧ (t.group core q.slot).st = .running) ∧
    (∀ r, b.preempt = some r → r.expired = false → ∃ t, exec (.preemptDeadline core blk) s = .next t ∧ MemorySame s t ∧ GroupsSame s t ∧
      ((t.core core).block blk).preempt = some { r with expired := true } ∧
      ∀ q ∈ c.placedIn blk, q.2.region ≠ some .loading → ((t.core core).placedAt q.1).frozen = true) ∧
    (∀ r s1 s2, b.preempt = some r → s.stillBlock core blk r = true → s.flushBlock core blk = .done s1 → s1.unperformed core b 4 = false →
      s1.poisonedOf core b = none → s1.savePlacements core blk = .ok s2 → ∃ t, exec (.blockSave core blk) s = .next t ∧
        (t.core core).hasBlock blk = false ∧ (∀ i ∈ ((s2.core core).block blk).slots, (t.group core i).st = .free) ∧
        ∃ q ∈ (t.part ((s2.core core).block blk).part).saved, ∃ x ∈ q.2.blocks, x.block = (s2.core core).block blk ∧
          x.groups = ((s2.core core).block blk).slots.map (fun i => (i, s2.group core i)) ∧ x.size = (s2.areaBytes core blk).length) ∧
    (let x := SMap.get {} (s.part p).saved n
     let loaded := (x.blocks.map (fun k => k.loaded (s.areaOf p x.area k))).zip sites
     let good := fun (k : SavedBlock) => s.areaOk p x.area k && (s.areaPoison p x.area k).isNone
     x.blocks ≠ [] → s.sitesFor x sites = true →
      (x.blocks.any (s.areaWaits p x.area) = true → exec (.blockRestore p n sites) s = .next s) ∧
      (∀ s1, x.blocks.any (s.areaWaits p x.area) = false → (∀ q ∈ x.blocks.zip sites, good q.1 = true) → s.restoreAll loaded = some s1 →
        (∀ a ∈ sites, s.drawHeld s1 a.core = false) →
        ∃ t u : State, exec (.blockRestore p n sites) s = .next t ∧ t = (u.gangSettle x.die 64).breakDamps p ∧ u.cores = s1.cores ∧ MemorySame s1 u ∧
          SMap.get {} (u.part p).saved n = {} ∧ (u.part p).csa = (s1.part p).csa ++ [(x.area, x.size)]) ∧
      (x.blocks.any (s.areaWaits p x.area) = false → (∃ q ∈ x.blocks.zip sites, good q.1 = false) →
        ∃ t, exec (.blockRestore p n sites) s = .next t ∧ GroupsSame s t ∧
        SMap.get {} (t.part p).saved n = {}))

/-! ## Debug port -/

/-- Debug control (R428, R443, R445): commands and register writes act only for an attached debugger on a group of its partition, and registers only
while the group is HALTED; a group that is asked to halt does so once its earlier words have completed and its rounds have executed. A halt damps
the group where it streams, recorded as a breakpoint's: MODEL'S CHOICE (assumption 118). A group that was HALTED lets the complete phases of its
block depart (R427). It rests on assumptions 42, 68 and 101 too. -/
def Obligations.DebugPort : Prop :=
  ∀ (s : State) (p core slot reg lane n : Nat) (val : Word) (w : Dword),
    let x := s.part p
    let g := s.group core slot
    let mine := x.dbgctl.getLsbD 0 = true ∧ x.dies.contains (dieOf core) = true ∧ slot < 40
    let cmd := fun (t : State) (op : Nat) => (t.part p).dbgcmd = BitVec.ofNat 64 (dieOf core + core % 256 * 4 + slot * 2 ^ 10 + op * 2 ^ 16)
    let cmds : List (Instr × Nat) := [(.dbgcmdHalt p core slot, 1), (.dbgcmdResume p core slot, 2), (.dbgcmdStep p core slot, 3)]
    let bar := w &&& 0xFFFFFFFFFFFFFFF9
    (∃ t, exec (.dbgctlWrite p w) s = .next t ∧ MemorySame s t ∧ ((x.dbgctl.getLsbD 0 = true ∨ w.getLsbD 0 = false) → GroupsSame s t) ∧
      (∀ c i, t.group c i = s.group c i ∨ t.group c i = { s.group c i with st := .running }) ∧ (t.part p).dbgctl = BitVec.ofNat 64 (w.toNat % 4)) ∧
    (n < 8 → ∃ t, exec (.dbgbpWrite p n w) s = .next t ∧ MemorySame s t ∧ SMap.get 0 (t.part p).dbgbp n = bar ∧
      ∀ m, m ≠ n → SMap.get 0 (t.part p).dbgbp m = SMap.get 0 x.dbgbp m) ∧
    (8 ≤ n → exec (.dbgbpWrite p n w) s = .next s) ∧
    (∀ q ∈ cmds, ∃ t, exec q.1 s = .next t ∧ MemorySame s t ∧ cmd t q.2 ∧ (¬mine → GroupsSame s t) ∧
      ∀ c i, (c, i) ≠ (core, slot) → t.group c i = s.group c i ∨
        ((∃ k, (s.group c i).st = .waiting (.bar k)) ∧ t.group c i = (s.group c i).depart)) ∧
    (mine → ∃ t, exec (.dbgcmdHalt p core slot) s = .next t ∧ let h := t.group core slot
      (g.st.issues = false → h = g) ∧ (g.st = .running → h = { g with haltReq := true }) ∧
      (g.st.issues = true → h = { g with
          st := h.st
          pc := h.pc
          haltReq := true } ∧
        ∀ pi q, (pi, q) ∈ (s.core core).streaming g.blk → ((s.core core).placedAt pi).copy = some q → q.slot = slot → if q.injected
          then ((t.core core).placedAt pi).copy = some (q.dampTo q.nextIter .breakpoint)
          else ((t.core core).placedAt pi).copy = none)) ∧
    (∀ q ∈ [(Instr.dbgcmdResume p core slot, false), (.dbgcmdStep p core slot, true)], mine → g.st = .halted →
      ∃ t, exec q.1 s = .next t ∧ t.group core slot = { g with
        st := .running
        pc := if x.dbgpc = 0 then g.pc else x.dbgpc &&& 0x00FFFFFFFFFFFFF8
        fxOct := if x.dbgpc = 0 then g.fxOct else 0
        fxEnd := if x.dbgpc = 0 then g.fxEnd else none
        flushing := x.dbgpc == 0 && g.flushing
        haltReq := false
        stepReq := q.2
        bpPast := true }) ∧
    ((s.core core).eligible slot = true → s.bpMatch core slot = true →
      (∀ v, s.fetchFor core slot = .word v → ∃ t, exec (.dbgbpMatch core slot) s = .next t ∧ MemorySame s t ∧
        GroupsBut s t core slot ∧ t.group core slot = { g with haltReq := true }) ∧
      ((∀ v, s.fetchFor core slot ≠ .word v) → exec (.dbgbpMatch core slot) s = .next s)) ∧
    (let part := ((s.core core).block g.blk).part; g.st = .running → g.haltReq = true → g.answer = none → s.quietGroup core slot = true →
      ∃ t, exec (.groupHalt core slot) s = .next t ∧ GroupsBut s t core slot ∧
        t.group core slot = { g with
          st := .halted
          haltReq := false } ∧ (t.part part).dbgidx = (s.part part).dbgidx + 1 ∧
        ((s.part part).dbgring = 0 → MemorySame s t) ∧
        ((s.part part).dbgring ≠ 0 → MemoryBut s t (partKey part ((s.part part).dbgring + 64 * ((s.part part).dbgidx % 64))) 64)) ∧
    (∀ h, x.dbgctl.getLsbD 0 = true → x.dies.contains (dieOf core) = true → g.st = .halted → lane < 32 → g.debugWrite reg lane val = some h →
      ∃ t, exec (.debuggerRegisterWrite p core slot reg lane val) s = .next t ∧ MemorySame s t ∧ GroupsBut s t core slot ∧
        (t.group core slot).y0v = false ∧ (t.group core slot).y1v = false ∧ (t.group core slot).pc = g.pc ∧ (t.group core slot).st = .halted ∧
        t.group core slot = { h with
          y0v := false
          y1v := false } ∧ (reg < 256 → (t.group core slot).stored 0 reg lane = val)) ∧
    (g.st ≠ .halted → exec (.debuggerRegisterWrite p core slot reg lane val) s = .next s)

/-! ## Service, partitions, links, code objects -/

/-- Reset and the service states, partitions, links, attestation and code objects (R385 to R389, R406, R438, R451 to R456, R459). That a load
ends in its step with a base at a multiple of 64 KiB, the linkage entries and the words beside them are the MODEL'S CHOICES (assumptions 70, 49,
120), and so are the free values of 9 and 50, the layout of 51, the fields of 53, the memory of a new partition (54, 95) and the words that
stay buffered (103). -/
def Obligations.ServiceAndCode : Prop :=
  ∀ (s : State) (p obj asid page link ver width count : Nat) (base : Dword) (nonce : List Byte) (harvest : List Nat) (dies signed : BitVec 4),
    let x := s.part p
    let o := SMap.get {} x.objects obj
    let lk := fun (t : State) => SMap.get {} t.links link
    let object := fun (t : State) => SMap.get {} (t.part p).objects obj
    let pageVa := o.base.toNat + o.codeofs + 65536 * page
    (∃ t, exec .reset s = .next t ∧ t.devstate = 0 ∧ t.cores = [] ∧ t.queues = [] ∧ t.commands = [] ∧ t.jhead = 0 ∧
      (∀ a, a < 2 ^ 60 → SMap.get 0 t.mem a = 0) ∧ ∀ a, 2 ^ 60 ≤ a → SMap.get 0 t.mem a = SMap.get 0 s.mem a) ∧
    (s.devstate = 0 → ∃ t, exec (.serviceReduced harvest) s = .next t ∧ MemorySame s t ∧ t.cores = s.cores ∧
      (Config.bootOk s.tick = true → t.devstate = 1 ∧ t.dieok = 1 ∧ t.harvest = harvest ∧ t.mfst = true ∧ (t.part 0).dies = [0]) ∧
      (Config.bootOk s.tick = false → t.devstate = 3)) ∧
    (s.devstate = 1 → ∃ t, exec (.serviceFull dies) s = .next t ∧ GroupsSame s t ∧ t.devstate = 2 ∧ t.dieok = dies ||| 1 ∧
      ∀ c ∈ s.commands, c.2.typ = 1 → c.2.st = .accepted → c.2.kd.reducedOk = false → (t.command c.1).st = .dispatched) ∧
    (count = 1 ∨ count = 2 ∨ count = 4 → s.devstate = 2 → (∀ q ∈ s.queues, q.2.st ≠ .active) → s.commands = [] →
      (∀ c ∈ s.cores, c.2.blocks = [] ∧ c.2.requests = []) → s.writes = [] → s.hubq = [] →
      ∃ t, exec (.partitionSetup count signed) s = .next t ∧ GroupsSame s t ∧ (∀ a, s.staysPut t a = true → SMap.get 0 t.mem a = SMap.get 0 s.mem a) ∧
        ∀ i, i < count → (t.part i).signedOnly = signed.getLsbD i ∧
          ∀ d, d < 4 → ((t.part i).dies.contains d = true ↔ d / (4 / count) = i ∧ s.dieok.getLsbD d = true)) ∧
    (link < 12 → s.devstate = 2 → ∃ t, exec (.linkTrain link ver width) s = .next t ∧ MemorySame s t ∧ t.cores = s.cores ∧
      lk t = (if ver = 0 ∨ width < 2 then {} else { up := true, ver := min 2 ver, width := if 8 ≤ width then 8 else if 4 ≤ width then 4 else 2 })) ∧
    ((lk s).up = true → ∃ t, exec (.linkDown link) s = .next t ∧ lk t = {} ∧ (s.blocksOver link = [] → GroupsSame s t) ∧
      ∀ q, s.blocksOver link = [q] → ((s.core q.1).block q.2).gangLaunch = false → (t.core q.1).hasBlock q.2 = false) ∧
    (nonce.length = 32 → ∃ t, exec (.attestationRequest p nonce) s = .next t ∧ MemorySame s t ∧ t.cores = s.cores ∧
      (t.part p).report.take 32 = nonce ∧ (t.part p).report = s.reportBody nonce ++ Config.attestSign (s.reportBody nonce)) ∧
    (∀ l w, let nimp := recField l 0x16 2
      let link := base.toNat + recField l 0x2C 4
      obj < 256 → o.st = 0 → (SMap.get {} x.aspaces asid).used = true → base.toNat % 65536 = 0 → s.loaderRead p asid base.toNat 80 = some l →
      headerFits l = true → (∀ q ∈ x.objects, q.2.objid ≠ (objectOf asid base l).objid) →
      (s.exportNames p asid base.toNat (objectOf asid base l).size (recField l 0x24 4) (recField l 0x30 4) (recField l 0x14 2) 0).any distinctNames
        = true → s.importsOk p asid (base.toNat + recField l 0x28 4) (recField l 0x16 2) = true →
      (if nimp = 0 then Reach.ok [] else s.hubReach p asid .write link (8 * nimp)) = .ok w →
      ((objectOf asid base l).signed = true → s.loaderWaits p asid (base.toNat + recField l 0x20 4) (48 * recField l 0x10 4) = false ∧
        s.loaderWaits p asid (base.toNat + recField l 0x38 4) 96 = false) →
      ∃ t u : State, exec (.codeObjectLoad p obj asid base) s = .next t ∧ GroupsSame s t ∧ (object t).st = 2 ∧ (object t).objid = recField l 8 8 ∧
        (object t).base = base ∧ (object t).asid = asid ∧ object u = object t ∧
        MemorySame (s.hubPut w ((List.range nimp).flatMap (fun _ => bytesOf 8 (Config.resolverStub p).toNat))) u ∧
        t = if 512 < nimp then u else (List.range nimp).foldl (fun (v : State) i => v.linkWords p asid base.toNat (recField l 0x30 4)
          (recField l 0x28 4) link i (objectOf asid base l).size) u) ∧
    (o.st ≠ 0 → ∃ t, exec (.codeObjectUnload p obj) s = .next t ∧ MemorySame s t ∧ GroupsSame s t ∧ (object t).st = 0 ∧
      ∀ k, x.dies.contains (dieOf k) = true → ∀ e ∈ (t.core k).cache, e.objid ≠ o.objid) ∧
    (∀ l h, o.st = 2 → page < o.pages → o.present.contains page = false → s.loaderRead p o.asid pageVa 65536 = some l →
      s.loaderRead p o.asid (o.base.toNat + o.hashofs + 48 * page) 48 = some h → ∃ t, exec (.codePageVerify p obj page) s = .next t ∧
        MemorySame s t ∧ page ∈ (object t).present ∧
        (Config.sha384 l = h → GroupsSame s t ∧ (object t).st = 2 ∧ page ∈ (object t).verified) ∧
        (Config.sha384 l ≠ h → (object t).st = 3 ∧ (object t).badPage = pageVa + 1 ∧
          ∀ c i, t.group c i = { s.group c i with ibuf := (t.group c i).ibuf }))

/-! ## The issue of a word, its checks and its faults -/

/-- One step (assumption 1): at a front end's turn the word at the chosen group's PC is decoded and its instruction runs, after one cycle of the
core's counters; at an element's turn the slot that the arbiter chooses fires; at an event's turn the event happens. It rests on assumptions 41, 43
and 103 too. -/
def Obligations.StepRunsTheDecodedInstruction : Prop :=
  ∀ (s : State) (core slot elem n : Nat) (i : Instr) (w : Dword) (r : List Config.Turn),
    let u0 := { s with turns := r }
    let u := u0.fetchJoins core
    let c := u.core core
    let ready := u.accepts core
    let issued := fun (p : Nat) =>
      let u1 := u.setCore core (c.cycle ready (some p))
      { (u1.setGroup core p { (u1.group core p) with
          haltReq := (u1.group core p).stepReq || ((u1.group core p).answer.isSome && (u1.group core p).haltReq)
          stepReq := false
          bpPast := false
          answer := none
          refused := (u1.group core p).answer.getD []
          ibuf := (u1.group core p).ibuf.dropWhile (fun q => q.1 != (u1.group core p).pc.toNat) }) with
        curCore := core
        curSlot := p
        stalled := false }
    (s.turns = .issue core :: r → c.pick ready = some slot → u.fetchFor core slot = .word w →
      u.bpMatch core slot = false →
      (decodeWord w = .ok i → step s = exec i (issued slot)) ∧
      (∀ e, decodeWord w = .error e → step s = exec (.unassignedOp w) (issued slot))) ∧
    (s.turns = .issue core :: r → c.pick ready = none → step s = .next (u.setCore core (c.cycle ready none))) ∧
    (s.turns = .element core elem :: r → u0.arbiter core elem = some n →
      (let o := ((u0.core core).elem elem).owner
       o = 0 ∨ ((u0.core core).placedAt (o - 1)).acts = false ∨ (u0.core core).overdrawn = false) →
      let word := ((u0.core core).elem elem).slotWord n
      step s = { (u0.elemCycle core elem (some n)) with
        curCore := core
        curElem := elem
        curElemSlot := n }.fire (elemForm (slotOp word)) (elemFields word)) ∧
    (s.turns = .event i :: r → encode i = .noWord → step s = exec i u0)

/-- The checks of R60, before the guard is applied: a front-end word whose fields are illegal, or that names a v register at or above `.regs`, or a
form that the service state does not have, faults ILLEGAL_OPCODE; one that then names an invalid y slot faults ILLEGAL_OPERAND; so does a word that
is no instruction. The record's LMASK and the forms that reduced service lacks are read from the spec (assumptions 26, 33); that the lowest invalid
y slot is named is the MODEL'S CHOICE (assumption 29). It rests on assumptions 27, 71, 83, 88, 104 and 105 too. -/
def Obligations.FrontEndChecks : Prop :=
  ∀ (s : State) (i : Instr) (w : Dword),
    let ok := legal i && !(form i).uses.any (aboveRegs s.curBlock.kd.regs) && !s.refuses i
    (encode i = .front w → ok = false → exec i s = .next (s.raise s.curCore s.curSlot { cause := 1 })) ∧
    (∀ n, encode i = .front w → ok = true → yFault s.cur (form i).uses = some n →
      exec i s = .next (s.raise s.curCore s.curSlot { cause := 2, sub := n })) ∧
    (∀ e, decodeWord w = .error e → s.fetchFor s.curCore s.curSlot = .word w → s.cur.st = .running →
      exec (.unassignedOp w) s = .next (s.raise s.curCore s.curSlot { cause := 1 }))

/-- Taking a group-precise fault (R431, R77, R338): the group is SUSPENDED under a new FAULTID and its count of faults rises; FAULTINFO holds cause,
PC, address and lanes; the rest of the group, every other group and every other core's state stay; where the fault queue has room, a KIND 1 record
stands at FQW, which rises. It rests on assumption 26. -/
def Obligations.GroupFault : Prop :=
  ∀ (s : State) (core slot : Nat) (f : GFault),
    let g := s.group core slot
    let b := (s.core core).block g.blk
    let p := s.part b.part
    let t := s.raise core slot f
    let h := t.group core slot
    let fid := faultId core slot (s.core core).gen (g.faults + 1)
    let key := s.ringKey b.part
    let free := p.fqbase ≠ 0 ∧ (p.fqw - p.fqr).toNat < 2 ^ p.fqlog
    let rec_ : FaultRec := { kind := 1, gen := (s.core core).gen, cause := f.cause, sub := f.sub, die := dieOf core, core := core % 256, faultid := fid
                             lmask := f.lanes, pc := g.pc, addr := BitVec.ofNat 64 f.addr, gridseq := b.gridseq, block := b.b
                             detail := BitVec.ofNat 64 f.detail }
    h.st = .suspended fid ∧ h.faults = g.faults + 1 ∧
    SMap.get 0 h.faultinfo 0 = BitVec.ofNat 32 (f.cause + f.sub * 65536) ∧ SMap.get 0 h.faultinfo 1 = g.pc.setWidth 32 ∧
    SMap.get 0 h.faultinfo 2 = g.pc.extractLsb' 32 32 ∧ SMap.get 0 h.faultinfo 3 = BitVec.ofNat 32 f.addr ∧
    SMap.get 0 h.faultinfo 4 = BitVec.ofNat 32 (f.addr / 2 ^ 32) ∧ SMap.get 0 h.faultinfo 5 = f.lanes ∧
    h = { g with
      st := h.st
      faults := h.faults
      faultinfo := h.faultinfo
      susp := h.susp } ∧
    GroupsBut s t core slot ∧ (t.core core).blocks = (s.core core).blocks ∧ MemoryBut s t key 64 ∧ (¬free → MemorySame s t) ∧
    ((free → s.hubQuiet key 64) → ∀ c, c ≠ core → t.core c = s.core c) ∧
    (free → (t.part b.part).fqw = p.fqw + 1 ∧ (s.hubQuiet key 64 → t.rd key 64 = rec_.bytes (p.fqw.toNat + 1) % 256 ^ 64))

/-! ## Rules of arithmetic -/

/-- R98, R100 and R104 in exact integers, for IADD, ISUB, IADD64, ISUB64, IDIV, IREM, SHL, SHR, SAR and ROT. -/
def Obligations.IntegerRules : Prop :=
  ∀ (x : FmtR) (s : State),
    let sg := x.m.getLsbD 11
    let sat := x.m.getLsbD 10
    let ext := fun {w : Nat} (a : BitVec w) => if sg then a.toInt else (a.toNat : Int)
    let clamp := fun (n : Nat) (v : Int) =>
      if sat = false then v
      else if sg then max (-(2 : Int) ^ (n - 1)) (min v ((2 : Int) ^ (n - 1) - 1)) else max 0 (min v ((2 : Int) ^ n - 1))
    let a := s.srcX x.c x.a
    let b := s.srcX x.c x.b
    let a2 := s.src64 x.a
    let b2 := s.src64 x.b
    let n := fun l => if x.m.getLsbD 9 then (b l).toNat % 32 else (b l).toNat
    let single : List (Instr × (Nat → Word)) :=
      [(.iadd x, fun l => BitVec.ofInt 32 (clamp 32 (ext (a l) + ext (b l)))), (.isub x, fun l => BitVec.ofInt 32 (clamp 32 (ext (a l) - ext (b l)))),
       (.idiv x, fun l => if b l = 0 then 0xFFFFFFFF else if sg = true ∧ a l = 0x80000000 ∧ b l = 0xFFFFFFFF then 0x80000000
          else BitVec.ofInt 32 ((ext (a l)).tdiv (ext (b l)))),
       (.irem x, fun l => if b l = 0 then a l else if sg = true ∧ a l = 0x80000000 ∧ b l = 0xFFFFFFFF then 0
          else BitVec.ofInt 32 (ext (a l) - ext (b l) * (ext (a l)).tdiv (ext (b l)))),
       (.shl x, fun l => if 32 ≤ n l then 0 else BitVec.ofNat 32 ((a l).toNat * 2 ^ n l)),
       (.shr x, fun l => if 32 ≤ n l then 0 else BitVec.ofNat 32 ((a l).toNat / 2 ^ n l)),
       (.sar x, fun l => if 32 ≤ n l then (if (a l).getLsbD 31 then 0xFFFFFFFF else 0) else BitVec.ofInt 32 ((a l).toInt / 2 ^ n l)),
       (.rot x, fun l => ((a l) <<< ((b l).toNat % 32)) ||| ((a l) >>> (32 - (b l).toNat % 32)))]
    let double : List (Instr × (Nat → Dword)) :=
      [(.iadd64 x, fun l => BitVec.ofInt 64 (clamp 64 (ext (a2 l) + ext (b2 l)))),
       (.isub64 x, fun l => BitVec.ofInt 64 (clamp 64 (ext (a2 l) - ext (b2 l))))]
    (∀ i ∈ [Instr.shl x, .shr x, .sar x, .rot x], legal i = true → sg = false ∧ sat = false) ∧ (legal (.rot x) = true → x.m.getLsbD 9 = false) ∧
    (∀ p ∈ single, s.passes p.1 = true → ∃ t, exec p.1 s = .next t ∧ Result32 s t x.g x.d p.2) ∧
    (∀ p ∈ double, s.passes p.1 = true → ∃ t, exec p.1 s = .next t ∧ Result64 s t x.g x.d p.2)

/-- Lanes that add at one location perform one by one in ascending order (R233, R243, R247): the location ends at the sum, and each lane receives
the location's value plus what the lanes before it added. It rests on assumption 78. -/
def Obligations.AtomicSum : Prop :=
  ∀ (s : State) (sg : Bool) (n k : Nat) (l : List (Nat × Nat)), (n = 4 ∨ n = 8) → l.Pairwise (fun p q => p.1 ≠ q.1) →
    let lanes := l.map (fun p => (p.1, some k, p.2, 0))
    let q := s.atomics .add sg n lanes
    q.1.rd k n = (s.rd k n + (l.map (·.2)).foldl (· + ·) 0) % 2 ^ (8 * n) ∧
    (∀ i, i < l.length → oldOf q.2 (l.getD i (0, 0)).1 = (s.rd k n + ((l.take i).map (·.2)).foldl (· + ·) 0) % 2 ^ (8 * n)) ∧
    ∀ a, (a < k ∨ k + n ≤ a) → SMap.get 0 q.1.mem a = SMap.get 0 s.mem a

/-! ## Reset, encoding, invariant -/

/-- The machine right after reset (R211, R324, R372, R412, R428, R451): DEVSTATE reads 0, memory reads 0 and is in canonical form, no block is
resident, every slot is FREE, every queue is FREE, and no table holds an entry. It rests on assumptions 2, 3, 4 and 5. -/
def Obligations.ResetState : Prop :=
  let s := State.reset
  s.memoryWf ∧ s.devstate = 0 ∧ (∀ p, s.readRegister p 0 = 0) ∧ (∀ a, SMap.get 0 s.mem a = 0) ∧
  (∀ c, (s.core c).blocks = [] ∧ (s.core c).bars = [] ∧ (s.core c).windows = [] ∧ (s.core c).copyq = [] ∧ (s.core c).matq = [] ∧
    (s.core c).cache = [] ∧ (s.core c).placed = [] ∧ ∀ a, SMap.get 0 (s.core c).scratch a = 0 ∧ SMap.get 0 (s.core c).laneMem a = 0) ∧
  (∀ c i, (s.group c i).st = .free ∧ (s.group c i).faults = 0 ∧ (s.group c i).loopcfg = 0x308 ∧ (s.group c i).y0v = false) ∧
  (∀ q, (s.queue q).st = .free) ∧ s.commands = [] ∧ s.jhead = 0 ∧ s.tlb = [] ∧ s.parts = [] ∧ (∀ l, s.dirEntry l = {}) ∧
  (∀ c e, ((s.core c).elem e).owner = 0 ∧ ∀ n, (((s.core c).elem e).chan n).q = [] ∧ ((s.core c).elem e).slotWord n = 0x0377C070)

/-- Words that the spec writes out decode to the instructions that it gives them (R51, R61, R84, R231, R247, R433). -/
def Obligations.DecodedWords : Prop :=
  decodeWord 0xA770180201C005B0 = .ok (.atadd { g := ⟨false, 7⟩, d := .v 6, a := .v 2, b := .v 7, c := 0, m := 0x5B0 }) ∧
  decodeWord 0xD870180400000000 = .ok (.gresumeReplay { g := ⟨false, 7⟩, d := .v 6, a := .v 4, b := .v 0, c := 0, m := 0 }) ∧
  decodeWord 0xD870080852800001 = .ok (.gresumeSkip { g := ⟨false, 7⟩, d := .v 2, a := .v 8, b := .k 10, c := 0, m := 1 }) ∧
  decodeWord 0 = .error .zeroWord ∧ (decodeWord 0x3D00000000000000).toOption = none

/-- Every well-formed word, front-end or element, is what its encoding decodes to. -/
def Obligations.DecodeEncode : Prop :=
  ∀ i : Instr, wellFormed i = true → encode i ≠ .noWord → decode (encode i) = .ok i

/-- Every step keeps memory in its canonical form. -/
def Obligations.MemoryStaysCanonical : Prop := ∀ s t : State, s.memoryWf → step s = .next t → t.memoryWf
end

