-- ==== Sys2Proof/Laws/Map.lean ====
section
/-!
SUPPORT. The laws of sparse maps: what a read finds after a write, and that writes keep the canonical form; then the same of byte ranges.
-/

namespace Sys2Proof

variable {α : Type}

@[simp] theorem SMap.get_nil (d : α) (k : Nat) : SMap.get d [] k = d := rfl

theorem SMap.get_put_same (d : α) (m : SMap α) (k : Nat) (v : α) : SMap.get d (SMap.put m k v) k = v := by
  induction m with
  | nil => simp [SMap.put, SMap.get]
  | cons p r ih =>
    obtain ⟨i, a⟩ := p
    unfold SMap.put
    split
    · simp [SMap.get]
    · split
      · simp [SMap.get]
      · simp only [SMap.get]
        split
        · omega
        · exact ih

theorem SMap.get_put_ne (d : α) (m : SMap α) {k j : Nat} (v : α) (h : k ≠ j) : SMap.get d (SMap.put m k v) j = SMap.get d m j := by
  induction m with
  | nil => simp [SMap.put, SMap.get, h]
  | cons p r ih =>
    obtain ⟨i, a⟩ := p
    unfold SMap.put
    split
    · simp [SMap.get, h]
    · split
      · subst_vars; simp [SMap.get, h]
      · simp only [SMap.get, ih]

theorem SMap.get_del_same (d : α) (m : SMap α) (k : Nat) : SMap.get d (SMap.del m k) k = d := by
  induction m with
  | nil => rfl
  | cons p r ih =>
    obtain ⟨i, a⟩ := p
    unfold SMap.del
    split
    · exact ih
    · simp only [SMap.get]; split
      · contradiction
      · exact ih

theorem SMap.get_del_ne (d : α) (m : SMap α) {k j : Nat} (h : k ≠ j) : SMap.get d (SMap.del m k) j = SMap.get d m j := by
  induction m with
  | nil => rfl
  | cons p r ih =>
    obtain ⟨i, a⟩ := p
    unfold SMap.del
    split
    · subst_vars; simp [SMap.get, h, ih]
    · simp only [SMap.get, ih]

variable [DecidableEq α]

@[simp] theorem SMap.get_set_same (d : α) (m : SMap α) (k : Nat) (v : α) : SMap.get d (SMap.set d m k v) k = v := by
  unfold SMap.set; split
  · subst_vars; exact SMap.get_del_same _ m k
  · exact SMap.get_put_same d m k v

theorem SMap.get_set_ne (d : α) (m : SMap α) {k j : Nat} (v : α) (h : k ≠ j) : SMap.get d (SMap.set d m k v) j = SMap.get d m j := by
  unfold SMap.set; split
  · exact SMap.get_del_ne d m h
  · exact SMap.get_put_ne d m v h

theorem SMap.get_set (d : α) (m : SMap α) (k j : Nat) (v : α) :
    SMap.get d (SMap.set d m k v) j = if k = j then v else SMap.get d m j := by
  split
  · subst_vars; simp
  · exact SMap.get_set_ne d m v ‹_›

/-! ## The canonical form -/

omit [DecidableEq α] in
theorem SMap.above_cons {k i : Nat} {a : α} {r : SMap α} : SMap.above k ((i, a) :: r) = (decide (k < i) && SMap.above k r) := rfl

omit [DecidableEq α] in
theorem SMap.above_trans {k i : Nat} {r : SMap α} (h : k < i) (hr : SMap.above i r = true) : SMap.above k r = true := by
  simp only [SMap.above, List.all_eq_true, decide_eq_true_eq] at *
  intro p hp; have := hr p hp; omega

omit [DecidableEq α] in
theorem SMap.above_put {k i : Nat} {r : SMap α} (v : α) (h : i < k) (hr : SMap.above i r = true) : SMap.above i (SMap.put r k v) = true := by
  induction r with
  | nil => simp [SMap.put, SMap.above, h]
  | cons p r ih =>
    obtain ⟨j, a⟩ := p
    simp only [SMap.above_cons, Bool.and_eq_true, decide_eq_true_eq] at hr
    unfold SMap.put
    split
    · simp [SMap.above_cons, h, hr.1, hr.2]
    · split
      · simp [SMap.above_cons, h, hr.2]
      · simp [SMap.above_cons, hr.1, ih hr.2]

omit [DecidableEq α] in
theorem SMap.above_del {k i : Nat} {r : SMap α} (hr : SMap.above i r = true) : SMap.above i (SMap.del r k) = true := by
  induction r with
  | nil => exact hr
  | cons p r ih =>
    obtain ⟨j, a⟩ := p
    simp only [SMap.above_cons, Bool.and_eq_true, decide_eq_true_eq] at hr
    unfold SMap.del
    split
    · exact ih hr.2
    · simp [SMap.above_cons, hr.1, ih hr.2]

theorem SMap.wf_cons {d : α} {i : Nat} {a : α} {r : SMap α} :
    SMap.wf d ((i, a) :: r) = true ↔ a ≠ d ∧ SMap.above i r = true ∧ SMap.wf d r = true := by
  simp [SMap.wf, and_assoc]

theorem SMap.wf_put {d : α} {m : SMap α} {k : Nat} {v : α} (hv : v ≠ d) (h : SMap.wf d m = true) : SMap.wf d (SMap.put m k v) = true := by
  induction m with
  | nil => simp [SMap.put, SMap.wf, hv, SMap.above]
  | cons p r ih =>
    obtain ⟨i, a⟩ := p
    have h' := SMap.wf_cons.mp h
    unfold SMap.put
    split
    · exact SMap.wf_cons.mpr ⟨hv, by simp [SMap.above_cons, *, SMap.above_trans ‹k < i› h'.2.1], h⟩
    · split
      · subst_vars; exact SMap.wf_cons.mpr ⟨hv, h'.2.1, h'.2.2⟩
      · exact SMap.wf_cons.mpr ⟨h'.1, SMap.above_put v (by omega) h'.2.1, ih h'.2.2⟩

theorem SMap.wf_del {d : α} {m : SMap α} (k : Nat) (h : SMap.wf d m = true) : SMap.wf d (SMap.del m k) = true := by
  induction m with
  | nil => exact h
  | cons p r ih =>
    obtain ⟨i, a⟩ := p
    have h' := SMap.wf_cons.mp h
    unfold SMap.del
    split
    · exact ih h'.2.2
    · exact SMap.wf_cons.mpr ⟨h'.1, SMap.above_del h'.2.1, ih h'.2.2⟩

/-- A write keeps the canonical form. -/
theorem SMap.wf_set {d : α} {m : SMap α} (k : Nat) (v : α) (h : SMap.wf d m = true) : SMap.wf d (SMap.set d m k v) = true := by
  unfold SMap.set; split
  · exact SMap.wf_del k h
  · exact SMap.wf_put ‹_› h

omit [DecidableEq α] in
theorem SMap.above_filter {i : Nat} {r : SMap α} (p : Nat × α → Bool) (h : SMap.above i r = true) : SMap.above i (r.filter p) = true := by
  simp only [SMap.above, List.all_eq_true] at *
  intro q hq; exact h q (List.mem_of_mem_filter hq)

/-- Dropping entries keeps the canonical form. -/
theorem SMap.wf_filter {d : α} {m : SMap α} (p : Nat × α → Bool) (h : SMap.wf d m = true) : SMap.wf d (m.filter p) = true := by
  induction m with
  | nil => exact h
  | cons q r ih =>
    obtain ⟨i, a⟩ := q
    have h' := SMap.wf_cons.mp h
    rw [List.filter_cons]
    split
    · exact SMap.wf_cons.mpr ⟨h'.1, SMap.above_filter p h'.2.1, ih h'.2.2⟩
    · exact ih h'.2.2

end Sys2Proof

namespace Sys2Proof.Machine

/-! ## Ranges of bytes -/

/-- A write of bytes keeps the canonical form of memory. -/
theorem writeBytes_wf {m : SMap Byte} (k n v : Nat) (h : SMap.wf 0 m = true) : SMap.wf 0 (writeBytes m k n v) = true := by
  induction n generalizing m k v with
  | zero => exact h
  | succ n ih => exact ih _ _ (SMap.wf_set _ _ h)

/-- A write of a list of bytes keeps the canonical form of memory. -/
theorem writeList_wf {m : SMap Byte} (k : Nat) (l : List Byte) (h : SMap.wf 0 m = true) : SMap.wf 0 (writeList m k l) = true := by
  induction l generalizing m k with
  | nil => exact h
  | cons b r ih => exact ih _ (SMap.wf_set _ _ h)

/-- Clearing a range keeps the canonical form. -/
theorem clearRange_wf {α : Type} [DecidableEq α] {d : α} {m : SMap α} (k n : Nat) (h : SMap.wf d m = true) :
    SMap.wf d (clearRange m k n) = true := SMap.wf_filter _ h

/-- A byte outside the written range reads as before. -/
theorem writeBytes_outside (m : SMap Byte) (k n v a : Nat) (h : a < k ∨ k + n ≤ a) :
    SMap.get 0 (writeBytes m k n v) a = SMap.get 0 m a := by
  induction n generalizing m k v with
  | zero => rfl
  | succ n ih =>
    unfold writeBytes
    rw [ih _ _ _ (by omega), SMap.get_set_ne _ _ _ (by omega)]

/-- A byte inside the written range reads as its part of the value. -/
theorem writeBytes_inside (m : SMap Byte) (k n v i : Nat) (h : i < n) :
    SMap.get 0 (writeBytes m k n v) (k + i) = BitVec.ofNat 8 (v / 2 ^ (8 * i)) := by
  induction n generalizing m k v i with
  | zero => omega
  | succ n ih =>
    unfold writeBytes
    cases i with
    | zero => rw [writeBytes_outside _ _ _ _ _ (by omega)]; simp
    | succ i =>
      have := ih (SMap.set 0 m k (BitVec.ofNat 8 v)) (k + 1) (v / 256) i (by omega)
      rw [show k + (i + 1) = k + 1 + i by omega, this, Nat.div_div_eq_div_mul]
      congr 2
      rw [show 8 * (i + 1) = 8 * i + 8 by ring, pow_add]; ring

/-- A byte outside a written list reads as before. -/
theorem writeList_outside (m : SMap Byte) (k : Nat) (l : List Byte) (a : Nat) (h : a < k ∨ k + l.length ≤ a) :
    SMap.get 0 (writeList m k l) a = SMap.get 0 m a := by
  induction l generalizing m k with
  | nil => rfl
  | cons b r ih =>
    unfold writeList
    simp only [List.length_cons] at h
    rw [ih _ _ (by omega), SMap.get_set_ne _ _ _ (by omega)]

/-- Reading what has just been written gives its low bytes (R3). -/
theorem readBytes_writeBytes (m : SMap Byte) (k n v : Nat) : readBytes (writeBytes m k n v) k n = v % 256 ^ n := by
  induction n generalizing m k v with
  | zero => simp [readBytes, Nat.mod_one]
  | succ n ih =>
    unfold readBytes writeBytes
    rw [ih, writeBytes_outside _ _ _ _ _ (by omega), SMap.get_set_same, pow_succ, BitVec.toNat_ofNat,
      mul_comm (256 ^ n) 256, Nat.mod_mul]

/-- Reading is unchanged by a write to bytes apart. -/
theorem readBytes_outside (m : SMap Byte) (k n v a i : Nat) (h : a + i ≤ k ∨ k + n ≤ a) :
    readBytes (writeBytes m k n v) a i = readBytes m a i := by
  induction i generalizing a with
  | zero => rfl
  | succ i ih =>
    unfold readBytes
    rw [ih _ (by omega), writeBytes_outside _ _ _ _ _ (by omega)]

end Sys2Proof.Machine
end

