-- ==== Sys2Proof/Laws/State.lean ====
section
/-!
SUPPORT. Beside State: one lemma for each field and each update, so that no proof unfolds a record update.
-/

namespace Sys2Proof.Machine


/-! ## State.setCore -/

@[simp] theorem State.setCore_turns (s : State) (k : Nat) (x : Core) : (s.setCore k x).turns = s.turns := rfl
@[simp] theorem State.setCore_tick (s : State) (k : Nat) (x : Core) : (s.setCore k x).tick = s.tick := rfl
@[simp] theorem State.setCore_curCore (s : State) (k : Nat) (x : Core) : (s.setCore k x).curCore = s.curCore := rfl
@[simp] theorem State.setCore_curSlot (s : State) (k : Nat) (x : Core) : (s.setCore k x).curSlot = s.curSlot := rfl
@[simp] theorem State.setCore_curElem (s : State) (k : Nat) (x : Core) : (s.setCore k x).curElem = s.curElem := rfl
@[simp] theorem State.setCore_curElemSlot (s : State) (k : Nat) (x : Core) : (s.setCore k x).curElemSlot = s.curElemSlot := rfl
@[simp] theorem State.setCore_stalled (s : State) (k : Nat) (x : Core) : (s.setCore k x).stalled = s.stalled := rfl
@[simp] theorem State.setCore_mem (s : State) (k : Nat) (x : Core) : (s.setCore k x).mem = s.mem := rfl
@[simp] theorem State.setCore_dir (s : State) (k : Nat) (x : Core) : (s.setCore k x).dir = s.dir := rfl
@[simp] theorem State.setCore_poisoned (s : State) (k : Nat) (x : Core) : (s.setCore k x).poisoned = s.poisoned := rfl
@[simp] theorem State.setCore_notices (s : State) (k : Nat) (x : Core) : (s.setCore k x).notices = s.notices := rfl
@[simp] theorem State.setCore_writes (s : State) (k : Nat) (x : Core) : (s.setCore k x).writes = s.writes := rfl
@[simp] theorem State.setCore_hubq (s : State) (k : Nat) (x : Core) : (s.setCore k x).hubq = s.hubq := rfl
@[simp] theorem State.setCore_tlb (s : State) (k : Nat) (x : Core) : (s.setCore k x).tlb = s.tlb := rfl
@[simp] theorem State.setCore_walks (s : State) (k : Nat) (x : Core) : (s.setCore k x).walks = s.walks := rfl
@[simp] theorem State.setCore_drains (s : State) (k : Nat) (x : Core) : (s.setCore k x).drains = s.drains := rfl
@[simp] theorem State.setCore_retention (s : State) (k : Nat) (x : Core) : (s.setCore k x).retention = s.retention := rfl
@[simp] theorem State.setCore_corrected (s : State) (k : Nat) (x : Core) : (s.setCore k x).corrected = s.corrected := rfl
@[simp] theorem State.setCore_queues (s : State) (k : Nat) (x : Core) : (s.setCore k x).queues = s.queues := rfl
@[simp] theorem State.setCore_commands (s : State) (k : Nat) (x : Core) : (s.setCore k x).commands = s.commands := rfl
@[simp] theorem State.setCore_nextCmd (s : State) (k : Nat) (x : Core) : (s.setCore k x).nextCmd = s.nextCmd := rfl
@[simp] theorem State.setCore_rr (s : State) (k : Nat) (x : Core) : (s.setCore k x).rr = s.rr := rfl
@[simp] theorem State.setCore_jhead (s : State) (k : Nat) (x : Core) : (s.setCore k x).jhead = s.jhead := rfl
@[simp] theorem State.setCore_jbase (s : State) (k : Nat) (x : Core) : (s.setCore k x).jbase = s.jbase := rfl
@[simp] theorem State.setCore_units (s : State) (k : Nat) (x : Core) : (s.setCore k x).units = s.units := rfl
@[simp] theorem State.setCore_steals (s : State) (k : Nat) (x : Core) : (s.setCore k x).steals = s.steals := rfl
@[simp] theorem State.setCore_gangs (s : State) (k : Nat) (x : Core) : (s.setCore k x).gangs = s.gangs := rfl
@[simp] theorem State.setCore_overflow (s : State) (k : Nat) (x : Core) : (s.setCore k x).overflow = s.overflow := rfl
@[simp] theorem State.setCore_parts (s : State) (k : Nat) (x : Core) : (s.setCore k x).parts = s.parts := rfl
@[simp] theorem State.setCore_vfs (s : State) (k : Nat) (x : Core) : (s.setCore k x).vfs = s.vfs := rfl
@[simp] theorem State.setCore_strayBells (s : State) (k : Nat) (x : Core) : (s.setCore k x).strayBells = s.strayBells := rfl
@[simp] theorem State.setCore_devstate (s : State) (k : Nat) (x : Core) : (s.setCore k x).devstate = s.devstate := rfl
@[simp] theorem State.setCore_dieok (s : State) (k : Nat) (x : Core) : (s.setCore k x).dieok = s.dieok := rfl
@[simp] theorem State.setCore_mfst (s : State) (k : Nat) (x : Core) : (s.setCore k x).mfst = s.mfst := rfl
@[simp] theorem State.setCore_harvest (s : State) (k : Nat) (x : Core) : (s.setCore k x).harvest = s.harvest := rfl
@[simp] theorem State.setCore_links (s : State) (k : Nat) (x : Core) : (s.setCore k x).links = s.links := rfl
@[simp] theorem State.setCore_reducedMap (s : State) (k : Nat) (x : Core) : (s.setCore k x).reducedMap = s.reducedMap := rfl
@[simp] theorem State.setCore_starts (s : State) (k : Nat) (x : Core) : (s.setCore k x).starts = s.starts := rfl

/-! ## State.setGroup -/

@[simp] theorem State.setGroup_turns (s : State) (k i : Nat) (g : Group) : (s.setGroup k i g).turns = s.turns := rfl
@[simp] theorem State.setGroup_tick (s : State) (k i : Nat) (g : Group) : (s.setGroup k i g).tick = s.tick := rfl
@[simp] theorem State.setGroup_curCore (s : State) (k i : Nat) (g : Group) : (s.setGroup k i g).curCore = s.curCore := rfl
@[simp] theorem State.setGroup_curSlot (s : State) (k i : Nat) (g : Group) : (s.setGroup k i g).curSlot = s.curSlot := rfl
@[simp] theorem State.setGroup_curElem (s : State) (k i : Nat) (g : Group) : (s.setGroup k i g).curElem = s.curElem := rfl
@[simp] theorem State.setGroup_curElemSlot (s : State) (k i : Nat) (g : Group) : (s.setGroup k i g).curElemSlot = s.curElemSlot := rfl
@[simp] theorem State.setGroup_stalled (s : State) (k i : Nat) (g : Group) : (s.setGroup k i g).stalled = s.stalled := rfl
@[simp] theorem State.setGroup_mem (s : State) (k i : Nat) (g : Group) : (s.setGroup k i g).mem = s.mem := rfl
@[simp] theorem State.setGroup_dir (s : State) (k i : Nat) (g : Group) : (s.setGroup k i g).dir = s.dir := rfl
@[simp] theorem State.setGroup_poisoned (s : State) (k i : Nat) (g : Group) : (s.setGroup k i g).poisoned = s.poisoned := rfl
@[simp] theorem State.setGroup_notices (s : State) (k i : Nat) (g : Group) : (s.setGroup k i g).notices = s.notices := rfl
@[simp] theorem State.setGroup_writes (s : State) (k i : Nat) (g : Group) : (s.setGroup k i g).writes = s.writes := rfl
@[simp] theorem State.setGroup_hubq (s : State) (k i : Nat) (g : Group) : (s.setGroup k i g).hubq = s.hubq := rfl
@[simp] theorem State.setGroup_tlb (s : State) (k i : Nat) (g : Group) : (s.setGroup k i g).tlb = s.tlb := rfl
@[simp] theorem State.setGroup_walks (s : State) (k i : Nat) (g : Group) : (s.setGroup k i g).walks = s.walks := rfl
@[simp] theorem State.setGroup_drains (s : State) (k i : Nat) (g : Group) : (s.setGroup k i g).drains = s.drains := rfl
@[simp] theorem State.setGroup_retention (s : State) (k i : Nat) (g : Group) : (s.setGroup k i g).retention = s.retention := rfl
@[simp] theorem State.setGroup_corrected (s : State) (k i : Nat) (g : Group) : (s.setGroup k i g).corrected = s.corrected := rfl
@[simp] theorem State.setGroup_queues (s : State) (k i : Nat) (g : Group) : (s.setGroup k i g).queues = s.queues := rfl
@[simp] theorem State.setGroup_commands (s : State) (k i : Nat) (g : Group) : (s.setGroup k i g).commands = s.commands := rfl
@[simp] theorem State.setGroup_nextCmd (s : State) (k i : Nat) (g : Group) : (s.setGroup k i g).nextCmd = s.nextCmd := rfl
@[simp] theorem State.setGroup_rr (s : State) (k i : Nat) (g : Group) : (s.setGroup k i g).rr = s.rr := rfl
@[simp] theorem State.setGroup_jhead (s : State) (k i : Nat) (g : Group) : (s.setGroup k i g).jhead = s.jhead := rfl
@[simp] theorem State.setGroup_jbase (s : State) (k i : Nat) (g : Group) : (s.setGroup k i g).jbase = s.jbase := rfl
@[simp] theorem State.setGroup_units (s : State) (k i : Nat) (g : Group) : (s.setGroup k i g).units = s.units := rfl
@[simp] theorem State.setGroup_steals (s : State) (k i : Nat) (g : Group) : (s.setGroup k i g).steals = s.steals := rfl
@[simp] theorem State.setGroup_gangs (s : State) (k i : Nat) (g : Group) : (s.setGroup k i g).gangs = s.gangs := rfl
@[simp] theorem State.setGroup_overflow (s : State) (k i : Nat) (g : Group) : (s.setGroup k i g).overflow = s.overflow := rfl
@[simp] theorem State.setGroup_parts (s : State) (k i : Nat) (g : Group) : (s.setGroup k i g).parts = s.parts := rfl
@[simp] theorem State.setGroup_vfs (s : State) (k i : Nat) (g : Group) : (s.setGroup k i g).vfs = s.vfs := rfl
@[simp] theorem State.setGroup_strayBells (s : State) (k i : Nat) (g : Group) : (s.setGroup k i g).strayBells = s.strayBells := rfl
@[simp] theorem State.setGroup_devstate (s : State) (k i : Nat) (g : Group) : (s.setGroup k i g).devstate = s.devstate := rfl
@[simp] theorem State.setGroup_dieok (s : State) (k i : Nat) (g : Group) : (s.setGroup k i g).dieok = s.dieok := rfl
@[simp] theorem State.setGroup_mfst (s : State) (k i : Nat) (g : Group) : (s.setGroup k i g).mfst = s.mfst := rfl
@[simp] theorem State.setGroup_harvest (s : State) (k i : Nat) (g : Group) : (s.setGroup k i g).harvest = s.harvest := rfl
@[simp] theorem State.setGroup_links (s : State) (k i : Nat) (g : Group) : (s.setGroup k i g).links = s.links := rfl
@[simp] theorem State.setGroup_reducedMap (s : State) (k i : Nat) (g : Group) : (s.setGroup k i g).reducedMap = s.reducedMap := rfl
@[simp] theorem State.setGroup_starts (s : State) (k i : Nat) (g : Group) : (s.setGroup k i g).starts = s.starts := rfl

/-! ## State.setBlock -/

@[simp] theorem State.setBlock_turns (s : State) (k i : Nat) (b : Block) : (s.setBlock k i b).turns = s.turns := rfl
@[simp] theorem State.setBlock_tick (s : State) (k i : Nat) (b : Block) : (s.setBlock k i b).tick = s.tick := rfl
@[simp] theorem State.setBlock_curCore (s : State) (k i : Nat) (b : Block) : (s.setBlock k i b).curCore = s.curCore := rfl
@[simp] theorem State.setBlock_curSlot (s : State) (k i : Nat) (b : Block) : (s.setBlock k i b).curSlot = s.curSlot := rfl
@[simp] theorem State.setBlock_curElem (s : State) (k i : Nat) (b : Block) : (s.setBlock k i b).curElem = s.curElem := rfl
@[simp] theorem State.setBlock_curElemSlot (s : State) (k i : Nat) (b : Block) : (s.setBlock k i b).curElemSlot = s.curElemSlot := rfl
@[simp] theorem State.setBlock_stalled (s : State) (k i : Nat) (b : Block) : (s.setBlock k i b).stalled = s.stalled := rfl
@[simp] theorem State.setBlock_mem (s : State) (k i : Nat) (b : Block) : (s.setBlock k i b).mem = s.mem := rfl
@[simp] theorem State.setBlock_dir (s : State) (k i : Nat) (b : Block) : (s.setBlock k i b).dir = s.dir := rfl
@[simp] theorem State.setBlock_poisoned (s : State) (k i : Nat) (b : Block) : (s.setBlock k i b).poisoned = s.poisoned := rfl
@[simp] theorem State.setBlock_notices (s : State) (k i : Nat) (b : Block) : (s.setBlock k i b).notices = s.notices := rfl
@[simp] theorem State.setBlock_writes (s : State) (k i : Nat) (b : Block) : (s.setBlock k i b).writes = s.writes := rfl
@[simp] theorem State.setBlock_hubq (s : State) (k i : Nat) (b : Block) : (s.setBlock k i b).hubq = s.hubq := rfl
@[simp] theorem State.setBlock_tlb (s : State) (k i : Nat) (b : Block) : (s.setBlock k i b).tlb = s.tlb := rfl
@[simp] theorem State.setBlock_walks (s : State) (k i : Nat) (b : Block) : (s.setBlock k i b).walks = s.walks := rfl
@[simp] theorem State.setBlock_drains (s : State) (k i : Nat) (b : Block) : (s.setBlock k i b).drains = s.drains := rfl
@[simp] theorem State.setBlock_retention (s : State) (k i : Nat) (b : Block) : (s.setBlock k i b).retention = s.retention := rfl
@[simp] theorem State.setBlock_corrected (s : State) (k i : Nat) (b : Block) : (s.setBlock k i b).corrected = s.corrected := rfl
@[simp] theorem State.setBlock_queues (s : State) (k i : Nat) (b : Block) : (s.setBlock k i b).queues = s.queues := rfl
@[simp] theorem State.setBlock_commands (s : State) (k i : Nat) (b : Block) : (s.setBlock k i b).commands = s.commands := rfl
@[simp] theorem State.setBlock_nextCmd (s : State) (k i : Nat) (b : Block) : (s.setBlock k i b).nextCmd = s.nextCmd := rfl
@[simp] theorem State.setBlock_rr (s : State) (k i : Nat) (b : Block) : (s.setBlock k i b).rr = s.rr := rfl
@[simp] theorem State.setBlock_jhead (s : State) (k i : Nat) (b : Block) : (s.setBlock k i b).jhead = s.jhead := rfl
@[simp] theorem State.setBlock_jbase (s : State) (k i : Nat) (b : Block) : (s.setBlock k i b).jbase = s.jbase := rfl
@[simp] theorem State.setBlock_units (s : State) (k i : Nat) (b : Block) : (s.setBlock k i b).units = s.units := rfl
@[simp] theorem State.setBlock_steals (s : State) (k i : Nat) (b : Block) : (s.setBlock k i b).steals = s.steals := rfl
@[simp] theorem State.setBlock_gangs (s : State) (k i : Nat) (b : Block) : (s.setBlock k i b).gangs = s.gangs := rfl
@[simp] theorem State.setBlock_overflow (s : State) (k i : Nat) (b : Block) : (s.setBlock k i b).overflow = s.overflow := rfl
@[simp] theorem State.setBlock_parts (s : State) (k i : Nat) (b : Block) : (s.setBlock k i b).parts = s.parts := rfl
@[simp] theorem State.setBlock_vfs (s : State) (k i : Nat) (b : Block) : (s.setBlock k i b).vfs = s.vfs := rfl
@[simp] theorem State.setBlock_strayBells (s : State) (k i : Nat) (b : Block) : (s.setBlock k i b).strayBells = s.strayBells := rfl
@[simp] theorem State.setBlock_devstate (s : State) (k i : Nat) (b : Block) : (s.setBlock k i b).devstate = s.devstate := rfl
@[simp] theorem State.setBlock_dieok (s : State) (k i : Nat) (b : Block) : (s.setBlock k i b).dieok = s.dieok := rfl
@[simp] theorem State.setBlock_mfst (s : State) (k i : Nat) (b : Block) : (s.setBlock k i b).mfst = s.mfst := rfl
@[simp] theorem State.setBlock_harvest (s : State) (k i : Nat) (b : Block) : (s.setBlock k i b).harvest = s.harvest := rfl
@[simp] theorem State.setBlock_links (s : State) (k i : Nat) (b : Block) : (s.setBlock k i b).links = s.links := rfl
@[simp] theorem State.setBlock_reducedMap (s : State) (k i : Nat) (b : Block) : (s.setBlock k i b).reducedMap = s.reducedMap := rfl
@[simp] theorem State.setBlock_starts (s : State) (k i : Nat) (b : Block) : (s.setBlock k i b).starts = s.starts := rfl

/-! ## State.setPart -/

@[simp] theorem State.setPart_turns (s : State) (p : Nat) (x : Partition) : (s.setPart p x).turns = s.turns := rfl
@[simp] theorem State.setPart_tick (s : State) (p : Nat) (x : Partition) : (s.setPart p x).tick = s.tick := rfl
@[simp] theorem State.setPart_curCore (s : State) (p : Nat) (x : Partition) : (s.setPart p x).curCore = s.curCore := rfl
@[simp] theorem State.setPart_curSlot (s : State) (p : Nat) (x : Partition) : (s.setPart p x).curSlot = s.curSlot := rfl
@[simp] theorem State.setPart_curElem (s : State) (p : Nat) (x : Partition) : (s.setPart p x).curElem = s.curElem := rfl
@[simp] theorem State.setPart_curElemSlot (s : State) (p : Nat) (x : Partition) : (s.setPart p x).curElemSlot = s.curElemSlot := rfl
@[simp] theorem State.setPart_stalled (s : State) (p : Nat) (x : Partition) : (s.setPart p x).stalled = s.stalled := rfl
@[simp] theorem State.setPart_cores (s : State) (p : Nat) (x : Partition) : (s.setPart p x).cores = s.cores := rfl
@[simp] theorem State.setPart_mem (s : State) (p : Nat) (x : Partition) : (s.setPart p x).mem = s.mem := rfl
@[simp] theorem State.setPart_dir (s : State) (p : Nat) (x : Partition) : (s.setPart p x).dir = s.dir := rfl
@[simp] theorem State.setPart_poisoned (s : State) (p : Nat) (x : Partition) : (s.setPart p x).poisoned = s.poisoned := rfl
@[simp] theorem State.setPart_notices (s : State) (p : Nat) (x : Partition) : (s.setPart p x).notices = s.notices := rfl
@[simp] theorem State.setPart_writes (s : State) (p : Nat) (x : Partition) : (s.setPart p x).writes = s.writes := rfl
@[simp] theorem State.setPart_hubq (s : State) (p : Nat) (x : Partition) : (s.setPart p x).hubq = s.hubq := rfl
@[simp] theorem State.setPart_tlb (s : State) (p : Nat) (x : Partition) : (s.setPart p x).tlb = s.tlb := rfl
@[simp] theorem State.setPart_walks (s : State) (p : Nat) (x : Partition) : (s.setPart p x).walks = s.walks := rfl
@[simp] theorem State.setPart_drains (s : State) (p : Nat) (x : Partition) : (s.setPart p x).drains = s.drains := rfl
@[simp] theorem State.setPart_retention (s : State) (p : Nat) (x : Partition) : (s.setPart p x).retention = s.retention := rfl
@[simp] theorem State.setPart_corrected (s : State) (p : Nat) (x : Partition) : (s.setPart p x).corrected = s.corrected := rfl
@[simp] theorem State.setPart_queues (s : State) (p : Nat) (x : Partition) : (s.setPart p x).queues = s.queues := rfl
@[simp] theorem State.setPart_commands (s : State) (p : Nat) (x : Partition) : (s.setPart p x).commands = s.commands := rfl
@[simp] theorem State.setPart_nextCmd (s : State) (p : Nat) (x : Partition) : (s.setPart p x).nextCmd = s.nextCmd := rfl
@[simp] theorem State.setPart_rr (s : State) (p : Nat) (x : Partition) : (s.setPart p x).rr = s.rr := rfl
@[simp] theorem State.setPart_jhead (s : State) (p : Nat) (x : Partition) : (s.setPart p x).jhead = s.jhead := rfl
@[simp] theorem State.setPart_jbase (s : State) (p : Nat) (x : Partition) : (s.setPart p x).jbase = s.jbase := rfl
@[simp] theorem State.setPart_units (s : State) (p : Nat) (x : Partition) : (s.setPart p x).units = s.units := rfl
@[simp] theorem State.setPart_steals (s : State) (p : Nat) (x : Partition) : (s.setPart p x).steals = s.steals := rfl
@[simp] theorem State.setPart_gangs (s : State) (p : Nat) (x : Partition) : (s.setPart p x).gangs = s.gangs := rfl
@[simp] theorem State.setPart_overflow (s : State) (p : Nat) (x : Partition) : (s.setPart p x).overflow = s.overflow := rfl
@[simp] theorem State.setPart_vfs (s : State) (p : Nat) (x : Partition) : (s.setPart p x).vfs = s.vfs := rfl
@[simp] theorem State.setPart_strayBells (s : State) (p : Nat) (x : Partition) : (s.setPart p x).strayBells = s.strayBells := rfl
@[simp] theorem State.setPart_devstate (s : State) (p : Nat) (x : Partition) : (s.setPart p x).devstate = s.devstate := rfl
@[simp] theorem State.setPart_dieok (s : State) (p : Nat) (x : Partition) : (s.setPart p x).dieok = s.dieok := rfl
@[simp] theorem State.setPart_mfst (s : State) (p : Nat) (x : Partition) : (s.setPart p x).mfst = s.mfst := rfl
@[simp] theorem State.setPart_harvest (s : State) (p : Nat) (x : Partition) : (s.setPart p x).harvest = s.harvest := rfl
@[simp] theorem State.setPart_links (s : State) (p : Nat) (x : Partition) : (s.setPart p x).links = s.links := rfl
@[simp] theorem State.setPart_reducedMap (s : State) (p : Nat) (x : Partition) : (s.setPart p x).reducedMap = s.reducedMap := rfl
@[simp] theorem State.setPart_starts (s : State) (p : Nat) (x : Partition) : (s.setPart p x).starts = s.starts := rfl

/-! ## State.setQueue -/

@[simp] theorem State.setQueue_turns (s : State) (q : Nat) (x : Queue) : (s.setQueue q x).turns = s.turns := rfl
@[simp] theorem State.setQueue_tick (s : State) (q : Nat) (x : Queue) : (s.setQueue q x).tick = s.tick := rfl
@[simp] theorem State.setQueue_curCore (s : State) (q : Nat) (x : Queue) : (s.setQueue q x).curCore = s.curCore := rfl
@[simp] theorem State.setQueue_curSlot (s : State) (q : Nat) (x : Queue) : (s.setQueue q x).curSlot = s.curSlot := rfl
@[simp] theorem State.setQueue_curElem (s : State) (q : Nat) (x : Queue) : (s.setQueue q x).curElem = s.curElem := rfl
@[simp] theorem State.setQueue_curElemSlot (s : State) (q : Nat) (x : Queue) : (s.setQueue q x).curElemSlot = s.curElemSlot := rfl
@[simp] theorem State.setQueue_stalled (s : State) (q : Nat) (x : Queue) : (s.setQueue q x).stalled = s.stalled := rfl
@[simp] theorem State.setQueue_cores (s : State) (q : Nat) (x : Queue) : (s.setQueue q x).cores = s.cores := rfl
@[simp] theorem State.setQueue_mem (s : State) (q : Nat) (x : Queue) : (s.setQueue q x).mem = s.mem := rfl
@[simp] theorem State.setQueue_dir (s : State) (q : Nat) (x : Queue) : (s.setQueue q x).dir = s.dir := rfl
@[simp] theorem State.setQueue_poisoned (s : State) (q : Nat) (x : Queue) : (s.setQueue q x).poisoned = s.poisoned := rfl
@[simp] theorem State.setQueue_notices (s : State) (q : Nat) (x : Queue) : (s.setQueue q x).notices = s.notices := rfl
@[simp] theorem State.setQueue_writes (s : State) (q : Nat) (x : Queue) : (s.setQueue q x).writes = s.writes := rfl
@[simp] theorem State.setQueue_hubq (s : State) (q : Nat) (x : Queue) : (s.setQueue q x).hubq = s.hubq := rfl
@[simp] theorem State.setQueue_tlb (s : State) (q : Nat) (x : Queue) : (s.setQueue q x).tlb = s.tlb := rfl
@[simp] theorem State.setQueue_walks (s : State) (q : Nat) (x : Queue) : (s.setQueue q x).walks = s.walks := rfl
@[simp] theorem State.setQueue_drains (s : State) (q : Nat) (x : Queue) : (s.setQueue q x).drains = s.drains := rfl
@[simp] theorem State.setQueue_retention (s : State) (q : Nat) (x : Queue) : (s.setQueue q x).retention = s.retention := rfl
@[simp] theorem State.setQueue_corrected (s : State) (q : Nat) (x : Queue) : (s.setQueue q x).corrected = s.corrected := rfl
@[simp] theorem State.setQueue_commands (s : State) (q : Nat) (x : Queue) : (s.setQueue q x).commands = s.commands := rfl
@[simp] theorem State.setQueue_nextCmd (s : State) (q : Nat) (x : Queue) : (s.setQueue q x).nextCmd = s.nextCmd := rfl
@[simp] theorem State.setQueue_rr (s : State) (q : Nat) (x : Queue) : (s.setQueue q x).rr = s.rr := rfl
@[simp] theorem State.setQueue_jhead (s : State) (q : Nat) (x : Queue) : (s.setQueue q x).jhead = s.jhead := rfl
@[simp] theorem State.setQueue_jbase (s : State) (q : Nat) (x : Queue) : (s.setQueue q x).jbase = s.jbase := rfl
@[simp] theorem State.setQueue_units (s : State) (q : Nat) (x : Queue) : (s.setQueue q x).units = s.units := rfl
@[simp] theorem State.setQueue_steals (s : State) (q : Nat) (x : Queue) : (s.setQueue q x).steals = s.steals := rfl
@[simp] theorem State.setQueue_gangs (s : State) (q : Nat) (x : Queue) : (s.setQueue q x).gangs = s.gangs := rfl
@[simp] theorem State.setQueue_overflow (s : State) (q : Nat) (x : Queue) : (s.setQueue q x).overflow = s.overflow := rfl
@[simp] theorem State.setQueue_parts (s : State) (q : Nat) (x : Queue) : (s.setQueue q x).parts = s.parts := rfl
@[simp] theorem State.setQueue_vfs (s : State) (q : Nat) (x : Queue) : (s.setQueue q x).vfs = s.vfs := rfl
@[simp] theorem State.setQueue_strayBells (s : State) (q : Nat) (x : Queue) : (s.setQueue q x).strayBells = s.strayBells := rfl
@[simp] theorem State.setQueue_devstate (s : State) (q : Nat) (x : Queue) : (s.setQueue q x).devstate = s.devstate := rfl
@[simp] theorem State.setQueue_dieok (s : State) (q : Nat) (x : Queue) : (s.setQueue q x).dieok = s.dieok := rfl
@[simp] theorem State.setQueue_mfst (s : State) (q : Nat) (x : Queue) : (s.setQueue q x).mfst = s.mfst := rfl
@[simp] theorem State.setQueue_harvest (s : State) (q : Nat) (x : Queue) : (s.setQueue q x).harvest = s.harvest := rfl
@[simp] theorem State.setQueue_links (s : State) (q : Nat) (x : Queue) : (s.setQueue q x).links = s.links := rfl
@[simp] theorem State.setQueue_reducedMap (s : State) (q : Nat) (x : Queue) : (s.setQueue q x).reducedMap = s.reducedMap := rfl
@[simp] theorem State.setQueue_starts (s : State) (q : Nat) (x : Queue) : (s.setQueue q x).starts = s.starts := rfl

/-! ## State.setCommand -/

@[simp] theorem State.setCommand_turns (s : State) (n : Nat) (x : Command) : (s.setCommand n x).turns = s.turns := rfl
@[simp] theorem State.setCommand_tick (s : State) (n : Nat) (x : Command) : (s.setCommand n x).tick = s.tick := rfl
@[simp] theorem State.setCommand_curCore (s : State) (n : Nat) (x : Command) : (s.setCommand n x).curCore = s.curCore := rfl
@[simp] theorem State.setCommand_curSlot (s : State) (n : Nat) (x : Command) : (s.setCommand n x).curSlot = s.curSlot := rfl
@[simp] theorem State.setCommand_curElem (s : State) (n : Nat) (x : Command) : (s.setCommand n x).curElem = s.curElem := rfl
@[simp] theorem State.setCommand_curElemSlot (s : State) (n : Nat) (x : Command) : (s.setCommand n x).curElemSlot = s.curElemSlot := rfl
@[simp] theorem State.setCommand_stalled (s : State) (n : Nat) (x : Command) : (s.setCommand n x).stalled = s.stalled := rfl
@[simp] theorem State.setCommand_cores (s : State) (n : Nat) (x : Command) : (s.setCommand n x).cores = s.cores := rfl
@[simp] theorem State.setCommand_mem (s : State) (n : Nat) (x : Command) : (s.setCommand n x).mem = s.mem := rfl
@[simp] theorem State.setCommand_dir (s : State) (n : Nat) (x : Command) : (s.setCommand n x).dir = s.dir := rfl
@[simp] theorem State.setCommand_poisoned (s : State) (n : Nat) (x : Command) : (s.setCommand n x).poisoned = s.poisoned := rfl
@[simp] theorem State.setCommand_notices (s : State) (n : Nat) (x : Command) : (s.setCommand n x).notices = s.notices := rfl
@[simp] theorem State.setCommand_writes (s : State) (n : Nat) (x : Command) : (s.setCommand n x).writes = s.writes := rfl
@[simp] theorem State.setCommand_hubq (s : State) (n : Nat) (x : Command) : (s.setCommand n x).hubq = s.hubq := rfl
@[simp] theorem State.setCommand_tlb (s : State) (n : Nat) (x : Command) : (s.setCommand n x).tlb = s.tlb := rfl
@[simp] theorem State.setCommand_walks (s : State) (n : Nat) (x : Command) : (s.setCommand n x).walks = s.walks := rfl
@[simp] theorem State.setCommand_drains (s : State) (n : Nat) (x : Command) : (s.setCommand n x).drains = s.drains := rfl
@[simp] theorem State.setCommand_retention (s : State) (n : Nat) (x : Command) : (s.setCommand n x).retention = s.retention := rfl
@[simp] theorem State.setCommand_corrected (s : State) (n : Nat) (x : Command) : (s.setCommand n x).corrected = s.corrected := rfl
@[simp] theorem State.setCommand_queues (s : State) (n : Nat) (x : Command) : (s.setCommand n x).queues = s.queues := rfl
@[simp] theorem State.setCommand_nextCmd (s : State) (n : Nat) (x : Command) : (s.setCommand n x).nextCmd = s.nextCmd := rfl
@[simp] theorem State.setCommand_rr (s : State) (n : Nat) (x : Command) : (s.setCommand n x).rr = s.rr := rfl
@[simp] theorem State.setCommand_jhead (s : State) (n : Nat) (x : Command) : (s.setCommand n x).jhead = s.jhead := rfl
@[simp] theorem State.setCommand_jbase (s : State) (n : Nat) (x : Command) : (s.setCommand n x).jbase = s.jbase := rfl
@[simp] theorem State.setCommand_units (s : State) (n : Nat) (x : Command) : (s.setCommand n x).units = s.units := rfl
@[simp] theorem State.setCommand_steals (s : State) (n : Nat) (x : Command) : (s.setCommand n x).steals = s.steals := rfl
@[simp] theorem State.setCommand_gangs (s : State) (n : Nat) (x : Command) : (s.setCommand n x).gangs = s.gangs := rfl
@[simp] theorem State.setCommand_overflow (s : State) (n : Nat) (x : Command) : (s.setCommand n x).overflow = s.overflow := rfl
@[simp] theorem State.setCommand_parts (s : State) (n : Nat) (x : Command) : (s.setCommand n x).parts = s.parts := rfl
@[simp] theorem State.setCommand_vfs (s : State) (n : Nat) (x : Command) : (s.setCommand n x).vfs = s.vfs := rfl
@[simp] theorem State.setCommand_strayBells (s : State) (n : Nat) (x : Command) : (s.setCommand n x).strayBells = s.strayBells := rfl
@[simp] theorem State.setCommand_devstate (s : State) (n : Nat) (x : Command) : (s.setCommand n x).devstate = s.devstate := rfl
@[simp] theorem State.setCommand_dieok (s : State) (n : Nat) (x : Command) : (s.setCommand n x).dieok = s.dieok := rfl
@[simp] theorem State.setCommand_mfst (s : State) (n : Nat) (x : Command) : (s.setCommand n x).mfst = s.mfst := rfl
@[simp] theorem State.setCommand_harvest (s : State) (n : Nat) (x : Command) : (s.setCommand n x).harvest = s.harvest := rfl
@[simp] theorem State.setCommand_links (s : State) (n : Nat) (x : Command) : (s.setCommand n x).links = s.links := rfl
@[simp] theorem State.setCommand_reducedMap (s : State) (n : Nat) (x : Command) : (s.setCommand n x).reducedMap = s.reducedMap := rfl
@[simp] theorem State.setCommand_starts (s : State) (n : Nat) (x : Command) : (s.setCommand n x).starts = s.starts := rfl

/-! ## State.wr -/

@[simp] theorem State.wr_turns (s : State) (a n v : Nat) : (s.wr a n v).turns = s.turns := rfl
@[simp] theorem State.wr_tick (s : State) (a n v : Nat) : (s.wr a n v).tick = s.tick := rfl
@[simp] theorem State.wr_curCore (s : State) (a n v : Nat) : (s.wr a n v).curCore = s.curCore := rfl
@[simp] theorem State.wr_curSlot (s : State) (a n v : Nat) : (s.wr a n v).curSlot = s.curSlot := rfl
@[simp] theorem State.wr_curElem (s : State) (a n v : Nat) : (s.wr a n v).curElem = s.curElem := rfl
@[simp] theorem State.wr_curElemSlot (s : State) (a n v : Nat) : (s.wr a n v).curElemSlot = s.curElemSlot := rfl
@[simp] theorem State.wr_stalled (s : State) (a n v : Nat) : (s.wr a n v).stalled = s.stalled := rfl
@[simp] theorem State.wr_cores (s : State) (a n v : Nat) : (s.wr a n v).cores = s.cores := rfl
@[simp] theorem State.wr_dir (s : State) (a n v : Nat) : (s.wr a n v).dir = s.dir := rfl
@[simp] theorem State.wr_poisoned (s : State) (a n v : Nat) : (s.wr a n v).poisoned = s.poisoned := rfl
@[simp] theorem State.wr_notices (s : State) (a n v : Nat) : (s.wr a n v).notices = s.notices := rfl
@[simp] theorem State.wr_writes (s : State) (a n v : Nat) : (s.wr a n v).writes = s.writes := rfl
@[simp] theorem State.wr_hubq (s : State) (a n v : Nat) : (s.wr a n v).hubq = s.hubq := rfl
@[simp] theorem State.wr_tlb (s : State) (a n v : Nat) : (s.wr a n v).tlb = s.tlb := rfl
@[simp] theorem State.wr_walks (s : State) (a n v : Nat) : (s.wr a n v).walks = s.walks := rfl
@[simp] theorem State.wr_drains (s : State) (a n v : Nat) : (s.wr a n v).drains = s.drains := rfl
@[simp] theorem State.wr_retention (s : State) (a n v : Nat) : (s.wr a n v).retention = s.retention := rfl
@[simp] theorem State.wr_corrected (s : State) (a n v : Nat) : (s.wr a n v).corrected = s.corrected := rfl
@[simp] theorem State.wr_queues (s : State) (a n v : Nat) : (s.wr a n v).queues = s.queues := rfl
@[simp] theorem State.wr_commands (s : State) (a n v : Nat) : (s.wr a n v).commands = s.commands := rfl
@[simp] theorem State.wr_nextCmd (s : State) (a n v : Nat) : (s.wr a n v).nextCmd = s.nextCmd := rfl
@[simp] theorem State.wr_rr (s : State) (a n v : Nat) : (s.wr a n v).rr = s.rr := rfl
@[simp] theorem State.wr_jhead (s : State) (a n v : Nat) : (s.wr a n v).jhead = s.jhead := rfl
@[simp] theorem State.wr_jbase (s : State) (a n v : Nat) : (s.wr a n v).jbase = s.jbase := rfl
@[simp] theorem State.wr_units (s : State) (a n v : Nat) : (s.wr a n v).units = s.units := rfl
@[simp] theorem State.wr_steals (s : State) (a n v : Nat) : (s.wr a n v).steals = s.steals := rfl
@[simp] theorem State.wr_gangs (s : State) (a n v : Nat) : (s.wr a n v).gangs = s.gangs := rfl
@[simp] theorem State.wr_overflow (s : State) (a n v : Nat) : (s.wr a n v).overflow = s.overflow := rfl
@[simp] theorem State.wr_parts (s : State) (a n v : Nat) : (s.wr a n v).parts = s.parts := rfl
@[simp] theorem State.wr_vfs (s : State) (a n v : Nat) : (s.wr a n v).vfs = s.vfs := rfl
@[simp] theorem State.wr_strayBells (s : State) (a n v : Nat) : (s.wr a n v).strayBells = s.strayBells := rfl
@[simp] theorem State.wr_devstate (s : State) (a n v : Nat) : (s.wr a n v).devstate = s.devstate := rfl
@[simp] theorem State.wr_dieok (s : State) (a n v : Nat) : (s.wr a n v).dieok = s.dieok := rfl
@[simp] theorem State.wr_mfst (s : State) (a n v : Nat) : (s.wr a n v).mfst = s.mfst := rfl
@[simp] theorem State.wr_harvest (s : State) (a n v : Nat) : (s.wr a n v).harvest = s.harvest := rfl
@[simp] theorem State.wr_links (s : State) (a n v : Nat) : (s.wr a n v).links = s.links := rfl
@[simp] theorem State.wr_reducedMap (s : State) (a n v : Nat) : (s.wr a n v).reducedMap = s.reducedMap := rfl
@[simp] theorem State.wr_starts (s : State) (a n v : Nat) : (s.wr a n v).starts = s.starts := rfl

/-! ## Core.setGroup -/

@[simp] theorem Core.setGroup_blocks (c : Core) (i : Nat) (g : Group) : (c.setGroup i g).blocks = c.blocks := rfl
@[simp] theorem Core.setGroup_scratch (c : Core) (i : Nat) (g : Group) : (c.setGroup i g).scratch = c.scratch := rfl
@[simp] theorem Core.setGroup_laneMem (c : Core) (i : Nat) (g : Group) : (c.setGroup i g).laneMem = c.laneMem := rfl
@[simp] theorem Core.setGroup_opbuf (c : Core) (i : Nat) (g : Group) : (c.setGroup i g).opbuf = c.opbuf := rfl
@[simp] theorem Core.setGroup_acc (c : Core) (i : Nat) (g : Group) : (c.setGroup i g).acc = c.acc := rfl
@[simp] theorem Core.setGroup_l1kib (c : Core) (i : Nat) (g : Group) : (c.setGroup i g).l1kib = c.l1kib := rfl
@[simp] theorem Core.setGroup_gen (c : Core) (i : Nat) (g : Group) : (c.setGroup i g).gen = c.gen := rfl
@[simp] theorem Core.setGroup_lastLeft (c : Core) (i : Nat) (g : Group) : (c.setGroup i g).lastLeft = c.lastLeft := rfl
@[simp] theorem Core.setGroup_cycles (c : Core) (i : Nat) (g : Group) : (c.setGroup i g).cycles = c.cycles := rfl
@[simp] theorem Core.setGroup_coreFaults (c : Core) (i : Nat) (g : Group) : (c.setGroup i g).coreFaults = c.coreFaults := rfl
@[simp] theorem Core.setGroup_budget (c : Core) (i : Nat) (g : Group) : (c.setGroup i g).budget = c.budget := rfl
@[simp] theorem Core.setGroup_bars (c : Core) (i : Nat) (g : Group) : (c.setGroup i g).bars = c.bars := rfl
@[simp] theorem Core.setGroup_windows (c : Core) (i : Nat) (g : Group) : (c.setGroup i g).windows = c.windows := rfl
@[simp] theorem Core.setGroup_marks (c : Core) (i : Nat) (g : Group) : (c.setGroup i g).marks = c.marks := rfl
@[simp] theorem Core.setGroup_resv (c : Core) (i : Nat) (g : Group) : (c.setGroup i g).resv = c.resv := rfl
@[simp] theorem Core.setGroup_claims (c : Core) (i : Nat) (g : Group) : (c.setGroup i g).claims = c.claims := rfl
@[simp] theorem Core.setGroup_matq (c : Core) (i : Nat) (g : Group) : (c.setGroup i g).matq = c.matq := rfl
@[simp] theorem Core.setGroup_drain (c : Core) (i : Nat) (g : Group) : (c.setGroup i g).drain = c.drain := rfl
@[simp] theorem Core.setGroup_copyq (c : Core) (i : Nat) (g : Group) : (c.setGroup i g).copyq = c.copyq := rfl
@[simp] theorem Core.setGroup_tileq (c : Core) (i : Nat) (g : Group) : (c.setGroup i g).tileq = c.tileq := rfl
@[simp] theorem Core.setGroup_dests (c : Core) (i : Nat) (g : Group) : (c.setGroup i g).dests = c.dests := rfl
@[simp] theorem Core.setGroup_requests (c : Core) (i : Nat) (g : Group) : (c.setGroup i g).requests = c.requests := rfl
@[simp] theorem Core.setGroup_cache (c : Core) (i : Nat) (g : Group) : (c.setGroup i g).cache = c.cache := rfl
@[simp] theorem Core.setGroup_placerq (c : Core) (i : Nat) (g : Group) : (c.setGroup i g).placerq = c.placerq := rfl
@[simp] theorem Core.setGroup_elems (c : Core) (i : Nat) (g : Group) : (c.setGroup i g).elems = c.elems := rfl
@[simp] theorem Core.setGroup_placed (c : Core) (i : Nat) (g : Group) : (c.setGroup i g).placed = c.placed := rfl
@[simp] theorem Core.setGroup_hops (c : Core) (i : Nat) (g : Group) : (c.setGroup i g).hops = c.hops := rfl
@[simp] theorem Core.setGroup_probes (c : Core) (i : Nat) (g : Group) : (c.setGroup i g).probes = c.probes := rfl
@[simp] theorem Core.setGroup_deadlock (c : Core) (i : Nat) (g : Group) : (c.setGroup i g).deadlock = c.deadlock := rfl
@[simp] theorem Core.setGroup_pmc (c : Core) (i : Nat) (g : Group) : (c.setGroup i g).pmc = c.pmc := rfl
@[simp] theorem Core.setGroup_pmctl (c : Core) (i : Nat) (g : Group) : (c.setGroup i g).pmctl = c.pmctl := rfl
@[simp] theorem Core.setGroup_pmcsel (c : Core) (i : Nat) (g : Group) : (c.setGroup i g).pmcsel = c.pmcsel := rfl
@[simp] theorem Core.setGroup_lastIssued (c : Core) (i : Nat) (g : Group) : (c.setGroup i g).lastIssued = c.lastIssued := rfl
@[simp] theorem Core.setGroup_heldFaults (c : Core) (i : Nat) (g : Group) : (c.setGroup i g).heldFaults = c.heldFaults := rfl

/-! ## Core.setBlock -/

@[simp] theorem Core.setBlock_groups (c : Core) (i : Nat) (b : Block) : (c.setBlock i b).groups = c.groups := rfl
@[simp] theorem Core.setBlock_scratch (c : Core) (i : Nat) (b : Block) : (c.setBlock i b).scratch = c.scratch := rfl
@[simp] theorem Core.setBlock_laneMem (c : Core) (i : Nat) (b : Block) : (c.setBlock i b).laneMem = c.laneMem := rfl
@[simp] theorem Core.setBlock_opbuf (c : Core) (i : Nat) (b : Block) : (c.setBlock i b).opbuf = c.opbuf := rfl
@[simp] theorem Core.setBlock_acc (c : Core) (i : Nat) (b : Block) : (c.setBlock i b).acc = c.acc := rfl
@[simp] theorem Core.setBlock_l1kib (c : Core) (i : Nat) (b : Block) : (c.setBlock i b).l1kib = c.l1kib := rfl
@[simp] theorem Core.setBlock_gen (c : Core) (i : Nat) (b : Block) : (c.setBlock i b).gen = c.gen := rfl
@[simp] theorem Core.setBlock_lastLeft (c : Core) (i : Nat) (b : Block) : (c.setBlock i b).lastLeft = c.lastLeft := rfl
@[simp] theorem Core.setBlock_cycles (c : Core) (i : Nat) (b : Block) : (c.setBlock i b).cycles = c.cycles := rfl
@[simp] theorem Core.setBlock_coreFaults (c : Core) (i : Nat) (b : Block) : (c.setBlock i b).coreFaults = c.coreFaults := rfl
@[simp] theorem Core.setBlock_budget (c : Core) (i : Nat) (b : Block) : (c.setBlock i b).budget = c.budget := rfl
@[simp] theorem Core.setBlock_bars (c : Core) (i : Nat) (b : Block) : (c.setBlock i b).bars = c.bars := rfl
@[simp] theorem Core.setBlock_windows (c : Core) (i : Nat) (b : Block) : (c.setBlock i b).windows = c.windows := rfl
@[simp] theorem Core.setBlock_marks (c : Core) (i : Nat) (b : Block) : (c.setBlock i b).marks = c.marks := rfl
@[simp] theorem Core.setBlock_resv (c : Core) (i : Nat) (b : Block) : (c.setBlock i b).resv = c.resv := rfl
@[simp] theorem Core.setBlock_claims (c : Core) (i : Nat) (b : Block) : (c.setBlock i b).claims = c.claims := rfl
@[simp] theorem Core.setBlock_matq (c : Core) (i : Nat) (b : Block) : (c.setBlock i b).matq = c.matq := rfl
@[simp] theorem Core.setBlock_drain (c : Core) (i : Nat) (b : Block) : (c.setBlock i b).drain = c.drain := rfl
@[simp] theorem Core.setBlock_copyq (c : Core) (i : Nat) (b : Block) : (c.setBlock i b).copyq = c.copyq := rfl
@[simp] theorem Core.setBlock_tileq (c : Core) (i : Nat) (b : Block) : (c.setBlock i b).tileq = c.tileq := rfl
@[simp] theorem Core.setBlock_dests (c : Core) (i : Nat) (b : Block) : (c.setBlock i b).dests = c.dests := rfl
@[simp] theorem Core.setBlock_requests (c : Core) (i : Nat) (b : Block) : (c.setBlock i b).requests = c.requests := rfl
@[simp] theorem Core.setBlock_cache (c : Core) (i : Nat) (b : Block) : (c.setBlock i b).cache = c.cache := rfl
@[simp] theorem Core.setBlock_placerq (c : Core) (i : Nat) (b : Block) : (c.setBlock i b).placerq = c.placerq := rfl
@[simp] theorem Core.setBlock_elems (c : Core) (i : Nat) (b : Block) : (c.setBlock i b).elems = c.elems := rfl
@[simp] theorem Core.setBlock_placed (c : Core) (i : Nat) (b : Block) : (c.setBlock i b).placed = c.placed := rfl
@[simp] theorem Core.setBlock_hops (c : Core) (i : Nat) (b : Block) : (c.setBlock i b).hops = c.hops := rfl
@[simp] theorem Core.setBlock_probes (c : Core) (i : Nat) (b : Block) : (c.setBlock i b).probes = c.probes := rfl
@[simp] theorem Core.setBlock_deadlock (c : Core) (i : Nat) (b : Block) : (c.setBlock i b).deadlock = c.deadlock := rfl
@[simp] theorem Core.setBlock_pmc (c : Core) (i : Nat) (b : Block) : (c.setBlock i b).pmc = c.pmc := rfl
@[simp] theorem Core.setBlock_pmctl (c : Core) (i : Nat) (b : Block) : (c.setBlock i b).pmctl = c.pmctl := rfl
@[simp] theorem Core.setBlock_pmcsel (c : Core) (i : Nat) (b : Block) : (c.setBlock i b).pmcsel = c.pmcsel := rfl
@[simp] theorem Core.setBlock_lastIssued (c : Core) (i : Nat) (b : Block) : (c.setBlock i b).lastIssued = c.lastIssued := rfl
@[simp] theorem Core.setBlock_heldFaults (c : Core) (i : Nat) (b : Block) : (c.setBlock i b).heldFaults = c.heldFaults := rfl

/-! ## Group.next -/

@[simp] theorem Group.next_st (g : Group) : (g.next).st = g.st := rfl
@[simp] theorem Group.next_blk (g : Group) : (g.next).blk = g.blk := rfl
@[simp] theorem Group.next_home (g : Group) : (g.next).home = g.home := rfl
@[simp] theorem Group.next_age (g : Group) : (g.next).age = g.age := rfl
@[simp] theorem Group.next_skip (g : Group) : (g.next).skip = g.skip := rfl
@[simp] theorem Group.next_m (g : Group) : (g.next).m = g.m := rfl
@[simp] theorem Group.next_exitm (g : Group) : (g.next).exitm = g.exitm := rfl
@[simp] theorem Group.next_stack (g : Group) : (g.next).stack = g.stack := rfl
@[simp] theorem Group.next_loopH (g : Group) : (g.next).loopH = g.loopH := rfl
@[simp] theorem Group.next_loopCount (g : Group) : (g.next).loopCount = g.loopCount := rfl
@[simp] theorem Group.next_armPoint (g : Group) : (g.next).armPoint = g.armPoint := rfl
@[simp] theorem Group.next_hintT (g : Group) : (g.next).hintT = g.hintT := rfl
@[simp] theorem Group.next_hintValid (g : Group) : (g.next).hintValid = g.hintValid := rfl
@[simp] theorem Group.next_hintHead (g : Group) : (g.next).hintHead = g.hintHead := rfl
@[simp] theorem Group.next_v (g : Group) : (g.next).v = g.v := rfl
@[simp] theorem Group.next_w (g : Group) : (g.next).w = g.w := rfl
@[simp] theorem Group.next_p (g : Group) : (g.next).p = g.p := rfl
@[simp] theorem Group.next_k (g : Group) : (g.next).k = g.k := rfl
@[simp] theorem Group.next_y0 (g : Group) : (g.next).y0 = g.y0 := rfl
@[simp] theorem Group.next_y1 (g : Group) : (g.next).y1 = g.y1 := rfl
@[simp] theorem Group.next_y0v (g : Group) : (g.next).y0v = g.y0v := rfl
@[simp] theorem Group.next_y1v (g : Group) : (g.next).y1v = g.y1v := rfl
@[simp] theorem Group.next_loopcfg (g : Group) : (g.next).loopcfg = g.loopcfg := rfl
@[simp] theorem Group.next_trapbase (g : Group) : (g.next).trapbase = g.trapbase := rfl
@[simp] theorem Group.next_trapN (g : Group) : (g.next).trapN = g.trapN := rfl
@[simp] theorem Group.next_trapRet (g : Group) : (g.next).trapRet = g.trapRet := rfl
@[simp] theorem Group.next_faultinfo (g : Group) : (g.next).faultinfo = g.faultinfo := rfl
@[simp] theorem Group.next_clockhi (g : Group) : (g.next).clockhi = g.clockhi := rfl
@[simp] theorem Group.next_rkmix (g : Group) : (g.next).rkmix = g.rkmix := rfl
@[simp] theorem Group.next_amax (g : Group) : (g.next).amax = g.amax := rfl
@[simp] theorem Group.next_srseed (g : Group) : (g.next).srseed = g.srseed := rfl
@[simp] theorem Group.next_rkey (g : Group) : (g.next).rkey = g.rkey := rfl
@[simp] theorem Group.next_tg (g : Group) : (g.next).tg = g.tg := rfl
@[simp] theorem Group.next_mtc (g : Group) : (g.next).mtc = g.mtc := rfl
@[simp] theorem Group.next_faults (g : Group) : (g.next).faults = g.faults := rfl
@[simp] theorem Group.next_susp (g : Group) : (g.next).susp = g.susp := rfl
@[simp] theorem Group.next_tids (g : Group) : (g.next).tids = g.tids := rfl
@[simp] theorem Group.next_answer (g : Group) : (g.next).answer = g.answer := rfl
@[simp] theorem Group.next_refused (g : Group) : (g.next).refused = g.refused := rfl
@[simp] theorem Group.next_fxOct (g : Group) : (g.next).fxOct = g.fxOct := rfl
@[simp] theorem Group.next_fxRgn (g : Group) : (g.next).fxRgn = g.fxRgn := rfl
@[simp] theorem Group.next_fxEnd (g : Group) : (g.next).fxEnd = g.fxEnd := rfl
@[simp] theorem Group.next_haltReq (g : Group) : (g.next).haltReq = g.haltReq := rfl
@[simp] theorem Group.next_stepReq (g : Group) : (g.next).stepReq = g.stepReq := rfl
@[simp] theorem Group.next_bpPast (g : Group) : (g.next).bpPast = g.bpPast := rfl
@[simp] theorem Group.next_ibuf (g : Group) : (g.next).ibuf = g.ibuf := rfl
@[simp] theorem Group.next_barred (g : Group) : (g.next).barred = g.barred := rfl
@[simp] theorem Group.next_loads (g : Group) : (g.next).loads = g.loads := rfl
@[simp] theorem Group.next_flushing (g : Group) : (g.next).flushing = g.flushing := rfl
@[simp] theorem Group.next_peerTags (g : Group) : (g.next).peerTags = g.peerTags := rfl
@[simp] theorem Group.next_dampRec (g : Group) : (g.next).dampRec = g.dampRec := rfl

/-! ## Group.yInvalid -/

@[simp] theorem Group.yInvalid_st (g : Group) : (g.yInvalid).st = g.st := rfl
@[simp] theorem Group.yInvalid_blk (g : Group) : (g.yInvalid).blk = g.blk := rfl
@[simp] theorem Group.yInvalid_home (g : Group) : (g.yInvalid).home = g.home := rfl
@[simp] theorem Group.yInvalid_age (g : Group) : (g.yInvalid).age = g.age := rfl
@[simp] theorem Group.yInvalid_skip (g : Group) : (g.yInvalid).skip = g.skip := rfl
@[simp] theorem Group.yInvalid_pc (g : Group) : (g.yInvalid).pc = g.pc := rfl
@[simp] theorem Group.yInvalid_m (g : Group) : (g.yInvalid).m = g.m := rfl
@[simp] theorem Group.yInvalid_exitm (g : Group) : (g.yInvalid).exitm = g.exitm := rfl
@[simp] theorem Group.yInvalid_stack (g : Group) : (g.yInvalid).stack = g.stack := rfl
@[simp] theorem Group.yInvalid_loopH (g : Group) : (g.yInvalid).loopH = g.loopH := rfl
@[simp] theorem Group.yInvalid_loopCount (g : Group) : (g.yInvalid).loopCount = g.loopCount := rfl
@[simp] theorem Group.yInvalid_armPoint (g : Group) : (g.yInvalid).armPoint = g.armPoint := rfl
@[simp] theorem Group.yInvalid_hintT (g : Group) : (g.yInvalid).hintT = g.hintT := rfl
@[simp] theorem Group.yInvalid_hintValid (g : Group) : (g.yInvalid).hintValid = g.hintValid := rfl
@[simp] theorem Group.yInvalid_hintHead (g : Group) : (g.yInvalid).hintHead = g.hintHead := rfl
@[simp] theorem Group.yInvalid_v (g : Group) : (g.yInvalid).v = g.v := rfl
@[simp] theorem Group.yInvalid_w (g : Group) : (g.yInvalid).w = g.w := rfl
@[simp] theorem Group.yInvalid_p (g : Group) : (g.yInvalid).p = g.p := rfl
@[simp] theorem Group.yInvalid_k (g : Group) : (g.yInvalid).k = g.k := rfl
@[simp] theorem Group.yInvalid_y0 (g : Group) : (g.yInvalid).y0 = g.y0 := rfl
@[simp] theorem Group.yInvalid_y1 (g : Group) : (g.yInvalid).y1 = g.y1 := rfl
@[simp] theorem Group.yInvalid_loopcfg (g : Group) : (g.yInvalid).loopcfg = g.loopcfg := rfl
@[simp] theorem Group.yInvalid_trapbase (g : Group) : (g.yInvalid).trapbase = g.trapbase := rfl
@[simp] theorem Group.yInvalid_trapN (g : Group) : (g.yInvalid).trapN = g.trapN := rfl
@[simp] theorem Group.yInvalid_trapRet (g : Group) : (g.yInvalid).trapRet = g.trapRet := rfl
@[simp] theorem Group.yInvalid_faultinfo (g : Group) : (g.yInvalid).faultinfo = g.faultinfo := rfl
@[simp] theorem Group.yInvalid_clockhi (g : Group) : (g.yInvalid).clockhi = g.clockhi := rfl
@[simp] theorem Group.yInvalid_rkmix (g : Group) : (g.yInvalid).rkmix = g.rkmix := rfl
@[simp] theorem Group.yInvalid_amax (g : Group) : (g.yInvalid).amax = g.amax := rfl
@[simp] theorem Group.yInvalid_srseed (g : Group) : (g.yInvalid).srseed = g.srseed := rfl
@[simp] theorem Group.yInvalid_rkey (g : Group) : (g.yInvalid).rkey = g.rkey := rfl
@[simp] theorem Group.yInvalid_tg (g : Group) : (g.yInvalid).tg = g.tg := rfl
@[simp] theorem Group.yInvalid_mtc (g : Group) : (g.yInvalid).mtc = g.mtc := rfl
@[simp] theorem Group.yInvalid_faults (g : Group) : (g.yInvalid).faults = g.faults := rfl
@[simp] theorem Group.yInvalid_susp (g : Group) : (g.yInvalid).susp = g.susp := rfl
@[simp] theorem Group.yInvalid_tids (g : Group) : (g.yInvalid).tids = g.tids := rfl
@[simp] theorem Group.yInvalid_answer (g : Group) : (g.yInvalid).answer = g.answer := rfl
@[simp] theorem Group.yInvalid_refused (g : Group) : (g.yInvalid).refused = g.refused := rfl
@[simp] theorem Group.yInvalid_fxOct (g : Group) : (g.yInvalid).fxOct = g.fxOct := rfl
@[simp] theorem Group.yInvalid_fxRgn (g : Group) : (g.yInvalid).fxRgn = g.fxRgn := rfl
@[simp] theorem Group.yInvalid_fxEnd (g : Group) : (g.yInvalid).fxEnd = g.fxEnd := rfl
@[simp] theorem Group.yInvalid_haltReq (g : Group) : (g.yInvalid).haltReq = g.haltReq := rfl
@[simp] theorem Group.yInvalid_stepReq (g : Group) : (g.yInvalid).stepReq = g.stepReq := rfl
@[simp] theorem Group.yInvalid_bpPast (g : Group) : (g.yInvalid).bpPast = g.bpPast := rfl
@[simp] theorem Group.yInvalid_ibuf (g : Group) : (g.yInvalid).ibuf = g.ibuf := rfl
@[simp] theorem Group.yInvalid_barred (g : Group) : (g.yInvalid).barred = g.barred := rfl
@[simp] theorem Group.yInvalid_loads (g : Group) : (g.yInvalid).loads = g.loads := rfl
@[simp] theorem Group.yInvalid_flushing (g : Group) : (g.yInvalid).flushing = g.flushing := rfl
@[simp] theorem Group.yInvalid_peerTags (g : Group) : (g.yInvalid).peerTags = g.peerTags := rfl
@[simp] theorem Group.yInvalid_dampRec (g : Group) : (g.yInvalid).dampRec = g.dampRec := rfl

/-! ## Group.resumeAt -/

@[simp] theorem Group.resumeAt_blk (g : Group) (pc : Dword) : (g.resumeAt pc).blk = g.blk := rfl
@[simp] theorem Group.resumeAt_home (g : Group) (pc : Dword) : (g.resumeAt pc).home = g.home := rfl
@[simp] theorem Group.resumeAt_age (g : Group) (pc : Dword) : (g.resumeAt pc).age = g.age := rfl
@[simp] theorem Group.resumeAt_skip (g : Group) (pc : Dword) : (g.resumeAt pc).skip = g.skip := rfl
@[simp] theorem Group.resumeAt_m (g : Group) (pc : Dword) : (g.resumeAt pc).m = g.m := rfl
@[simp] theorem Group.resumeAt_exitm (g : Group) (pc : Dword) : (g.resumeAt pc).exitm = g.exitm := rfl
@[simp] theorem Group.resumeAt_stack (g : Group) (pc : Dword) : (g.resumeAt pc).stack = g.stack := rfl
@[simp] theorem Group.resumeAt_loopH (g : Group) (pc : Dword) : (g.resumeAt pc).loopH = g.loopH := rfl
@[simp] theorem Group.resumeAt_loopCount (g : Group) (pc : Dword) : (g.resumeAt pc).loopCount = g.loopCount := rfl
@[simp] theorem Group.resumeAt_armPoint (g : Group) (pc : Dword) : (g.resumeAt pc).armPoint = g.armPoint := rfl
@[simp] theorem Group.resumeAt_hintT (g : Group) (pc : Dword) : (g.resumeAt pc).hintT = g.hintT := rfl
@[simp] theorem Group.resumeAt_hintValid (g : Group) (pc : Dword) : (g.resumeAt pc).hintValid = g.hintValid := rfl
@[simp] theorem Group.resumeAt_hintHead (g : Group) (pc : Dword) : (g.resumeAt pc).hintHead = g.hintHead := rfl
@[simp] theorem Group.resumeAt_v (g : Group) (pc : Dword) : (g.resumeAt pc).v = g.v := rfl
@[simp] theorem Group.resumeAt_w (g : Group) (pc : Dword) : (g.resumeAt pc).w = g.w := rfl
@[simp] theorem Group.resumeAt_p (g : Group) (pc : Dword) : (g.resumeAt pc).p = g.p := rfl
@[simp] theorem Group.resumeAt_k (g : Group) (pc : Dword) : (g.resumeAt pc).k = g.k := rfl
@[simp] theorem Group.resumeAt_y0 (g : Group) (pc : Dword) : (g.resumeAt pc).y0 = g.y0 := rfl
@[simp] theorem Group.resumeAt_y1 (g : Group) (pc : Dword) : (g.resumeAt pc).y1 = g.y1 := rfl
@[simp] theorem Group.resumeAt_loopcfg (g : Group) (pc : Dword) : (g.resumeAt pc).loopcfg = g.loopcfg := rfl
@[simp] theorem Group.resumeAt_trapbase (g : Group) (pc : Dword) : (g.resumeAt pc).trapbase = g.trapbase := rfl
@[simp] theorem Group.resumeAt_trapN (g : Group) (pc : Dword) : (g.resumeAt pc).trapN = g.trapN := rfl
@[simp] theorem Group.resumeAt_trapRet (g : Group) (pc : Dword) : (g.resumeAt pc).trapRet = g.trapRet := rfl
@[simp] theorem Group.resumeAt_faultinfo (g : Group) (pc : Dword) : (g.resumeAt pc).faultinfo = g.faultinfo := rfl
@[simp] theorem Group.resumeAt_clockhi (g : Group) (pc : Dword) : (g.resumeAt pc).clockhi = g.clockhi := rfl
@[simp] theorem Group.resumeAt_rkmix (g : Group) (pc : Dword) : (g.resumeAt pc).rkmix = g.rkmix := rfl
@[simp] theorem Group.resumeAt_amax (g : Group) (pc : Dword) : (g.resumeAt pc).amax = g.amax := rfl
@[simp] theorem Group.resumeAt_srseed (g : Group) (pc : Dword) : (g.resumeAt pc).srseed = g.srseed := rfl
@[simp] theorem Group.resumeAt_rkey (g : Group) (pc : Dword) : (g.resumeAt pc).rkey = g.rkey := rfl
@[simp] theorem Group.resumeAt_tg (g : Group) (pc : Dword) : (g.resumeAt pc).tg = g.tg := rfl
@[simp] theorem Group.resumeAt_mtc (g : Group) (pc : Dword) : (g.resumeAt pc).mtc = g.mtc := rfl
@[simp] theorem Group.resumeAt_faults (g : Group) (pc : Dword) : (g.resumeAt pc).faults = g.faults := rfl
@[simp] theorem Group.resumeAt_tids (g : Group) (pc : Dword) : (g.resumeAt pc).tids = g.tids := rfl
@[simp] theorem Group.resumeAt_answer (g : Group) (pc : Dword) : (g.resumeAt pc).answer = g.answer := rfl
@[simp] theorem Group.resumeAt_refused (g : Group) (pc : Dword) : (g.resumeAt pc).refused = g.refused := rfl
@[simp] theorem Group.resumeAt_fxOct (g : Group) (pc : Dword) : (g.resumeAt pc).fxOct = g.fxOct := rfl
@[simp] theorem Group.resumeAt_fxRgn (g : Group) (pc : Dword) : (g.resumeAt pc).fxRgn = g.fxRgn := rfl
@[simp] theorem Group.resumeAt_fxEnd (g : Group) (pc : Dword) : (g.resumeAt pc).fxEnd = g.fxEnd := rfl
@[simp] theorem Group.resumeAt_haltReq (g : Group) (pc : Dword) : (g.resumeAt pc).haltReq = g.haltReq := rfl
@[simp] theorem Group.resumeAt_stepReq (g : Group) (pc : Dword) : (g.resumeAt pc).stepReq = g.stepReq := rfl
@[simp] theorem Group.resumeAt_bpPast (g : Group) (pc : Dword) : (g.resumeAt pc).bpPast = g.bpPast := rfl
@[simp] theorem Group.resumeAt_ibuf (g : Group) (pc : Dword) : (g.resumeAt pc).ibuf = g.ibuf := rfl
@[simp] theorem Group.resumeAt_barred (g : Group) (pc : Dword) : (g.resumeAt pc).barred = g.barred := rfl
@[simp] theorem Group.resumeAt_loads (g : Group) (pc : Dword) : (g.resumeAt pc).loads = g.loads := rfl
@[simp] theorem Group.resumeAt_flushing (g : Group) (pc : Dword) : (g.resumeAt pc).flushing = g.flushing := rfl
@[simp] theorem Group.resumeAt_peerTags (g : Group) (pc : Dword) : (g.resumeAt pc).peerTags = g.peerTags := rfl
@[simp] theorem Group.resumeAt_dampRec (g : Group) (pc : Dword) : (g.resumeAt pc).dampRec = g.dampRec := rfl

/-! ## Reading what was replaced -/

@[simp] theorem Group.next_pc (g : Group) : g.next.pc = g.pc + 8 := rfl
@[simp] theorem Group.yInvalid_y0v (g : Group) : g.yInvalid.y0v = false := rfl
@[simp] theorem Group.yInvalid_y1v (g : Group) : g.yInvalid.y1v = false := rfl
@[simp] theorem Group.resumeAt_pc (g : Group) (pc : Dword) : (g.resumeAt pc).pc = pc := rfl
@[simp] theorem Group.resumeAt_st (g : Group) (pc : Dword) : (g.resumeAt pc).st = .running := rfl
@[simp] theorem Group.resumeAt_susp (g : Group) (pc : Dword) : (g.resumeAt pc).susp = none := rfl

@[simp] theorem State.core_setCore_same (s : State) (k : Nat) (x : Core) : (s.setCore k x).core k = x :=
  SMap.get_set_same _ _ _ _
theorem State.core_setCore_ne (s : State) {k j : Nat} (x : Core) (h : k ≠ j) : (s.setCore k x).core j = s.core j :=
  SMap.get_set_ne _ _ _ h
@[simp] theorem Core.group_setGroup_same (c : Core) (i : Nat) (g : Group) : (c.setGroup i g).group i = g := SMap.get_set_same _ _ _ _
theorem Core.group_setGroup_ne (c : Core) {i j : Nat} (g : Group) (h : i ≠ j) : (c.setGroup i g).group j = c.group j :=
  SMap.get_set_ne _ _ _ h
@[simp] theorem Core.block_setGroup (c : Core) (i k : Nat) (g : Group) : (c.setGroup i g).block k = c.block k := rfl
@[simp] theorem Core.group_setBlock (c : Core) (i k : Nat) (b : Block) : (c.setBlock i b).group k = c.group k := rfl
@[simp] theorem Core.block_setBlock_same (c : Core) (i : Nat) (b : Block) : (c.setBlock i b).block i = b := SMap.get_set_same _ _ _ _
theorem Core.block_setBlock_ne (c : Core) {i j : Nat} (b : Block) (h : i ≠ j) : (c.setBlock i b).block j = c.block j :=
  SMap.get_set_ne _ _ _ h
@[simp] theorem State.group_setGroup_same (s : State) (k i : Nat) (g : Group) : (s.setGroup k i g).group k i = g := by
  simp [State.group, State.setGroup]
theorem State.group_setGroup_ne (s : State) {k i k' i' : Nat} (g : Group) (h : k ≠ k' ∨ i ≠ i') :
    (s.setGroup k i g).group k' i' = s.group k' i' := by
  by_cases hk : k = k'
  · subst hk
    simp only [State.group, State.setGroup, State.core_setCore_same]
    exact Core.group_setGroup_ne _ _ (h.resolve_left (by simp))
  · simp only [State.group, State.setGroup, State.core_setCore_ne s _ hk]
@[simp] theorem State.core_setGroup_same (s : State) (k i : Nat) (g : Group) : (s.setGroup k i g).core k = (s.core k).setGroup i g := by
  simp [State.setGroup]
theorem State.core_setGroup_ne (s : State) {k j : Nat} (i : Nat) (g : Group) (h : k ≠ j) : (s.setGroup k i g).core j = s.core j :=
  State.core_setCore_ne s _ h
@[simp] theorem State.part_setPart_same (s : State) (p : Nat) (x : Partition) : (s.setPart p x).part p = x := SMap.get_set_same _ _ _ _
theorem State.part_setPart_ne (s : State) {p q : Nat} (x : Partition) (h : p ≠ q) : (s.setPart p x).part q = s.part q :=
  SMap.get_set_ne _ _ _ h
@[simp] theorem State.queue_setQueue_same (s : State) (q : Nat) (x : Queue) : (s.setQueue q x).queue q = x := SMap.get_set_same _ _ _ _
@[simp] theorem State.command_setCommand_same (s : State) (n : Nat) (x : Command) : (s.setCommand n x).command n = x :=
  SMap.get_set_same _ _ _ _
@[simp] theorem State.part_setGroup (s : State) (k i p : Nat) (g : Group) : (s.setGroup k i g).part p = s.part p := rfl
@[simp] theorem State.part_setCore (s : State) (k p : Nat) (x : Core) : (s.setCore k x).part p = s.part p := rfl
@[simp] theorem State.core_setPart (s : State) (p k : Nat) (x : Partition) : (s.setPart p x).core k = s.core k := rfl
@[simp] theorem State.group_setPart (s : State) (p k i : Nat) (x : Partition) : (s.setPart p x).group k i = s.group k i := rfl
@[simp] theorem State.core_wr (s : State) (a n v k : Nat) : (s.wr a n v).core k = s.core k := rfl
@[simp] theorem State.part_wr (s : State) (a n v p : Nat) : (s.wr a n v).part p = s.part p := rfl

end Sys2Proof.Machine
end

