-- ==== Sys2Proof/Laws/Results.lean ====
section
/-!
SUPPORT. What the front end's checks and the common ends of register forms do, once and for all (R51, R53, R60, R75, R94, R130).
-/

namespace Sys2Proof.Machine

/-! ## Lanes -/

theorem mem_lanesOf {m : Mask} {l : Nat} : l ∈ lanesOf m ↔ l < 32 ∧ m.getLsbD l = true := by
  simp [lanesOf]

theorem getLsbD_foldl_or (l : List Nat) (m : Mask) (i : Nat) (hi : i < 32) :
    (l.foldl (fun m i => m ||| (1#32 <<< i)) m).getLsbD i = (m.getLsbD i || l.contains i) := by
  induction l generalizing m with
  | nil => simp
  | cons a r ih =>
    rw [List.foldl_cons, ih]
    simp only [BitVec.getLsbD_or, BitVec.getLsbD_shiftLeft, hi, decide_true, Bool.true_and, List.contains_cons,
      BitVec.getLsbD_one]
    by_cases h : i = a
    · subst h; simp
    · have h' : (i == a) = false := by simpa using h
      by_cases h2 : i < a
      · simp [h2, h']
      · have : ¬ (i - a = 0) := by omega
        simp [h2, this, h']

/-- A lane is in the mask of a list when the list names it. -/
theorem getLsbD_maskOf (l : List Nat) (i : Nat) (hi : i < 32) : (maskOf l).getLsbD i = l.contains i := by
  rw [maskOf, getLsbD_foldl_or l 0 i hi]; simp

/-! ## Registers by lane -/

theorem vkey_inj {q r l j : Nat} (hl : l < 32) (hj : j < 32) : vkey q l = vkey r j ↔ q = r ∧ l = j := by
  simp only [vkey]; omega

theorem get_foldl_lanes (L : List Nat) (hL : ∀ j ∈ L, j < 32) (m : SMap Word) (r : Nat) (f : Nat → Word) (q l : Nat) (hl : l < 32) :
    SMap.get 0 (L.foldl (fun m l => SMap.set 0 m (vkey r l) (f l)) m) (vkey q l) =
      if q = r ∧ l ∈ L then f l else SMap.get 0 m (vkey q l) := by
  induction L generalizing m with
  | nil => simp
  | cons a t ih =>
    rw [List.foldl_cons, ih (fun j hj => hL j (List.mem_cons_of_mem _ hj)), SMap.get_set]
    have ha := hL a (List.mem_cons_self ..)
    by_cases hq : q = r
    · by_cases hlt : l ∈ t
      · simp [hq, hlt]
      · by_cases hla : l = a
        · subst hla; simp [hq, hlt]
        · have hne : ¬ vkey r a = vkey r l := by rw [vkey_inj ha hl]; rintro ⟨-, h⟩; exact hla h.symm
          simp [hq, hlt, hla, hne]
    · have hne : ¬ vkey r a = vkey q l := by rw [vkey_inj ha hl]; rintro ⟨h, -⟩; exact hq h.symm
      simp [hq, hne]

/-- A register of a lane after a write in the lanes of a mask. -/
theorem get_writeLanes (m : SMap Word) (r : Nat) (act : Mask) (f : Nat → Word) (q l : Nat) (hl : l < 32) :
    SMap.get 0 (writeLanes m r act f) (vkey q l) = if q = r ∧ act.getLsbD l = true then f l else SMap.get 0 m (vkey q l) := by
  rw [writeLanes, get_foldl_lanes _ (fun j hj => (mem_lanesOf.mp hj).1) _ _ _ _ _ hl]
  simp [mem_lanesOf, hl]

/-- A bit of a predicate after a write in the lanes of a mask. -/
theorem getLsbD_mergeBits (old act : Mask) (f : Nat → Word) (l : Nat) (hl : l < 32) :
    (mergeBits old act f).getLsbD l = if act.getLsbD l then (f l).getLsbD 0 else old.getLsbD l := by
  unfold mergeBits
  rw [BitVec.getLsbD_or, getLsbD_maskOf _ _ hl]
  by_cases h : act.getLsbD l = true
  · have : l ∈ lanesOf act := mem_lanesOf.mpr ⟨hl, h⟩
    by_cases h2 : (f l).getLsbD 0 = true <;> simp [h, this, h2, hl]
  · have h' : act.getLsbD l = false := by simpa using h
    have : l ∉ lanesOf act := fun hm => h (mem_lanesOf.mp hm).2
    have h2 : act[l] = false := by rw [← BitVec.getLsbD_eq_getElem]; exact h'
    simp [h2, this, hl]

/-! ## Writing a destination -/

/-- A 32-bit write changes the registers of its destination in the lanes of the mask, and no other (R53, R92). -/
theorem Group.write_regsAfter (g : Group) (d : Opnd) (act : Mask) (f : Nat → Word) :
    RegsAfter g (g.write d act f) act d 1 (fun _ l => f l) := by
  intro file r l hl
  rcases d with i | i | hi | i | i | i | _ | h | i
  · rcases file with _ | _ | n
    · simp only [Group.write, Group.stored, spanHas, storedOf, get_writeLanes _ _ _ _ _ _ hl]
      by_cases h : r = i.toNat
      · subst h; simp
      · have : ¬ (i.toNat ≤ r ∧ r < i.toNat + 1) := by omega
        simp only [h, false_and, ite_false, Bool.and_eq_true, decide_eq_true_eq, this]
    · simp [Group.write, Group.stored, spanHas]
    · simp [Group.write, Group.stored, spanHas]
  · rcases file with _ | _ | n
    · simp [Group.write, Group.stored, spanHas]
    · simp only [Group.write, Group.stored, spanHas, storedOf, get_writeLanes _ _ _ _ _ _ hl]
      by_cases h : r = i.toNat
      · subst h; simp
      · have : ¬ (i.toNat ≤ r ∧ r < i.toNat + 1) := by omega
        simp only [h, false_and, ite_false, Bool.and_eq_true, decide_eq_true_eq, this]
    · simp [Group.write, Group.stored, spanHas]
  · rcases file with _ | _ | n <;> simp [Group.write, Group.stored, spanHas]
  · rcases file with _ | _ | n
    · simp only [Group.write, Group.setPred]; split <;> simp [Group.stored, spanHas]
    · simp only [Group.write, Group.setPred]; split <;> simp [Group.stored, spanHas]
    · simp only [Group.write, Group.setPred]
      by_cases h7 : i = 7
      · subst h7; simp [Group.stored, spanHas]
      · have h7' : i.toNat ≠ 7 := by intro h; exact h7 (BitVec.eq_of_toNat_eq h)
        rw [if_neg h7']
        simp only [Group.stored, spanHas, storedOf, SMap.get_set]
        by_cases hr : i.toNat = r
        · subst hr
          simp only [ite_true, getLsbD_mergeBits _ _ _ _ hl]
          by_cases ha : act.getLsbD l = true
          · simp only [ha]; simpa using fun h => absurd h h7
          · simp [ha]
        · have hr' : ¬ r = i.toNat := fun h => hr h.symm
          simp [hr, hr']
  all_goals (rcases file with _ | _ | n <;> simp [Group.write, Group.stored, spanHas])

/-- One word of a pair or quad. -/
theorem Group.writeWord_stored (g : Group) (d : Opnd) (i : Nat) (act : Mask) (f : Nat → Word) (file r l : Nat) (hl : l < 32) :
    (g.writeWord d i act f).stored file r l =
      if spanHas d (i + 1) file r = true ∧ spanAt d r = i ∧ act.getLsbD l = true ∧ (∀ n, d ≠ .p n) then f l else g.stored file r l := by
  rcases d with n | n | hi | n | n | n | _ | h | n
  · rcases file with _ | _ | k
    · simp only [Group.writeWord, Group.stored, spanHas, spanAt, get_writeLanes _ _ _ _ _ _ hl]
      by_cases h : r = n.toNat + i
      · subst h; simp
      · have : ¬ ((n.toNat ≤ r ∧ r < n.toNat + (i + 1)) ∧ r - n.toNat = i) := by omega
        simp only [h, false_and, ite_false, Bool.and_eq_true, decide_eq_true_eq]
        rw [if_neg]; tauto
    · simp [Group.writeWord, Group.stored, spanHas]
    · simp [Group.writeWord, Group.stored, spanHas]
  · rcases file with _ | _ | k
    · simp [Group.writeWord, Group.stored, spanHas]
    · simp only [Group.writeWord, Group.stored, spanHas, spanAt, get_writeLanes _ _ _ _ _ _ hl]
      by_cases h : r = n.toNat + i
      · subst h; simp
      · have : ¬ ((n.toNat ≤ r ∧ r < n.toNat + (i + 1)) ∧ r - n.toNat = i) := by omega
        simp only [h, false_and, ite_false, Bool.and_eq_true, decide_eq_true_eq]
        rw [if_neg]; tauto
    · simp [Group.writeWord, Group.stored, spanHas]
  all_goals (rcases file with _ | _ | k <;> simp [Group.writeWord, Group.stored, spanHas])

/-- A 64-bit write changes its pair in the lanes of the mask, and no other register (R92, R122); a predicate is no pair. -/
theorem Group.write64_regsAfter (g : Group) (d : Opnd) (act : Mask) (f : Nat → Dword) (hp : ∀ n, d ≠ .p n) :
    RegsAfter g (g.write64 d act f) act d 2 (fun i l => wordOf (f l) i) := by
  intro file r l hl
  unfold Group.write64
  rw [Group.writeWord_stored _ _ _ _ _ _ _ _ hl, Group.writeWord_stored _ _ _ _ _ _ _ _ hl]
  have h01 : spanHas d 1 file r = true ↔ spanHas d 2 file r = true ∧ spanAt d r = 0 := by
    rcases d with n | n | hi | n | n | n | _ | h | n <;> rcases file with _ | _ | k <;> simp [spanHas, spanAt] <;>
      omega
  have hlt : spanHas d 2 file r = true → spanAt d r = 0 ∨ spanAt d r = 1 := by
    rcases d with n | n | hi | n | n | n | _ | h | n <;> rcases file with _ | _ | k <;> simp [spanHas, spanAt] <;> omega
  have hst : ∀ x, storedOf d x = x := by
    intro x; rcases d with n | n | hi | n | n | n | _ | h | n <;> first | rfl | exact absurd rfl (hp n)
  simp only [hst]
  by_cases h2 : spanHas d 2 file r = true
  · by_cases ha : act.getLsbD l = true
    · rcases hlt h2 with h | h
      · have := h01.mpr ⟨h2, h⟩
        simp [h, h2, ha, this, wordOf, hp]
      · simp [h, h2, ha, wordOf, hp]
    · simp [ha]
  · have h1 : ¬ spanHas d 1 file r = true := fun h => h2 (h01.mp h).1
    simp [h1, h2]

/-! ## The ends of register forms -/

theorem get_ySlot (f : Nat → Word) (l : Nat) (hl : l < 32) : SMap.get 0 (ySlot f) l = f l := by
  have h : ∀ (L : List Nat) (m : SMap Word) (j : Nat), SMap.get 0 (L.foldl (fun m l => SMap.set 0 m l (f l)) m) j =
      if j ∈ L then f j else SMap.get 0 m j := by
    intro L
    induction L with
    | nil => simp
    | cons a t ih =>
      intro m j
      rw [List.foldl_cons, ih, SMap.get_set]
      by_cases hj : j ∈ t
      · simp [hj]
      · by_cases ha : a = j
        · subst ha; simp
        · have : ¬ j = a := fun h => ha h.symm
          simp [hj, ha, this]
  rw [ySlot, h]; simp [hl]

theorem Group.write_holdsFrame (g : Group) (d : Opnd) (act : Mask) (f : Nat → Word) :
    g.write d act f = { g with v := (g.write d act f).v, w := (g.write d act f).w, p := (g.write d act f).p } := by
  rcases d with i | i | hi | i | i | i | _ | h | i <;> simp only [Group.write, Group.setPred] <;> first | rfl | (split <;> rfl)

theorem Group.writeWord_frame (g : Group) (d : Opnd) (i : Nat) (act : Mask) (f : Nat → Word) :
    g.writeWord d i act f = { g with v := (g.writeWord d i act f).v, w := (g.writeWord d i act f).w } := by
  rcases d with n | n | hi | n | n | n | _ | h | n <;> rfl

/-- The registers of a group do not depend on its PC, its y slots and the rest. -/
theorem Group.stored_congr {g h : Group} (hv : g.v = h.v) (hw : g.w = h.w) (hp : g.p = h.p) (file r l : Nat) :
    g.stored file r l = h.stored file r l := by
  unfold Group.stored; rw [hv, hw, hp]

theorem State.fe_g (s : State) (x : Guard) : (s.fe x).g = s.cur := rfl
theorem State.fe_act (s : State) (x : Guard) : (s.fe x).act = s.actOf x := rfl
theorem State.fe_b (s : State) (x : Guard) : (s.fe x).b = s.curBlock := rfl
theorem State.fe_s (s : State) (x : Guard) : (s.fe x).s = s := rfl
theorem State.fe_x (s : State) (x : Guard) : (s.fe x).x = x := rfl

/-- Replacing the issuing group. -/
theorem State.put_fe (s : State) (x : Guard) (g : Group) : (s.fe x).put g = s.setGroup s.curCore s.curSlot g := rfl
theorem State.cur_put (s : State) (x : Guard) (g : Group) : ((s.fe x).put g).cur = g := by
  show (s.setGroup s.curCore s.curSlot g).group s.curCore s.curSlot = g
  simp

/-- The end of a form with a 32-bit result. -/
theorem Fe.result_spec (s : State) (x : Guard) (d : Opnd) (f : Nat → Word) :
    ∃ t, (s.fe x).result d f = .next t ∧ Result32 s t x d f := by
  refine ⟨_, rfl, ?_⟩
  have hc := s.cur_put x ((((s.fe x).g.write d (s.fe x).act f).push32 (s.fe x).x d (s.fe x).act f).next)
  unfold Result32
  rw [RegisterStep, hc]
  have hw := Group.write_holdsFrame s.cur d (s.actOf x) f
  rw [State.fe_g, State.fe_act, State.fe_x]
  refine ⟨⟨rfl, fun _ => rfl, ?_⟩, ?_, ?_⟩
  · rw [hw]; unfold Group.push32; split <;> rfl
  · intro file r l hl
    rw [← Group.write_regsAfter s.cur d (s.actOf x) f file r l hl]
    refine Group.stored_congr ?_ ?_ ?_ file r l <;> (unfold Group.push32; split <;> rfl)
  · unfold Pushed32
    have hy : (s.cur.write d (s.actOf x) f).y0 = s.cur.y0 ∧ (s.cur.write d (s.actOf x) f).y1 = s.cur.y1 ∧
        (s.cur.write d (s.actOf x) f).y0v = s.cur.y0v ∧ (s.cur.write d (s.actOf x) f).y1v = s.cur.y1v := by
      rw [hw]; exact ⟨rfl, rfl, rfl, rfl⟩
    by_cases hn : guardNever x = true
    · simp [hn, Group.push32, hy]
    · rw [if_neg hn]
      simp only [Group.push32, hn, Group.next]
      refine ⟨hy.1, hy.2.2.1, rfl, fun l hl => ?_⟩
      simp only [Bool.false_eq_true, if_false]
      rw [get_ySlot _ _ hl]
      split
      · rfl
      · rcases d with i | i | hi | i | i | i | _ | h | i <;> rfl

/-- The end of a form with a 64-bit result. -/
theorem Fe.result64_spec (s : State) (x : Guard) (d : Opnd) (f : Nat → Dword) (hp : ∀ n, d ≠ .p n) :
    ∃ t, (s.fe x).result64 d f = .next t ∧ Result64 s t x d f := by
  refine ⟨_, rfl, ?_⟩
  have hc := s.cur_put x ((((s.fe x).g.write64 d (s.fe x).act f).push64 (s.fe x).x d (s.fe x).act f).next)
  unfold Result64
  rw [RegisterStep, hc]
  have hw : s.cur.write64 d (s.actOf x) f = { s.cur with
      v := (s.cur.write64 d (s.actOf x) f).v, w := (s.cur.write64 d (s.actOf x) f).w } := by
    rcases d with i | i | hi | i | i | i | _ | h | i <;> rfl
  rw [State.fe_g, State.fe_act, State.fe_x]
  refine ⟨⟨rfl, fun _ => rfl, ?_⟩, ?_, ?_⟩
  · rw [hw]; unfold Group.push64; split <;> rfl
  · intro file r l hl
    rw [← Group.write64_regsAfter s.cur d (s.actOf x) f hp file r l hl]
    refine Group.stored_congr ?_ ?_ ?_ file r l <;> (unfold Group.push64; split <;> rfl)
  · unfold Pushed64
    have hy : (s.cur.write64 d (s.actOf x) f).y0 = s.cur.y0 ∧ (s.cur.write64 d (s.actOf x) f).y1 = s.cur.y1 ∧
        (s.cur.write64 d (s.actOf x) f).y0v = s.cur.y0v ∧ (s.cur.write64 d (s.actOf x) f).y1v = s.cur.y1v := by
      rw [hw]; exact ⟨rfl, rfl, rfl, rfl⟩
    by_cases hn : guardNever x = true
    · simp [hn, Group.push64, hy]
    · rw [if_neg hn]
      simp only [Group.push64, hn, Group.next]
      refine ⟨rfl, rfl, fun l hl => ?_⟩
      simp only [Bool.false_eq_true, if_false]
      rw [get_ySlot _ _ hl, get_ySlot _ _ hl]
      constructor <;> split <;> rfl

/-! ## The checks of the front end (R60) -/

/-- A word that passes has its effect. -/
theorem frontEnd_passes {i : Instr} {x : Guard} {s : State} {eff : Fe → Host.Outcome State Fault Refusal} (h : s.passes i = true) :
    frontEnd i x s eff = eff (s.fe x) := by
  simp only [State.passes, Bool.and_eq_true, Bool.not_eq_true', Option.isNone_iff_eq_none] at h
  obtain ⟨⟨⟨⟨h1, h2⟩, h3⟩, h4⟩, h5⟩ := h
  have h3' : (form i).uses.any (aboveRegs (s.fe x).b.kd.regs) = false := h3
  have h5' : yFault (s.fe x).g (form i).uses = none := h5
  unfold frontEnd
  simp only [h1, h2, h3', h4, h5', Bool.and_self, Bool.not_true, Bool.or_self, Bool.false_eq_true, if_false]

/-- A register form with a 32-bit result, whole. -/
theorem frontEnd_result {i : Instr} {x : Guard} {s : State} {d : Opnd} {f : Fe → Nat → Word} (h : s.passes i = true) :
    ∃ t, frontEnd i x s (fun e => e.result d (f e)) = .next t ∧ Result32 s t x d (f (s.fe x)) := by
  rw [frontEnd_passes h]; exact Fe.result_spec s x d _

/-- A register form with a 64-bit result, whole. -/
theorem frontEnd_result64 {i : Instr} {x : Guard} {s : State} {d : Opnd} {f : Fe → Nat → Dword} (h : s.passes i = true)
    (hp : ∀ n, d ≠ .p n) :
    ∃ t, frontEnd i x s (fun e => e.result64 d (f e)) = .next t ∧ Result64 s t x d (f (s.fe x)) := by
  rw [frontEnd_passes h]; exact Fe.result64_spec s x d _ hp

end Sys2Proof.Machine
end

