-- ==== Sys2Proof/Laws/Ends.lean ====
section
/-!
SUPPORT. The ends of the forms that write a quad, group registers, AMAX or stochastic-rounding states.
-/

namespace Sys2Proof.Machine

/-- Writing a list of keys of a sparse map, one after the other. -/
theorem SMap.get_foldl_set {α : Type} [DecidableEq α] (d : α) (L : List Nat) (m : SMap α) (f : Nat → α) (j : Nat) :
    SMap.get d (L.foldl (fun m l => SMap.set d m l (f l)) m) j = if j ∈ L then f j else SMap.get d m j := by
  induction L generalizing m with
  | nil => simp
  | cons a t ih =>
    rw [List.foldl_cons, ih, SMap.get_set]
    by_cases hj : j ∈ t
    · simp [hj]
    · by_cases ha : a = j
      · subst ha; simp
      · have : ¬ j = a := fun h => ha h.symm
        simp [hj, ha, this]

/-- Writing a lane register in the lanes of a mask. -/
theorem SMap.get_foldl_lanes {α : Type} [DecidableEq α] (d : α) (act : Mask) (m : SMap α) (f : Nat → α) (l : Nat) (hl : l < 32) :
    SMap.get d ((lanesOf act).foldl (fun m l => SMap.set d m l (f l)) m) l = if act.getLsbD l = true then f l else SMap.get d m l := by
  rw [SMap.get_foldl_set]; simp [mem_lanesOf, hl]

/-- A 64-bit destination is no predicate (R53). -/
theorem dst64_notP {s : State} {i : Instr} {d : Opnd} (h : s.passes i = true) (hu : dst64 d ∈ (form i).uses) : ∀ n, d ≠ .p n := by
  rintro n rfl
  simp only [State.passes, Bool.and_eq_true] at h
  have h2 := (List.all_eq_true.mp h.1.1.1.2) _ hu
  clear hu h
  revert h2; revert n; decide

/-- A quad write changes its four registers in the lanes of the mask, and no other; a predicate is no quad. -/
theorem Group.write128_regsAfter (g : Group) (d : Opnd) (act : Mask) (f : Nat → Nat → Word) (hp : ∀ n, d ≠ .p n) :
    RegsAfter g (g.write128 d act f) act d 4 f := by
  intro file r l hl
  unfold Group.write128
  simp only [Group.writeWord_stored _ _ _ _ _ _ _ _ hl]
  have hst : ∀ x, storedOf d x = x := by
    intro x; rcases d with n | n | hi | n | n | n | _ | h | n <;> first | rfl | exact absurd rfl (hp n)
  simp only [hst]
  have hk : ∀ k, k < 4 → (spanHas d (k + 1) file r = true ∧ spanAt d r = k ↔ spanHas d 4 file r = true ∧ spanAt d r = k) := by
    intro k hk
    rcases d with n | n | hi | n | n | n | _ | h | n <;> rcases file with _ | _ | q <;> simp [spanHas, spanAt] <;> omega
  have hlt : spanHas d 4 file r = true → spanAt d r < 4 := by
    rcases d with n | n | hi | n | n | n | _ | h | n <;> rcases file with _ | _ | k <;> simp [spanHas, spanAt] <;> omega
  have hz : ∀ k, k < 4 → ((spanHas d (k + 1) file r = true ∧ spanAt d r = k ∧ act.getLsbD l = true ∧ ∀ n, d ≠ .p n) ↔
      (spanHas d 4 file r = true ∧ act.getLsbD l = true) ∧ spanAt d r = k) := by
    intro k hk4; have := hk k hk4; tauto
  rw [if_congr (hz 3 (by omega)) rfl rfl, if_congr (hz 2 (by omega)) rfl rfl, if_congr (hz 1 (by omega)) rfl rfl,
    if_congr (hz 0 (by omega)) rfl rfl]
  by_cases h : spanHas d 4 file r = true ∧ act.getLsbD l = true
  · have h4 := hlt h.1
    generalize hq : spanAt d r = q at h4
    have : q = 0 ∨ q = 1 ∨ q = 2 ∨ q = 3 := by omega
    rcases this with rfl | rfl | rfl | rfl <;> simp [h]
  · simp only [h, false_and, if_false]

/-- A 32-bit result and its push, whatever else of the group changes. -/
theorem Group.wrote32 (g t : Group) (x : Guard) (d : Opnd) (act : Mask) (f : Nat → Word) (hd : ∀ n, d ≠ .k n)
    (hv : t.v = (g.write d act f).v) (hw : t.w = (g.write d act f).w) (hp : t.p = (g.write d act f).p)
    (hy : (t.y0, t.y1, t.y0v, t.y1v) = (((g.write d act f).push32 x d act f).y0, ((g.write d act f).push32 x d act f).y1,
      ((g.write d act f).push32 x d act f).y0v, ((g.write d act f).push32 x d act f).y1v)) : Wrote32 g t x act d f := by
  simp only [Prod.mk.injEq] at hy
  obtain ⟨h0, h1, h2, h3⟩ := hy
  have hf := Group.write_holdsFrame g d act f
  have e0 : (g.write d act f).y0 = g.y0 := by rw [hf]
  have e1 : (g.write d act f).y1 = g.y1 := by rw [hf]
  have e2 : (g.write d act f).y0v = g.y0v := by rw [hf]
  have e3 : (g.write d act f).y1v = g.y1v := by rw [hf]
  refine ⟨fun file r l hl => ?_, ?_⟩
  · rw [← Group.write_regsAfter g d act f file r l hl]; exact Group.stored_congr hv hw hp file r l
  · unfold Pushed32
    by_cases hn : guardNever x = true
    · simp [hn, Group.push32, h0, h1, h2, h3, e0, e1, e2, e3]
    · rw [if_neg hn]
      simp only [Group.push32, hn, Bool.false_eq_true, if_false] at h0 h1 h2 h3
      refine ⟨h1.trans e0, h3.trans e2, h2, fun l hl => ?_⟩
      rw [h0, get_ySlot _ _ hl]
      split
      · rfl
      · rcases d with i | i | hi | i | i | i | _ | h | i
        · simp only [Group.holds, hv]
        · simp only [Group.holds, hw]
        · rfl
        · simp only [Group.holds, Group.preg, Group.predMask, hp]
        · exact absurd rfl (hd i)
        all_goals rfl

/-- A 64-bit result and its push, whatever else of the group changes. -/
theorem Group.wrote64 (g t : Group) (x : Guard) (d : Opnd) (act : Mask) (f : Nat → Dword) (hnp : ∀ n, d ≠ .p n) (hd : ∀ n, d ≠ .k n)
    (hv : t.v = (g.write64 d act f).v) (hw : t.w = (g.write64 d act f).w) (hp : t.p = (g.write64 d act f).p)
    (hy : (t.y0, t.y1, t.y0v, t.y1v) = (((g.write64 d act f).push64 x d act f).y0, ((g.write64 d act f).push64 x d act f).y1,
      ((g.write64 d act f).push64 x d act f).y0v, ((g.write64 d act f).push64 x d act f).y1v)) : Wrote64 g t x act d f := by
  simp only [Prod.mk.injEq] at hy
  obtain ⟨h0, h1, h2, h3⟩ := hy
  have hf : g.write64 d act f = { g with v := (g.write64 d act f).v, w := (g.write64 d act f).w } := by
    rcases d with i | i | hi | i | i | i | _ | h | i <;> rfl
  have e0 : (g.write64 d act f).y0 = g.y0 := by rw [hf]
  have e1 : (g.write64 d act f).y1 = g.y1 := by rw [hf]
  have e2 : (g.write64 d act f).y0v = g.y0v := by rw [hf]
  have e3 : (g.write64 d act f).y1v = g.y1v := by rw [hf]
  refine ⟨fun file r l hl => ?_, ?_⟩
  · rw [← Group.write64_regsAfter g d act f hnp file r l hl]; exact Group.stored_congr hv hw hp file r l
  · unfold Pushed64
    by_cases hn : guardNever x = true
    · simp [hn, Group.push64, h0, h1, h2, h3, e0, e1, e2, e3]
    · rw [if_neg hn]
      simp only [Group.push64, hn, Bool.false_eq_true, if_false] at h0 h1 h2 h3
      refine ⟨h2, h3, fun l hl => ?_⟩
      rw [h0, h1, get_ySlot _ _ hl, get_ySlot _ _ hl]
      rcases d with i | i | hi | i | i | i | _ | h | i
      · simp [Group.holdsWord, hv]
      · simp [Group.holdsWord, hw]
      · exact ⟨rfl, rfl⟩
      · exact absurd rfl (hnp i)
      · exact absurd rfl (hd i)
      all_goals exact ⟨rfl, rfl⟩

/-- The end of a form that writes a quad and pushes nothing. -/
theorem Fe.done128_spec (s : State) (x : Guard) (d : Opnd) (f : Nat → Nat → Word) (hp : ∀ n, d ≠ .p n) :
    ∃ t, (s.fe x).done ((s.fe x).g.write128 d (s.fe x).act f) = .next t ∧ Result128 s t x d f := by
  refine ⟨_, rfl, ?_⟩
  have hc := s.cur_put x ((s.fe x).g.write128 d (s.fe x).act f).next
  unfold Result128
  rw [RegisterStep, hc, State.fe_g, State.fe_act]
  have hf : s.cur.write128 d (s.actOf x) f = { s.cur with
      v := (s.cur.write128 d (s.actOf x) f).v, w := (s.cur.write128 d (s.actOf x) f).w } := by
    rcases d with i | i | hi | i | i | i | _ | h | i <;> simp only [Group.write128, Group.writeWord]
  refine ⟨⟨rfl, fun _ => rfl, ?_⟩, ?_, ?_⟩
  · generalize s.cur.write128 d (s.actOf x) f = q at hf ⊢
    rw [hf]; rfl
  · intro file r l hl
    rw [← Group.write128_regsAfter s.cur d (s.actOf x) f hp file r l hl]
    exact Group.stored_congr rfl rfl rfl file r l
  · unfold YSame
    generalize s.cur.write128 d (s.actOf x) f = q at hf ⊢
    rw [hf]; exact ⟨rfl, rfl, rfl, rfl⟩

end Sys2Proof.Machine
end

