-- ==== Sys2Proof/Laws/Access.lean ====
section
/-!
SUPPORT. Accesses whose lanes need neither a fault nor a wait go on with their keys; what a store and its cells leave in memory.
-/

namespace Sys2Proof.Machine

/-- An ordered access that has nothing to wait for goes on. -/
theorem Fe.inOrder_ok {s : State} {x : Guard} {ord scope : Nat} {go : Out} (h : s.ordOk ord scope = true) :
    (s.fe x).inOrder ord scope go = go := by
  have h1 : (ord != 0 && (s.unperformed s.curCore s.curBlock scope || s.unseen s.curCore s.curBlock.slots scope)) = false := by
    rcases Bool.or_eq_true_iff.mp h with h1 | h1 <;> simp_all
  unfold Fe.inOrder
  change (if (ord != 0 && (s.unperformed s.curCore s.curBlock scope || s.unseen s.curCore s.curBlock.slots scope)) = true then _ else go) = go
  rw [h1]
  rfl

/-- An acquire that meets no notice goes on. -/
theorem Fe.acquires_ok {s : State} {x : Guard} {ord scope : Nat} {cells : List (Nat × Nat)} {go : Out} (h : s.acqOk ord scope cells = true) :
    (s.fe x).acquires ord scope cells go = go := by
  unfold State.acqOk at h
  rw [Bool.not_eq_true'] at h
  unfold Fe.acquires
  change (if (ord % 2 == 1 && s.notices.any (fun n => n.owed s.curCore scope && n.about cells)) = true then _ else go) = go
  rw [h]
  rfl

/-- An arrival that has nothing to wait for goes on. -/
theorem Fe.arrives_ok {s : State} {x : Guard} {scope : Nat} {go : Out} (h : s.arrivesOk scope = true) :
    (s.fe x).arrives scope go = go := by
  unfold State.arrivesOk at h
  rw [Bool.and_eq_true, Bool.not_eq_true', Bool.not_eq_true'] at h
  unfold Fe.arrives
  change (if (s.unperformedBy s.curCore [s.curSlot] scope || s.unseen s.curCore [s.curSlot] scope) = true then _ else go) = go
  rw [h.1, h.2]
  rfl

/-- What it means for a lane to be fine: it neither waits nor reaches absent memory while it counts, and its key is neither claimed nor,
where the access reads, poisoned. -/
theorem Xlat.fine_cases {s : State} {n : Nat} {reads helper : Bool} {x : Xlat} (h : x.fine s n reads helper = true) :
    x ≠ .wait ∧ x ≠ .held ∧ (helper = false → x.isBad = false ∧ x ≠ .absent) ∧
    ∀ k, x.key = some k → (s.dirEntry (lineOf k)).eq.isEmpty = true ∧ (reads && s.poisonAt k n) = false := by
  cases x <;> simp_all [Xlat.fine, Xlat.isBad, Xlat.key]
  rintro rfl
  simpa using h.2

/-- An outcome that is no wait stands whatever the host has refused. -/
theorem Fe.answered_of_ne {e : Fe} {va : Nat} {x : Xlat} (h : x ≠ .wait) : e.answered va x = x := if_neg (fun q => h q.1)

/-- Every lane of the mask is fine: the access goes on with the lanes' keys (R232). -/
theorem Fe.checked_ok {s : State} {x : Guard} {m : Mask} {n : Nat} {reads : Bool} {addr : Nat → Nat} {f : Nat → Xlat}
    {go : List (Nat × Option Nat) → Out} (h : s.lanesOk m n reads f = true) :
    (s.fe x).checked m n reads (fun l => (addr l, f l)) go = go (keysOf m f) := by
  have hl : ∀ l ∈ lanesOf m, (f l).fine s n reads ((s.cur.helpers s.curBlock).getLsbD l) = true := List.all_eq_true.mp h
  have hh : (s.fe x).g.helpers (s.fe x).b = s.cur.helpers s.curBlock := rfl
  have hs : (s.fe x).s = s := rfl
  unfold Fe.checked
  have hr : (lanesOf m).map (fun l => (l, addr l, (s.fe x).answered (addr l) (f l))) = (lanesOf m).map (fun l => (l, (addr l, f l))) :=
    List.map_congr_left (fun l hlm => by rw [Fe.answered_of_ne (Xlat.fine_cases (hl l hlm)).1])
  simp only [hh, hs, hr]
  set rs := (lanesOf m).map (fun l => (l, (addr l, f l))) with hrs
  have hmem : ∀ r ∈ rs, ∃ l ∈ lanesOf m, r = (l, (addr l, f l)) := by
    intro r hr
    obtain ⟨l, hlm, rfl⟩ := List.mem_map.mp hr
    exact ⟨l, hlm, rfl⟩
  have hw : rs.filter (fun r => r.2.2 == .wait) = [] := by
    rw [List.filter_eq_nil_iff]
    intro r hr
    obtain ⟨l, hlm, rfl⟩ := hmem r hr
    simpa using (Xlat.fine_cases (hl l hlm)).1
  have hd : rs.any (fun r => r.2.2 == .held) = false := by
    rw [List.any_eq_false]
    intro r hr
    obtain ⟨l, hlm, rfl⟩ := hmem r hr
    simpa using (Xlat.fine_cases (hl l hlm)).2.1
  have hbad : (rs.filter (fun r => !(s.cur.helpers s.curBlock).getLsbD r.1)).filter (fun r => r.2.2.isBad) = [] := by
    rw [List.filter_eq_nil_iff]
    intro r hr
    obtain ⟨hr1, hr2⟩ := List.mem_filter.mp hr
    obtain ⟨l, hlm, rfl⟩ := hmem r hr1
    simpa using ((Xlat.fine_cases (hl l hlm)).2.2.1 (by simpa using hr2)).1
  have ha : (rs.filter (fun r => !(s.cur.helpers s.curBlock).getLsbD r.1)).any (fun r => r.2.2 == .absent) = false := by
    rw [List.any_eq_false]
    intro r hr
    obtain ⟨hr1, hr2⟩ := List.mem_filter.mp hr
    obtain ⟨l, hlm, rfl⟩ := hmem r hr1
    simpa using ((Xlat.fine_cases (hl l hlm)).2.2.1 (by simpa using hr2)).2
  have he : (rs.filterMap (fun r => r.2.2.key)).any (Fe.checked.lineClaimed (s.fe x)) = false := by
    rw [List.any_eq_false]
    intro k hk
    obtain ⟨r, hr, hrk⟩ := List.mem_filterMap.mp hk
    obtain ⟨l, hlm, rfl⟩ := hmem r hr
    have := ((Xlat.fine_cases (hl l hlm)).2.2.2 k hrk).1
    simpa [Fe.checked.lineClaimed, State.fe_s] using this
  have hp : rs.find? (fun r => reads && r.2.2.key.any (fun k => s.poisonAt k n)) = none := by
    rw [List.find?_eq_none]
    intro r hr
    obtain ⟨l, hlm, rfl⟩ := hmem r hr
    have := (Xlat.fine_cases (hl l hlm)).2.2.2
    cases hk : (f l).key <;> simp_all
  rw [hw, hd, hbad, ha, he, hp]
  simp only [List.isEmpty_nil, Bool.not_true, Bool.false_eq_true, if_false]
  simp only [keysOf, hrs, List.filter_map, List.map_map]
  rfl

/-- A byte after `n` bytes have been written. -/
theorem SMap.get_writeBytes (m : SMap Byte) (k n v a : Nat) :
    SMap.get 0 (writeBytes m k n v) a = if k ≤ a ∧ a < k + n then BitVec.ofNat 8 (v / 256 ^ (a - k)) else SMap.get 0 m a := by
  split
  · rename_i h
    have := writeBytes_inside m k n v (a - k) (by omega)
    rw [show k + (a - k) = a by omega] at this
    rw [this, show (256 : Nat) = 2 ^ 8 by rfl, ← pow_mul]
  · exact writeBytes_outside m k n v a (by omega)

/-- The byte of memory after a store's cells. -/
theorem State.putCells_byte (s : State) (cells : List (Nat × Nat × Nat)) (a : Nat) :
    SMap.get 0 (s.putCells cells).mem a = storedByte cells a (SMap.get 0 s.mem a) := by
  induction cells generalizing s with
  | nil => rfl
  | cons c r ih =>
    unfold State.putCells at ih ⊢
    rw [List.foldl_cons, ih]
    have hm : ((s.wr c.1 c.2.1 c.2.2).cleanse c.1 c.2.1).mem = writeBytes s.mem c.1 c.2.1 c.2.2 := by
      unfold State.cleanse; split <;> rfl
    rw [hm, SMap.get_writeBytes]
    rfl

end Sys2Proof.Machine
end

