-- ==== Sys2Proof/Laws/Elements.lean ====
section
/-!
SUPPORT. What a firing of an element does: one law that every element form cites.
-/

namespace Sys2Proof.Machine

/-- A count of events changes nothing but the performance counters. -/
theorem Core.count_eq (c : Core) (code n : Nat) : c.count code n = { c with pmc := (c.count code n).pmc } := by
  unfold Core.count
  split <;> rfl

theorem State.setCore_core (s : State) (k j : Nat) (x : Core) : (s.setCore k x).core j = if j = k then x else s.core j := by
  simp only [State.setCore, State.core, SMap.get_set]
  split <;> simp_all [eq_comm]

/-- Tokens sent one after the other join the hops in order. -/
theorem Core.send_all (f : Firing) (l : List (Nat × Token)) (c : Core) :
    l.foldl (fun (c : Core) q => c.send (f.out q.1) q.2) c = { c with hops := c.hops ++ f.sent l } := by
  induction l generalizing c with
  | nil => simp [Firing.sent]
  | cons q r ih =>
    rw [List.foldl_cons, ih]
    cases hq : f.out q.1 <;> simp [Core.send, Firing.sent, hq]

/-- Channels dequeued one after the other. -/
theorem Element.deq_all (l : List Nat) (e : Element) :
    l.foldl (fun (e : Element) n => e.setChan n (e.chan n).deq) e = { e with chans := (l.foldl (fun (e : Element) n => e.setChan n (e.chan n).deq) e).chans } ∧
    ∀ n, (l.foldl (fun (e : Element) n => e.setChan n (e.chan n).deq) e).chan n = Nat.repeat Channel.deq (l.count n) (e.chan n) := by
  induction l generalizing e with
  | nil => exact ⟨rfl, fun n => rfl⟩
  | cons m r ih =>
    simp only [List.foldl_cons]
    obtain ⟨h1, h2⟩ := ih (e.setChan m (e.chan m).deq)
    refine ⟨h1, fun n => ?_⟩
    rw [h2 n]
    simp only [Element.setChan, Element.chan, SMap.get_set, List.count_cons]
    by_cases hm : m = n
    · subst hm
      have : ∀ k (a : Channel), Nat.repeat Channel.deq k a.deq = Nat.repeat Channel.deq (k + 1) a := by
        intro k a
        induction k with
        | zero => rfl
        | succ k ih => simp only [Nat.repeat] at ih ⊢; rw [ih]
      simp [this]
    · simp [hm, beq_iff_eq]

theorem State.fire_idle {s : State} {m : ElemForm} {x : ElemWord} (h : m.ready (s.firing s.curCore s.curElem s.curElemSlot x) = none) :
    s.fire m x = .next s := by
  simp only [State.fire, h]

/-- The element after a firing. -/
def Firing.fired (f : Firing) (m : ElemForm) (r : Effect) (chs : SMap Channel) : Element :=
  { f.e with
    chans := chs
    ctxs := SMap.set {} f.e.ctxs f.k { r.t with hdr := m.header f }
    ptr := f.k
    wcount := SMap.set 0 f.e.wcount f.slot 0
    mlast := match r.mlast with
      | some b => (f.e.mlast &&& ~~~(1#16 <<< f.slot)) ||| (if b then 1#16 <<< f.slot else 0)
      | none => f.e.mlast }

/-- A firing changes of its core only the element, the hops, the counters, the probes and the count tokens of its block. -/
theorem ElemForm.apply_eq {m : ElemForm} {f : Firing} {r : Effect} (s : State) (h2 : m.typeFault f = none)
    (h3 : m.stickyFault f r.deqs = none) :
    ∃ chs pmc probes blocks, (∀ n, SMap.get {} chs n = Nat.repeat Channel.deq (r.deqs.count n) (f.e.chan n)) ∧
      m.apply f r s = s.setCore f.core { (s.core f.core) with
        elems := SMap.set {} (s.core f.core).elems f.ei (f.fired m r chs)
        pmc := pmc
        probes := probes
        blocks := blocks
        hops := (s.core f.core).hops ++ f.sent r.sends } := by
  obtain ⟨d1, d2⟩ := Element.deq_all r.deqs f.e
  generalize hE : r.deqs.foldl (fun (e : Element) n => e.setChan n (e.chan n).deq) f.e = E at d1 d2
  have d3 : ∀ n, SMap.get {} E.chans n = Nat.repeat Channel.deq (r.deqs.count n) (f.e.chan n) := d2
  unfold ElemForm.apply
  rw [h2]
  simp only []
  rw [h3]
  simp only [hE]
  rw [Core.count_eq]
  generalize (((s.core f.core).setElem f.ei _).count 4 1).pmc = pmc
  rw [Core.send_all]
  rw [d1]
  by_cases h0 : r.sat + r.nan = 0
  · rw [if_pos h0]
    exact ⟨_, pmc, _, _, d3, rfl⟩
  · rw [if_neg h0]
    exact ⟨_, pmc, _, _, d3, rfl⟩

/-- What a firing does (R190). -/
theorem State.fire_goes {s : State} {m : ElemForm} {x : ElemWord} {r : Effect} {f : Firing}
    (hf : f = s.firing s.curCore s.curElem s.curElemSlot x) (h : m.goes f r) :
    ∃ t chs, s.fire m x = .next t ∧ MemorySame s t ∧ GroupsSame s t ∧ ElemsSame s t s.curCore s.curElem ∧
      (t.core s.curCore).elem s.curElem = f.fired m r chs ∧
      (∀ n, SMap.get {} chs n = Nat.repeat Channel.deq (r.deqs.count n) (f.e.chan n)) ∧ (t.core s.curCore).hops = f.c.hops ++ f.sent r.sends := by
  obtain ⟨h1, h2, h3⟩ := h
  obtain ⟨chs, pmc, probes, blocks, hc, ha⟩ := ElemForm.apply_eq s h2 h3
  have e1 : f.core = s.curCore := by rw [hf]; rfl
  have e2 : f.ei = s.curElem := by rw [hf]; rfl
  have e3 : f.c = s.core s.curCore := by rw [hf]; rfl
  rw [e1, e2] at ha
  refine ⟨m.apply f r s, chs, ?_, ?_, ?_, ?_, ?_, hc, ?_⟩
  · unfold State.fire
    simp only [← hf, h1]
  · rw [ha]; exact fun _ => rfl
  · rw [ha]
    intro c i
    simp only [State.group, State.setCore_core]
    split
    · rename_i hk; subst hk; rfl
    · rfl
  · rw [ha]
    intro c i hne
    rw [State.setCore_core]
    split
    · rename_i hk; subst hk
      simp only [Core.elem, SMap.get_set]
      split
      · rename_i hi; subst hi; exact absurd rfl hne
      · rfl
    · rfl
  · rw [ha, State.setCore_core, if_pos rfl]
    simp [Core.elem]
  · rw [ha, State.setCore_core, if_pos rfl, e3]

end Sys2Proof.Machine
end

