-- ==== Sys2Proof/Laws/Memory.lean ====
section
/-!
SUPPORT. Every operation over memory keeps its canonical form; the operations over the rest of the state leave memory as it is.
-/

namespace Sys2Proof.Machine

/-- A state keeps the canonical form where its memory is another's. -/
theorem State.memoryWf_of_mem {s t : State} (h : t.mem = s.mem) (hs : s.memoryWf) : t.memoryWf := by
  unfold State.memoryWf at *
  rw [h]
  exact hs

/-- Memory right after reset is in canonical form: nothing is listed. -/
theorem State.reset_memoryWf : State.reset.memoryWf := rfl

/-- A reset keeps the canonical form. -/
theorem execReset_memoryWf {s : State} (h : s.memoryWf) : ∃ t, execReset s = .next t ∧ t.memoryWf :=
  ⟨_, rfl, SMap.wf_filter _ h⟩

/-! ## Writes -/

theorem State.wr_memoryWf {s : State} (pa n v : Nat) (h : s.memoryWf) : (s.wr pa n v).memoryWf := writeBytes_wf pa n v h

@[simp] theorem State.cleanse_mem (s : State) (k n : Nat) : (s.cleanse k n).mem = s.mem := by
  unfold State.cleanse; split <;> rfl

theorem State.putCells_memoryWf {s : State} (cells : List (Nat × Nat × Nat)) (h : s.memoryWf) : (s.putCells cells).memoryWf := by
  unfold State.putCells
  induction cells generalizing s with
  | nil => exact h
  | cons c r ih => exact ih (State.memoryWf_of_mem (State.cleanse_mem _ _ _) (State.wr_memoryWf _ _ _ h))

@[simp] theorem State.ordered_mem (s : State) (core slot : Nat) (kit : Option Nat) (cells : List (Nat × Nat)) (self : Option (Nat × Nat)) :
    (s.ordered core slot kit cells self).mem = s.mem := by
  cases kit <;> rfl

theorem State.storeCells_memoryWf {s : State} (core slot ch : Nat) (cells : List (Nat × Nat × Nat)) (h : s.memoryWf) :
    (s.storeCells core slot ch cells).memoryWf :=
  State.memoryWf_of_mem (State.ordered_mem _ _ _ _ _ _) (State.putCells_memoryWf cells h)

@[simp] theorem State.setMarks_mem (s : State) (core blk off : Nat) (m : Marks) : (s.setMarks core blk off m).mem = s.mem := rfl

/-- A fold of steps that each leave memory leaves memory. -/
theorem foldl_mem {α : Type} (f : State → α → State) (hf : ∀ s a, (f s a).mem = s.mem) (l : List α) (s : State) :
    (l.foldl f s).mem = s.mem := by
  induction l generalizing s with
  | nil => rfl
  | cons a r ih => rw [List.foldl_cons, ih, hf]

@[simp] theorem State.deliverNotice_mem (s : State) (n : Notice) : (s.deliverNotice n).mem = s.mem := by
  unfold State.deliverNotice
  simp only
  split
  · rfl
  · refine foldl_mem _ (fun s o => ?_) _ _
    split <;> rfl

@[simp] theorem State.deliverAll_mem (s : State) (w : Nat) : (s.deliverAll w).mem = s.mem :=
  foldl_mem State.deliverNotice State.deliverNotice_mem _ _

/-- A write of an agent outside the cores. -/
theorem State.outsideWrite_memoryWf {s : State} (addr : Nat) (l : List Byte) (h : s.memoryWf) : (s.outsideWrite addr l).memoryWf := by
  refine State.memoryWf_of_mem (s := { s with mem := writeList s.mem addr l }) ?_ (writeList_wf addr l h)
  simp [State.outsideWrite]

/-- A write of the hub, at once or waiting. -/
theorem State.hubWrite_memoryWf {s : State} (k : Nat) (l : List Byte) (h : s.memoryWf) : (s.hubWrite k l).memoryWf := by
  unfold State.hubWrite
  split
  · exact h
  · exact State.outsideWrite_memoryWf k l h

/-- The hub's waiting writes. -/
theorem State.retryHub_memoryWf (l : List (Nat × List Byte)) {s : State} (h : s.memoryWf) : (State.retryHub l s).memoryWf := by
  induction l generalizing s with
  | nil => exact h
  | cons q r ih => exact ih (State.hubWrite_memoryWf q.1 q.2 h)

/-- The release of engine claims. -/
theorem State.releaseClaims_memoryWf {s : State} (core : Nat) (ops : List Nat) (h : s.memoryWf) : (s.releaseClaims core ops).memoryWf :=
  State.retryHub_memoryWf _ h

/-- A write of the hub over ranges. -/
theorem State.hubPut_memoryWf {s : State} (r : List (EAddr × Nat)) (l : List Byte) (h : s.memoryWf) : (s.hubPut r l).memoryWf := by
  induction r generalizing s l with
  | nil => exact h
  | cons p r ih =>
    obtain ⟨a, n⟩ := p
    unfold State.hubPut
    refine ih _ ?_
    cases a <;> first | exact h | exact State.outsideWrite_memoryWf _ _ h

/-! ## Fault records and the journal (R336, R338) -/

@[simp] theorem State.giveSeq_mem (s : State) (r : FaultRec) (seq : Dword) : (s.giveSeq r seq).mem = s.mem := by
  unfold State.giveSeq
  simp only
  split <;> simp

theorem State.ringWrite_memoryWf {s : State} (part : Nat) (r : FaultRec) (h : s.memoryWf) : (s.ringWrite part r).memoryWf :=
  State.memoryWf_of_mem (by simp [State.ringWrite]) (State.hubWrite_memoryWf (s.ringKey part) (bytesOf 64 (r.bytes ((s.part part).fqw.toNat + 1))) h)

theorem State.postFault_memoryWf {s : State} (part core : Nat) (r : FaultRec) (h : s.memoryWf) : (s.postFault part core r).memoryWf := by
  unfold State.postFault
  simp only
  split
  · exact State.ringWrite_memoryWf _ _ h
  · split
    · exact h
    · split <;> exact h

/-- Taking a group-precise fault keeps the canonical form. -/
theorem State.raise_memoryWf {s : State} (core slot : Nat) (f : GFault) (h : s.memoryWf) : (s.raise core slot f).memoryWf := by
  unfold State.raise
  exact State.postFault_memoryWf _ _ _ (State.memoryWf_of_mem (State.setGroup_mem _ _ _ _) h)

theorem State.coreFault_memoryWf {s : State} (core blk cause sub addr detail : Nat) (h : s.memoryWf) :
    (s.coreFault core blk cause sub addr detail).memoryWf := by
  unfold State.coreFault
  exact State.postFault_memoryWf _ _ _ (State.memoryWf_of_mem (State.setCore_mem _ _ _) h)

theorem State.drainFaults_memoryWf {s : State} (part n : Nat) (h : s.memoryWf) : (s.drainFaults part n).memoryWf := by
  induction n generalizing s with
  | zero => exact h
  | succ n ih =>
    unfold State.drainFaults
    split
    · exact h
    · split
      · exact h
      · split
        · exact h
        · refine ih ?_
          rename_i d _ _ r rest _
          have h1 : ∀ x : State, x.mem = s.mem → (x.ringWrite part r).memoryWf :=
            fun x hx => State.ringWrite_memoryWf part r (State.memoryWf_of_mem hx h)
          have h2 := h1 { s with overflow := SMap.set [] s.overflow d rest } rfl
          generalize State.ringWrite { s with overflow := SMap.set [] s.overflow d rest } part r = x at h2 ⊢
          split
          · split
            · exact h2
            · exact State.memoryWf_of_mem (s := x) rfl h2
          · exact h2

theorem State.journalRaw_memoryWf {s : State} (q ver st typ reason flags part : Nat) (ridx : Dword) (data : Nat) (h : s.memoryWf) :
    (s.journalRaw q ver st typ reason flags part ridx data).memoryWf := by
  unfold State.journalRaw
  extract_lets seq r o s1 m s2
  have h1 : s1.memoryWf := State.hubWrite_memoryWf _ _ h
  have h2 : s2.memoryWf := by
    simp only [s2]
    split
    · exact h1
    · exact State.hubWrite_memoryWf _ _ h1
  exact h2

theorem State.carry_memoryWf {s : State} (n : Nat) (h : s.memoryWf) : (s.carry n).memoryWf := by
  induction n generalizing s with
  | zero => exact h
  | succ n ih =>
    unfold State.carry
    split
    · exact ih (State.journalRaw_memoryWf _ _ _ _ _ _ _ _ _ h)
    · exact h

theorem State.journal_memoryWf {s : State} (id : Nat) (st : JState) (reason data : Nat) (h : s.memoryWf) :
    (s.journal id st reason data).memoryWf :=
  State.journalRaw_memoryWf _ _ _ _ _ _ _ _ _ (State.carry_memoryWf _ h)

/-! ## The commit pool (R222, R225, R226) -/

@[simp] theorem State.shootdown_mem (s : State) (p a va n : Nat) (ptrs : Bool) : (s.shootdown p a va n ptrs).mem = s.mem := rfl

/-- Writing an entry of a page table. -/
theorem Fe.setEntry_memoryWf (e : Fe) {s : State} (addr v : Nat) (h : s.memoryWf) : (e.setEntry s addr v).memoryWf :=
  State.memoryWf_of_mem (s := s.putCells [(addr, 8, v)]) (by simp [Fe.setEntry]) (State.putCells_memoryWf _ h)

@[simp] theorem State.frameWritten_mem (s : State) (core slot f : Nat) : (s.frameWritten core slot f).mem = s.mem := by
  unfold State.frameWritten
  extract_lets s0 s1
  have h0 : s0.mem = s.mem := rfl
  have h1 : s1.mem = s0.mem := by
    simp only [s1, State.deliverAll_mem, State.ordered_mem]
  exact h1.trans h0

/-- What a released frame holds is lost. -/
theorem Fe.loseFrame_memoryWf (e : Fe) {s : State} (f : Nat) (h : s.memoryWf) : (e.loseFrame s f).memoryWf := by
  unfold Fe.loseFrame
  extract_lets s1
  split
  · exact h
  · have h1 : s1.memoryWf := State.memoryWf_of_mem (State.frameWritten_mem _ _ _ _) h
    simp only [State.memoryWf]
    exact writeBytes_wf _ _ _ h1

/-- A frame goes back to the pool's ring. -/
theorem State.poolReturn_memoryWf {s : State} (part f : Nat) (h : s.memoryWf) : (s.poolReturn part f).memoryWf :=
  State.memoryWf_of_mem (by simp [State.poolReturn]) (State.hubWrite_memoryWf (s.poolKey part (s.part part).poolW) (bytesOf 8 f) h)

end Sys2Proof.Machine
end

