-- ==== Sys2Proof/Laws/Fills.lean ====
section
/-!
SUPPORT. The fills of windows write scratchpads, marks and directory entries, and leave memory as it is; so do the reads
of lines and of windows, which tell homes, notices and counters (R267, R283, R297, R426).
-/

namespace Sys2Proof.Machine

@[simp] theorem State.spWrite_mem (s : State) (core blk off n v : Nat) : (s.spWrite core blk off n v).mem = s.mem := by
  simp [State.spWrite]

@[simp] theorem State.carryPoison_mem (s : State) (k : Nat) (bad whole : Bool) : (s.carryPoison k bad whole).mem = s.mem := by
  unfold State.carryPoison
  split
  · rfl
  · split <;> simp

@[simp] theorem State.fillWord_mem (s : State) (core blk off : Nat) (k : Option Nat) : (s.fillWord core blk off k).mem = s.mem := by
  unfold State.fillWord
  simp only
  split
  · rfl
  · rw [State.setMarks_mem, State.carryPoison_mem]
    refine foldl_mem _ (fun s i => ?_) _ _
    split
    · rfl
    · exact State.spWrite_mem _ _ _ _ _ _

@[simp] theorem State.setDir_mem (s : State) (line : Nat) (d : DirEntry) : (s.setDir line d).mem = s.mem := rfl

@[simp] theorem State.evictSharer_mem (s : State) (line : Nat) : (s.evictSharer line).mem = s.mem := by
  unfold State.evictSharer
  simp only
  split
  · split <;> simp
  · rfl

@[simp] theorem State.register_mem (s : State) (core wid k n : Nat) : (s.register core wid k n).mem = s.mem := by
  unfold State.register; simp

@[simp] theorem State.fill_mem (s : State) (core blk : Nat) (w : Window) (off : Nat) (k : Option Nat) :
    (s.fill core blk w off k).mem = s.mem := by
  have h : ∀ (f : Nat → Option Nat), ((List.range 8).foldl (fun (s : State) i => s.fillWord core blk (w.sector off + 4 * i) (f i)) s).mem = s.mem :=
    fun f => foldl_mem _ (fun s i => State.fillWord_mem _ _ _ _ _) _ _
  unfold State.fill
  simp only
  split
  · rw [State.register_mem, h]
  · exact h _

@[simp] theorem State.fillFor_mem (s : State) (core blk n a : Nat) (k : Option Nat) : (s.fillFor core blk n a k).mem = s.mem := by
  unfold State.fillFor
  split
  · split <;> simp
  · rfl

/-- The fills of an access leave memory. -/
@[simp] theorem State.fillAll_mem (s : State) (core blk n : Nat) (addr : Nat → Nat) (lanes : List (Nat × Option Nat)) :
    (s.fillAll core blk n addr lanes).mem = s.mem :=
  foldl_mem _ (fun _ _ => State.fillFor_mem _ _ _ _ _ _) _ _

/-- The fills that a trial leaves behind leave memory (R274). -/
@[simp] theorem State.keepFills_mem (s t : State) (core blk : Nat) : (s.keepFills t core blk).mem = s.mem := by
  unfold State.keepFills
  refine foldl_mem _ (fun s w => ?_) _ _
  refine foldl_mem _ (fun s i => ?_) _ _
  simp only
  split <;> simp

/-! ## Reads -/

@[simp] theorem State.countMisses_mem (s : State) (kit : Nat) (lines : List Nat) : (s.countMisses kit lines).mem = s.mem := rfl

@[simp] theorem State.woken_mem (s : State) (kits : List Nat) : (s.woken kits).mem = s.mem := rfl

@[simp] theorem State.kitReads_mem (s : State) (kit : Nat) (lines : List Nat) : (s.kitReads kit lines).mem = s.mem := rfl

@[simp] theorem State.observe_mem (s : State) (core slot : Nat) (cells : List (Nat × Nat)) : (s.observe core slot cells).mem = s.mem := rfl

/-- A load that reaches the homes of its lines leaves memory. -/
@[simp] theorem State.loadLines_mem (s : State) (core slot ch : Nat) (cells : List (Nat × Nat)) : (s.loadLines core slot ch cells).mem = s.mem := by
  unfold State.loadLines
  simp only
  split <;> simp

@[simp] theorem State.observeLocal_mem (s : State) (core slot blk n a : Nat) : (s.observeLocal core slot blk n a).mem = s.mem := by
  unfold State.observeLocal
  split <;> rfl

/-- A scratchpad access that performs leaves memory. -/
@[simp] theorem State.localTaken_mem (s : State) (core slot blk : Nat) (k : LocalKind) (n : Nat) (addr : Nat → Nat) (ls : List Nat) :
    (s.localTaken core slot blk k n addr ls).mem = s.mem := by
  unfold State.localTaken
  simp only [State.setCore_mem]
  split
  · exact foldl_mem _ (fun s l => State.observeLocal_mem s core slot blk n (addr l)) ls s
  · rfl

end Sys2Proof.Machine
end

