-- ==== Sys2Proof/Tests/Slice0.lean ====
section
/-!
SUPPORT. Tests: words of the spec's own examples decode, each check of a word refuses an ill-formed one, worked results of the spec, and
for every obligation with hypotheses a state that meets them.
-/

open Sys2Proof Sys2Proof.Machine

namespace Sys2Proof.Tests

set_option Elab.async false

/-! ## Formats and small states -/

/-- The guard that always holds. -/
def yes : Guard := ⟨false, 7⟩
/-- Format R with v2, v0 and v1. -/
def r : FmtR := ⟨yes, .v 2, .v 0, .v 1, 0, 0⟩
/-- Format R with B reserved. -/
def r1 : FmtR := { r with b := .v 0 }
/-- Format R without operands. -/
def r0 : FmtR := ⟨yes, .v 0, .v 0, .v 0, 0, 0⟩
/-- Format R with register pairs. -/
def rp : FmtR := ⟨yes, .v 2, .v 4, .v 6, 0, 0⟩
/-- Format R with three sources. -/
def r3 : FmtR3 := ⟨yes, .v 2, .v 0, .v 1, .v 3, 0⟩
/-- Format I with 5. -/
def ri : FmtI := ⟨yes, .v 2, .v 0, 5⟩
/-- Format M with v2, a pair at v0 and 32 bits. -/
def rm : FmtM := ⟨yes, .v 2, .v 0, 0, 0x400⟩
/-- Format B one word on. -/
def rb : FmtB := ⟨yes, .v 0, .v 0, 1⟩
/-- Format S. -/
def rs : FmtS := ⟨yes, .v 2, .v 0, 0x028, 0, 0⟩

/-- A kernel of four threads. -/
def kernel : KDesc :=
  { entry := 0x40000
    regs := 64
    block := 4
    headroom := 1
    shares := 12
    scratch := 65536
    l1slice := 64
    lane := 256
    reducedOk := true }
/-- The four threads of a block stand in lanes 0 to 3; v0 holds 0, 64, 128 and 192. -/
def group : Group :=
  { st := .running
    home := some 0
    pc := 0x40000
    m := 0xF
    exitm := 0xFFFFFFF0
    tids := [(0, 1), (1, 2), (2, 3), (3, 4)]
    v := [(1, 64), (2, 128), (3, 192)] }
/-- Their block. -/
def block : Block :=
  { kd := kernel
    bx := 4
    n := 1
    h := 1
    hslot := [0]
    slots := [0]
    ngrp := 1
    threads := [(0, ⟨true, 0, 0⟩), (1, ⟨true, 0, 1⟩), (2, ⟨true, 0, 2⟩), (3, ⟨true, 0, 3⟩)] }
/-- A core with one block of one group. -/
def core : Core :=
  { groups := [(0, group)]
    blocks := [(0, block)] }
/-- The page at address 0, and one at 0x40000, mapped with R, W and X; one at 0x50000 in host memory. -/
def maps : List TlbEntry :=
  [{ level := 0, owner := 0, asid := 0, va := 0, bytes := 65536, entry := 0x100E2 },
   { level := 0, owner := 0, asid := 0, va := 0x40000, bytes := 65536, entry := 0x200E2 }]
/-- The device in its full service with that core. -/
def stateOf (c : Core) : State := { State.reset with
  devstate := 2
  dieok := 1
  cores := [(0, c)]
  tlb := maps
  parts := [(0, { dies := [0] })] }
/-- The same with another group. -/
def withGroup (g : Group) : State := stateOf { core with groups := [(0, g)] }
/-- The same with another block. -/
def withBlock (b : Block) : State := stateOf { core with blocks := [(0, b)] }
/-- The plain state. -/
def plain : State := stateOf core
/-- The state that an outcome leads to. -/
def after (o : Host.Outcome State Fault Refusal) : State :=
  match o with
  | .next t => t
  | _ => State.reset

/-! ## Words that the spec writes out (R51 to R65) -/

theorem test_decode_ld : decodeWord 0xA070114200040400 = .ok (.ld ⟨yes, .v 4, .k 2, 0x40, 0x400⟩) := rfl
theorem test_decode_iadd_xor : decodeWord 0x10B01B0200F84000 = .ok (.iadd ⟨⟨true, 3⟩, .v 6, .xl 2, .v 3, 0x384, 0⟩) := rfl
theorem test_decode_icmp : decodeWord 0x3474440451800900 = .ok (.icmp ⟨yes, .p 1, .v 4, .k 6, 0, 0x900⟩) := rfl
theorem test_decode_movk : decodeWord 0x3A75200000004000 = .ok (.movk ⟨yes, .k 8, .v 0, 0x4000⟩) := rfl
theorem test_decode_segred : decodeWord 0x94701C0644804000 = .ok (.segred ⟨yes, .v 7, .v 6, .p 2, 4, 0⟩) := rfl
theorem test_decode_bra : decodeWord 0x01100000FFFFFFFA = .ok (.bra ⟨⟨false, 1⟩, .v 0, .v 0, 0xFFFFFFFA⟩) := rfl
theorem test_decode_rdsr : decodeWord 0x0E701C0002800000 = .ok (.rdsr ⟨yes, .v 7, .v 0, 0x28, 0, 0⟩) := rfl
theorem test_decode_ldnf : decodeWord 0xA540240C00010400 = .ok (.ldnf ⟨⟨false, 4⟩, .v 9, .v 12, 0x10, 0x400⟩) := rfl
theorem test_decode_atadd : decodeWord 0xA770180201C005B0 = .ok (.atadd ⟨yes, .v 6, .v 2, .v 7, 0, 0x5B0⟩) := rfl
theorem test_decode_fence : decodeWord 0xB9700000000001B0 = .ok (.fence ⟨yes, .v 0, .v 0, 0, 0x1B0⟩) := rfl
theorem test_decode_lds : decodeWord 0xC070140200040400 = .ok (.lds ⟨yes, .v 5, .v 2, 0x40, 0x400⟩) := rfl
theorem test_decode_wmap : decodeWord 0xCA7B0D4451400001 = .ok (.wmap ⟨yes, .hnd (.win 3), .k 4, .k 5, 0, 1⟩) := rfl
theorem test_decode_pgcommit : decodeWord 0xD070201400000000 = .ok (.pgcommit ⟨yes, .v 8, .v 20, .v 0, 0, 0⟩) := rfl
theorem test_decode_gresume : decodeWord 0xD870080852800001 = .ok (.gresumeSkip ⟨yes, .v 2, .v 8, .k 10, 0, 1⟩) := rfl
theorem test_decode_cpy32 : decodeWord 0xDC7AE80401808000 = .ok (.cpy32 ⟨yes, .hnd (.tg 2), .v 4, .v 6, .v 8, 0⟩) := rfl
theorem test_decode_gath : decodeWord 0xE370294400C00400 = .ok (.gath ⟨yes, .v 10, .k 4, .v 3, 0, 0x400⟩) := rfl
theorem test_decode_cvdecl : decodeWord 0xEF7A858C00000000 = .ok (.cvdecl ⟨yes, .hnd (.cv 1), .const 12, .v 0, 0, 0⟩) := rfl
theorem test_decode_mma :
    decodeWord 0xF07ACA84A16A1800 = .ok (.mma ⟨yes, .hnd (.acc 2), .hnd (.ob 4), .hnd (.ob 5), .hnd (.cv 1), 0x800⟩) := rfl
theorem test_decode_bar : decodeWord 0xF67815FF00000000 = .ok (.barSync ⟨yes, .hnd (.bar 5), .discard, .v 0, 0, 0⟩) := rfl
theorem test_decode_bar_arrive : decodeWord 0xF678154700000001 = .ok (.barArrive ⟨yes, .hnd (.bar 5), .k 7, .v 0, 0, 1⟩) := rfl
theorem test_decode_regroup : decodeWord 0xF870000C00000002 = .ok (.regroup ⟨yes, .v 0, .v 12, .v 0, 0, 2⟩) := rfl
theorem test_decode_regroupb : decodeWord 0xF970000000000000 = .ok (.regroupb r0) := rfl
theorem test_decode_fxload : decodeWord 0xFA700D4800000001 = .ok (.fxload ⟨yes, .v 3, .k 8, .v 0, 0, 1⟩) := rfl
theorem test_decode_fxparam : decodeWord 0xFD70000600000009 = .ok (.fxparam ⟨yes, .v 0, .v 6, .v 0, 0, 9⟩) := rfl

/-! ## Words of every constructor, laid out by R52, R53, R58, R61, R63 and R65 -/

/-- Words of the control forms. -/
def wordsControl : List (BitVec 64 × Instr) :=
  [(0x0170000080000003, .bra ⟨yes, .v 0, .v 0, 0x80000003⟩), (0x0270001200000000, .brx ⟨yes, .v 0, .v 18, .v 0, 0x0, 0x0⟩),
   (0x0370280000000005, .call ⟨yes, .v 10, .v 0, 0x5⟩), (0x0470294600000000, .callx ⟨yes, .v 10, .k 6, .v 0, 0x0, 0x0⟩),
   (0x05702812FFFF86B0, .calll ⟨yes, .v 10, .v 18, 0xffff8, 0x6b0⟩), (0x0670014600000000, .ret ⟨yes, .v 0, .k 6, .v 0, 0x0, 0x0⟩),
   (0x0770000000000000, .exit ⟨yes, .v 0, .v 0, .v 0, 0x0, 0x0⟩), (0x0870000000000009, .rcv ⟨yes, .v 0, .v 0, 0x9⟩),
   (0x0970000000000000, .join ⟨yes, .v 0, .v 0, .v 0, 0x0, 0x0⟩), (0x0A70000000000007, .loophint ⟨yes, .v 0, .v 0, 0x7⟩),
   (0x0B700000000000C8, .trap ⟨yes, .v 0, .v 0, 0xc8⟩), (0x0C7000000000BEEF, .bkpt ⟨yes, .v 0, .v 0, 0xbeef⟩),
   (0x0D70000000000000, .nop ⟨yes, .v 0, .v 0, .v 0, 0x0, 0x0⟩), (0x0E70240005005000, .rdsr ⟨yes, .v 9, .v 0, 0x50, 0x5, 0x0⟩),
   (0x0F70001105201000, .wrsr ⟨yes, .v 0, .v 17, 0x52, 0x1, 0x0⟩)]

theorem test_words_Control : wordsControl.map (fun p => decodeWord p.1) = wordsControl.map (fun p => .ok p.2) := rfl

/-- Words of the integer forms. -/
def wordsInteger : List (BitVec 64 × Instr) :=
  [(0x1070241140C00C00, .iadd ⟨yes, .v 9, .v 17, .w 3, 0x0, 0xc00⟩), (0x1170241140C00C00, .isub ⟨yes, .v 9, .v 17, .w 3, 0x0, 0xc00⟩),
   (0x1270241140C00000, .imul ⟨yes, .v 9, .v 17, .w 3, 0x0, 0x0⟩), (0x2070241140C00000, .and ⟨yes, .v 9, .v 17, .w 3, 0x0, 0x0⟩),
   (0x2170241140C00000, .or ⟨yes, .v 9, .v 17, .w 3, 0x0, 0x0⟩), (0x2270241140C00000, .xor ⟨yes, .v 9, .v 17, .w 3, 0x0, 0x0⟩),
   (0x2370241140C00000, .andn ⟨yes, .v 9, .v 17, .w 3, 0x0, 0x0⟩), (0x2870241140C00000, .rot ⟨yes, .v 9, .v 17, .w 3, 0x0, 0x0⟩),
   (0x1370241140C00800, .imulh ⟨yes, .v 9, .v 17, .w 3, 0x0, 0x800⟩), (0x1870241140C00800, .idiv ⟨yes, .v 9, .v 17, .w 3, 0x0, 0x800⟩),
   (0x1970241140C00800, .irem ⟨yes, .v 9, .v 17, .w 3, 0x0, 0x800⟩), (0x1A70241140C00800, .imin ⟨yes, .v 9, .v 17, .w 3, 0x0, 0x800⟩),
   (0x1B70241140C00800, .imax ⟨yes, .v 9, .v 17, .w 3, 0x0, 0x800⟩), (0x3170241140C00800, .bfx ⟨yes, .v 9, .v 17, .w 3, 0x0, 0x800⟩),
   (0x1570281251800C00, .iadd64 ⟨yes, .v 10, .v 18, .k 6, 0x0, 0xc00⟩), (0x1670281251800C00, .isub64 ⟨yes, .v 10, .v 18, .k 6, 0x0, 0xc00⟩),
   (0x1470241140D45000, .imad ⟨yes, .v 9, .v 17, .w 3, .k 5, 0x0⟩), (0x1770281140D46800, .imad64 ⟨yes, .v 10, .v 17, .w 3, .k 6, 0x800⟩),
   (0x1C70241100000400, .iabs ⟨yes, .v 9, .v 17, .v 0, 0x0, 0x400⟩), (0x1D70241100000400, .ineg ⟨yes, .v 9, .v 17, .v 0, 0x0, 0x400⟩),
   (0x1E70241140D45800, .isad ⟨yes, .v 9, .v 17, .w 3, .k 5, 0x800⟩), (0x1F70241140D45A80, .iaddc ⟨yes, .v 9, .v 17, .w 3, .k 5, 0xa80⟩),
   (0x2470241100000000, .not ⟨yes, .v 9, .v 17, .v 0, 0x0, 0x0⟩), (0x2D70241100000000, .popc ⟨yes, .v 9, .v 17, .v 0, 0x0, 0x0⟩),
   (0x2E70241100000000, .clz ⟨yes, .v 9, .v 17, .v 0, 0x0, 0x0⟩), (0x2F70241100000000, .ctz ⟨yes, .v 9, .v 17, .v 0, 0x0, 0x0⟩),
   (0x3070241100000000, .brev ⟨yes, .v 9, .v 17, .v 0, 0x0, 0x0⟩), (0x3870241100000000, .mov ⟨yes, .v 9, .v 17, .v 0, 0x0, 0x0⟩),
   (0x2570241140C00200, .shl ⟨yes, .v 9, .v 17, .w 3, 0x0, 0x200⟩), (0x2670241140C00200, .shr ⟨yes, .v 9, .v 17, .w 3, 0x0, 0x200⟩),
   (0x2770241140C00200, .sar ⟨yes, .v 9, .v 17, .w 3, 0x0, 0x200⟩), (0x2970241140D45200, .fshl ⟨yes, .v 9, .v 17, .w 3, .k 5, 0x200⟩),
   (0x2A70241140D45200, .fshr ⟨yes, .v 9, .v 17, .w 3, .k 5, 0x200⟩), (0x2B70281240C00200, .shl64 ⟨yes, .v 10, .v 18, .w 3, 0x0, 0x200⟩),
   (0x2C70281240C00A00, .shr64 ⟨yes, .v 10, .v 18, .w 3, 0x0, 0xa00⟩), (0x3270241140D45000, .bfi ⟨yes, .v 9, .v 17, .w 3, .k 5, 0x0⟩),
   (0x3370241140D45000, .prmt ⟨yes, .v 9, .v 17, .w 3, .k 5, 0x0⟩), (0x3670241140D45000, .isel ⟨yes, .v 9, .v 17, .w 3, .k 5, 0x0⟩),
   (0x3774491144D140E8, .pset ⟨yes, .p 2, .p 1, .p 3, .p 4, 0xe8⟩), (0x3474440451800900, .icmp ⟨yes, .p 1, .v 4, .k 6, 0x0, 0x900⟩),
   (0x3570241140C00A80, .iset ⟨yes, .v 9, .v 17, .w 3, 0x0, 0xa80⟩), (0x39740800DEADBEEF, .movi ⟨yes, .w 2, .v 0, 0xdeadbeef⟩),
   (0x3A75200000004000, .movk ⟨yes, .k 8, .v 0, 0x4000⟩), (0x3B70241140C00300, .lea ⟨yes, .v 9, .v 17, .w 3, 0x0, 0x300⟩),
   (0x3C70281240C00B00, .lea64 ⟨yes, .v 10, .v 18, .w 3, 0x0, 0xb00⟩)]

theorem test_words_Integer : wordsInteger.map (fun p => decodeWord p.1) = wordsInteger.map (fun p => .ok p.2) := rfl

/-- Words of the float forms. -/
def wordsFloat : List (BitVec 64 × Instr) :=
  [(0x4070241140C006EC, .fadd ⟨yes, .v 9, .v 17, .w 3, 0x0, 0x6ec⟩), (0x4170241140C006EC, .fsub ⟨yes, .v 9, .v 17, .w 3, 0x0, 0x6ec⟩),
   (0x4270241140C006EC, .fmul ⟨yes, .v 9, .v 17, .w 3, 0x0, 0x6ec⟩), (0x5370241140C006EC, .fdiv ⟨yes, .v 9, .v 17, .w 3, 0x0, 0x6ec⟩),
   (0x5670241140C006EC, .hadd2 ⟨yes, .v 9, .v 17, .w 3, 0x0, 0x6ec⟩), (0x5770241140C006EC, .hsub2 ⟨yes, .v 9, .v 17, .w 3, 0x0, 0x6ec⟩),
   (0x5870241140C006EC, .hmul2 ⟨yes, .v 9, .v 17, .w 3, 0x0, 0x6ec⟩), (0x5D70241140C006EC, .badd2 ⟨yes, .v 9, .v 17, .w 3, 0x0, 0x6ec⟩),
   (0x5E70241140C006EC, .bsub2 ⟨yes, .v 9, .v 17, .w 3, 0x0, 0x6ec⟩), (0x5F70241140C006EC, .bmul2 ⟨yes, .v 9, .v 17, .w 3, 0x0, 0x6ec⟩),
   (0x4370241140D452FE, .ffma ⟨yes, .v 9, .v 17, .w 3, .k 5, 0x2fe⟩), (0x5970241140D452FE, .hfma2 ⟨yes, .v 9, .v 17, .w 3, .k 5, 0x2fe⟩),
   (0x6070241140D452FE, .bfma2 ⟨yes, .v 9, .v 17, .w 3, .k 5, 0x2fe⟩), (0x6470241140D452FE, .ffmah ⟨yes, .v 9, .v 17, .w 3, .k 5, 0x2fe⟩),
   (0x6570241140D452FE, .ffmab ⟨yes, .v 9, .v 17, .w 3, .k 5, 0x2fe⟩), (0x4470241140C0016C, .fmin ⟨yes, .v 9, .v 17, .w 3, 0x0, 0x16c⟩),
   (0x4570241140C0016C, .fmax ⟨yes, .v 9, .v 17, .w 3, 0x0, 0x16c⟩), (0x5A70241140C0016C, .hmin2 ⟨yes, .v 9, .v 17, .w 3, 0x0, 0x16c⟩),
   (0x5B70241140C0016C, .hmax2 ⟨yes, .v 9, .v 17, .w 3, 0x0, 0x16c⟩), (0x6170241140C0016C, .bmin2 ⟨yes, .v 9, .v 17, .w 3, 0x0, 0x16c⟩),
   (0x6270241140C0016C, .bmax2 ⟨yes, .v 9, .v 17, .w 3, 0x0, 0x16c⟩), (0x4674441140ED216C, .fcmp ⟨yes, .p 1, .v 17, .w 3, 0x2d2, 0x16c⟩),
   (0x6974441251AD216C, .dcmp ⟨yes, .p 1, .v 18, .k 6, 0x2d2, 0x16c⟩), (0x4770241140F4016C, .fset ⟨yes, .v 9, .v 17, .w 3, 0x340, 0x16c⟩),
   (0x5C70241140F4016C, .hcmp2 ⟨yes, .v 9, .v 17, .w 3, 0x340, 0x16c⟩), (0x6370241140F4016C, .bcmp2 ⟨yes, .v 9, .v 17, .w 3, 0x340, 0x16c⟩),
   (0x4870241140D4506C, .fsel ⟨yes, .v 9, .v 17, .w 3, .k 5, 0x6c⟩), (0x49702411001A5048, .fclass ⟨yes, .v 9, .v 17, .v 0, 0x1a5, 0x48⟩),
   (0x4A70241100000748, .frnd ⟨yes, .v 9, .v 17, .v 0, 0x0, 0x748⟩), (0x4B702411000001C8, .frcp ⟨yes, .v 9, .v 17, .v 0, 0x0, 0x1c8⟩),
   (0x4C702411000001C8, .frsq ⟨yes, .v 9, .v 17, .v 0, 0x0, 0x1c8⟩), (0x4E702411000001C8, .fexp2 ⟨yes, .v 9, .v 17, .v 0, 0x0, 0x1c8⟩),
   (0x4F702411000001C8, .flog2 ⟨yes, .v 9, .v 17, .v 0, 0x0, 0x1c8⟩), (0x50702411000001C8, .fsin ⟨yes, .v 9, .v 17, .v 0, 0x0, 0x1c8⟩),
   (0x51702411000001C8, .fcos ⟨yes, .v 9, .v 17, .v 0, 0x0, 0x1c8⟩), (0x52702411000001C8, .ftanh ⟨yes, .v 9, .v 17, .v 0, 0x0, 0x1c8⟩),
   (0x4D702411000007C8, .fsqrt ⟨yes, .v 9, .v 17, .v 0, 0x0, 0x7c8⟩), (0x5470241140C007C8, .fldexp ⟨yes, .v 9, .v 17, .w 3, 0x0, 0x7c8⟩),
   (0x5570281100000148, .ffrexp ⟨yes, .v 10, .v 17, .v 0, 0x0, 0x148⟩), (0x66702812518006EC, .dadd ⟨yes, .v 10, .v 18, .k 6, 0x0, 0x6ec⟩),
   (0x67702812518006EC, .dmul ⟨yes, .v 10, .v 18, .k 6, 0x0, 0x6ec⟩), (0x68702812519042FE, .dfma ⟨yes, .v 10, .v 18, .k 6, .w 4, 0x2fe⟩),
   (0x6A7028125180016C, .dmin ⟨yes, .v 10, .v 18, .k 6, 0x0, 0x16c⟩), (0x6B7028125180016C, .dmax ⟨yes, .v 10, .v 18, .k 6, 0x0, 0x16c⟩)]

theorem test_words_Float : wordsFloat.map (fun p => decodeWord p.1) = wordsFloat.map (fun p => .ok p.2) := rfl

/-- Words of the conversion forms. -/
def wordsConversion : List (BitVec 64 × Instr) :=
  [(0x7070241100040AC8, .cvt ⟨yes, .v 9, .v 17, .v 0, 0x40, 0xac8⟩), (0x7170281100030000, .cvt64 ⟨yes, .v 10, .v 17, .v 0, 0x30, 0x0⟩),
   (0x7270241440CA02C8, .qcvt ⟨yes, .v 9, .v 20, .w 3, 0xa0, 0x2c8⟩), (0x7370501140CA0080, .dqcvt ⟨yes, .v 20, .v 17, .w 3, 0xa0, 0x80⟩),
   (0x7470241140C00000, .pack2 ⟨yes, .v 9, .v 17, .w 3, 0x0, 0x0⟩), (0x7570241400000000, .pack4 ⟨yes, .v 9, .v 20, .v 0, 0x0, 0x0⟩),
   (0x7670241406000000, .pack8 ⟨yes, .v 9, .v 20, .v 24, 0x0, 0x0⟩), (0x7770281100001000, .unpk2 ⟨yes, .v 10, .v 17, .v 0, 0x1, 0x0⟩),
   (0x7870501100001000, .unpk4 ⟨yes, .v 20, .v 17, .v 0, 0x1, 0x0⟩), (0x7970501100003000, .unpk8 ⟨yes, .v 20, .v 17, .v 0, 0x3, 0x0⟩),
   (0x7A702411000D8100, .scalex ⟨yes, .v 9, .v 17, .v 0, 0xd8, 0x100⟩), (0x7B702411000D0AC8, .qblk ⟨yes, .v 9, .v 17, .v 0, 0xd0, 0xac8⟩),
   (0x7C70241100080100, .blkmax ⟨yes, .v 9, .v 17, .v 0, 0x80, 0x100⟩), (0x7D70001100001000, .srseed ⟨yes, .v 0, .v 17, .v 0, 0x1, 0x0⟩),
   (0x7E70241140C006EC, .dot2h ⟨yes, .v 9, .v 17, .w 3, 0x0, 0x6ec⟩), (0x7F70241140C006EC, .dot2b ⟨yes, .v 9, .v 17, .w 3, 0x0, 0x6ec⟩),
   (0x8070241140E18080, .dot4i ⟨yes, .v 9, .v 17, .w 3, 0x218, 0x80⟩), (0x8170241140E9C080, .dot8i ⟨yes, .v 9, .v 17, .w 3, 0x29c, 0x80⟩),
   (0x8270241140C87680, .dot4e ⟨yes, .v 9, .v 17, .w 3, 0x87, 0x680⟩), (0x8370241140D08680, .dot8e ⟨yes, .v 9, .v 17, .w 3, 0x108, 0x680⟩),
   (0x8470241140E39080, .idp2 ⟨yes, .v 9, .v 17, .w 3, 0x239, 0x80⟩), (0x8570240000000000, .amaxclr ⟨yes, .v 9, .v 0, .v 0, 0x0, 0x0⟩)]

theorem test_words_Conversion : wordsConversion.map (fun p => decodeWord p.1) = wordsConversion.map (fun p => .ok p.2) := rfl

/-- Words of the cross-lane forms. -/
def wordsCrossLane : List (BitVec 64 × Instr) :=
  [(0x8870241140C0E000, .shfli ⟨yes, .v 9, .v 17, .w 3, 0xe, 0x0⟩), (0x8970241140C0E000, .shfla ⟨yes, .v 9, .v 17, .w 3, 0xe, 0x0⟩),
   (0x8A70241140C0E000, .shflb ⟨yes, .v 9, .v 17, .w 3, 0xe, 0x0⟩), (0x8B70241140C0E000, .shflx ⟨yes, .v 9, .v 17, .w 3, 0xe, 0x0⟩),
   (0x8C70241100002000, .qswap ⟨yes, .v 9, .v 17, .v 0, 0x2, 0x0⟩), (0x8D70241100003000, .qbcast ⟨yes, .v 9, .v 17, .v 0, 0x3, 0x0⟩),
   (0x8E70241100002000, .vote ⟨yes, .v 9, .v 17, .v 0, 0x2, 0x0⟩), (0x8F70241100001000, .matchLanes ⟨yes, .v 9, .v 17, .v 0, 0x1, 0x0⟩),
   (0x9070241100009000, .redux ⟨yes, .v 9, .v 17, .v 0, 0x9, 0x0⟩), (0x9170241100002700, .reduxf ⟨yes, .v 9, .v 17, .v 0, 0x2, 0x700⟩),
   (0x927024110001A000, .scan ⟨yes, .v 9, .v 17, .v 0, 0x1a, 0x0⟩), (0x9370241100012700, .scanf ⟨yes, .v 9, .v 17, .v 0, 0x12, 0x700⟩),
   (0x94701C0644804000, .segred ⟨yes, .v 7, .v 6, .p 2, 0x4, 0x0⟩), (0x9570241140C19000, .segscan ⟨yes, .v 9, .v 17, .w 3, 0x19, 0x0⟩),
   (0x9674480000000000, .elect ⟨yes, .p 2, .v 0, .v 0, 0x0, 0x0⟩), (0x9770240000001000, .actmask ⟨yes, .v 9, .v 0, .v 0, 0x1, 0x0⟩),
   (0x987024110001F000, .bcast ⟨yes, .v 9, .v 17, .v 0, 0x1f, 0x0⟩), (0x9975181200060000, .kset ⟨yes, .k 6, .v 18, .v 0, 0x60, 0x0⟩),
   (0x9A70241100001000, .rank ⟨yes, .v 9, .v 17, .v 0, 0x1, 0x0⟩), (0x9B70241140C03000, .sortg ⟨yes, .v 9, .v 17, .w 3, 0x3, 0x0⟩),
   (0x9C70241140C00000, .compact ⟨yes, .v 9, .v 17, .w 3, 0x0, 0x0⟩), (0x9D70241140C00000, .expand ⟨yes, .v 9, .v 17, .w 3, 0x0, 0x0⟩)]

theorem test_words_CrossLane : wordsCrossLane.map (fun p => decodeWord p.1) = wordsCrossLane.map (fun p => .ok p.2) := rfl

/-- Words of the global memory forms. -/
def wordsGlobalMemory : List (BitVec 64 × Instr) :=
  [(0xA0702412FFFF02B9, .ld ⟨yes, .v 9, .v 18, 0xffff0, 0x2b9⟩), (0xA170514600010944, .st ⟨yes, .v 20, .k 6, 0x10, 0x944⟩),
   (0xA270514600020800, .ldv ⟨yes, .v 20, .k 6, 0x20, 0x800⟩), (0xA370254600020400, .stv ⟨yes, .v 9, .k 6, 0x20, 0x400⟩),
   (0xA4752146000406A0, .ldk ⟨yes, .k 8, .k 6, 0x40, 0x6a0⟩), (0xA570240C00010400, .ldnf ⟨yes, .v 9, .v 12, 0x10, 0x400⟩),
   (0xA670001200080130, .stz ⟨yes, .v 0, .v 18, 0x80, 0x130⟩), (0xBA7000120008000C, .pref ⟨yes, .v 0, .v 18, 0x80, 0xc⟩),
   (0xBB700C1200080004, .cctl ⟨yes, .v 3, .v 18, 0x80, 0x4⟩), (0xB9700000000001B0, .fence ⟨yes, .v 0, .v 0, 0x0, 0x1b0⟩),
   (0xA7702812410007B0, .atadd ⟨yes, .v 10, .v 18, .w 4, 0x0, 0x7b0⟩), (0xAA702812410007B0, .atand ⟨yes, .v 10, .v 18, .w 4, 0x0, 0x7b0⟩),
   (0xAB702812410007B0, .ator ⟨yes, .v 10, .v 18, .w 4, 0x0, 0x7b0⟩), (0xAC702812410007B0, .atxor ⟨yes, .v 10, .v 18, .w 4, 0x0, 0x7b0⟩),
   (0xAD702812410007B0, .atexch ⟨yes, .v 10, .v 18, .w 4, 0x0, 0x7b0⟩), (0xB1702812410007B0, .atfadd ⟨yes, .v 10, .v 18, .w 4, 0x0, 0x7b0⟩),
   (0xB2702812410007B0, .atfmin ⟨yes, .v 10, .v 18, .w 4, 0x0, 0x7b0⟩), (0xB3702812410007B0, .atfmax ⟨yes, .v 10, .v 18, .w 4, 0x0, 0x7b0⟩),
   (0xA870241240C014A0, .atmin ⟨yes, .v 9, .v 18, .w 3, 0x1, 0x4a0⟩), (0xA970241240C014A0, .atmax ⟨yes, .v 9, .v 18, .w 3, 0x1, 0x4a0⟩),
   (0xAF70241240C00540, .atinc ⟨yes, .v 9, .v 18, .w 3, 0x0, 0x540⟩), (0xB070241240C00540, .atdec ⟨yes, .v 9, .v 18, .w 3, 0x0, 0x540⟩),
   (0xAE702812411817B0, .atcas ⟨yes, .v 10, .v 18, .w 4, .const 1, 0x7b0⟩), (0xB47050120601C800, .atcas128 ⟨yes, .v 20, .v 18, .v 24, .v 28, 0x800⟩),
   (0xB570001240C00530, .redadd ⟨yes, .v 0, .v 18, .w 3, 0x0, 0x530⟩), (0xB870001240C00530, .redfadd ⟨yes, .v 0, .v 18, .w 3, 0x0, 0x530⟩),
   (0xB670001241001600, .redmin ⟨yes, .v 0, .v 18, .w 4, 0x1, 0x600⟩), (0xB770001241001600, .redmax ⟨yes, .v 0, .v 18, .w 4, 0x1, 0x600⟩)]

theorem test_words_GlobalMemory : wordsGlobalMemory.map (fun p => decodeWord p.1) = wordsGlobalMemory.map (fun p => .ok p.2) := rfl

/-- Words of the local memory and windows forms. -/
def wordsLocalMemoryAndWindows : List (BitVec 64 × Instr) :=
  [(0xC0702411FFFFC0A1, .lds ⟨yes, .v 9, .v 17, 0xffffc, 0xa1⟩), (0xC170294500008710, .sts ⟨yes, .v 10, .k 5, 0x8, 0x710⟩),
   (0xC270514500020800, .ldsv ⟨yes, .v 20, .k 5, 0x20, 0x800⟩), (0xC370254500020400, .stsv ⟨yes, .v 9, .k 5, 0x20, 0x400⟩),
   (0xC870250300004400, .ldl ⟨yes, .v 9, .w 3, 0x4, 0x400⟩), (0xC970241100004200, .stl ⟨yes, .v 9, .v 17, 0x4, 0x200⟩),
   (0xC470241140C005A0, .atsadd ⟨yes, .v 9, .v 17, .w 3, 0x0, 0x5a0⟩), (0xC570241140C01400, .atsmin ⟨yes, .v 9, .v 17, .w 3, 0x1, 0x400⟩),
   (0xC670294541001600, .atsmax ⟨yes, .v 10, .k 5, .w 4, 0x1, 0x600⟩), (0xC770241140D81400, .atscas ⟨yes, .v 9, .v 17, .w 3, .const 1, 0x400⟩),
   (0xCA7B0D4451400001, .wmap ⟨yes, .hnd (.win 3), .k 4, .k 5, 0x0, 0x1⟩), (0xCB7B0C0000000030, .wunmap ⟨yes, .hnd (.win 3), .v 0, .v 0, 0x0, 0x30⟩),
   (0xCC7B3C0000000040, .wflush ⟨yes, .hnd (.win 15), .v 0, .v 0, 0x0, 0x40⟩), (0xCD7B000000000000, .winv ⟨yes, .hnd (.win 0), .v 0, .v 0, 0x0, 0x0⟩)]

theorem test_words_LocalMemoryAndWindows : wordsLocalMemoryAndWindows.map (fun p => decodeWord p.1) = wordsLocalMemoryAndWindows.map (fun p => .ok p.2) := rfl

/-- Words of the pages, heap and resumption forms. -/
def wordsPagesHeapAndResumption : List (BitVec 64 × Instr) :=
  [(0xD070201400000001, .pgcommit ⟨yes, .v 8, .v 20, .v 0, 0x0, 0x1⟩), (0xD170201400000000, .pgrelease ⟨yes, .v 8, .v 20, .v 0, 0x0, 0x0⟩),
   (0xD270281400000000, .pgquery ⟨yes, .v 10, .v 20, .v 0, 0x0, 0x0⟩), (0xD370201440C00000, .pgprot ⟨yes, .v 8, .v 20, .w 3, 0x0, 0x0⟩),
   (0xD470200000003000, .pgpool ⟨yes, .v 8, .v 0, .v 0, 0x3, 0x0⟩), (0xD570281100000000, .halloc ⟨yes, .v 10, .v 17, .v 0, 0x0, 0x0⟩),
   (0xD670201400000000, .hfree ⟨yes, .v 8, .v 20, .v 0, 0x0, 0x0⟩), (0xD770201400000000, .hsize ⟨yes, .v 8, .v 20, .v 0, 0x0, 0x0⟩),
   (0xD870180400000000, .gresumeReplay ⟨yes, .v 6, .v 4, .v 0, 0x0, 0x0⟩), (0xD870080852800001, .gresumeSkip ⟨yes, .v 2, .v 8, .k 10, 0x0, 0x1⟩),
   (0xD870180400000002, .gresumeKill ⟨yes, .v 6, .v 4, .v 0, 0x0, 0x2⟩)]

theorem test_words_PagesHeapAndResumption : wordsPagesHeapAndResumption.map (fun p => decodeWord p.1) = wordsPagesHeapAndResumption.map (fun p => .ok p.2) := rfl

/-- Words of the engines forms. -/
def wordsEngines : List (BitVec 64 × Instr) :=
  [(0xDC7AE80401808001, .cpy32 ⟨yes, .hnd (.tg 2), .v 4, .v 6, .v 8, 0x1⟩), (0xDD7AEC0451408002, .cpyb ⟨yes, .hnd (.tg 3), .v 4, .k 5, .v 8, 0x2⟩),
   (0xDE7AFC0451400001, .cpyst ⟨yes, .hnd (.tg 7), .v 4, .k 5, 0x0, 0x1⟩), (0xDF7AE40000000000, .cpywait ⟨yes, .hnd (.tg 1), .v 0, .v 0, 0x0, 0x0⟩),
   (0xE07026B900000000, .cpycnt ⟨yes, .v 9, .hnd (.tg 1), .v 0, 0x0, 0x0⟩), (0xE17AE14601408001, .cpyfill ⟨yes, .hnd (.tg 0), .k 6, .v 5, .v 8, 0x1⟩),
   (0xE27AE1460494A000, .cpyp ⟨yes, .hnd (.tg 0), .k 6, .v 18, .k 10, 0x0⟩), (0xE370294400C00400, .gath ⟨yes, .v 10, .k 4, .v 3, 0x0, 0x400⟩),
   (0xE470294500C00540, .scat ⟨yes, .v 10, .k 5, .v 3, 0x0, 0x540⟩), (0xE570294500008300, .gathbm ⟨yes, .v 10, .k 5, .v 0, .v 8, 0x300⟩),
   (0xE670000000000000, .mtwait ⟨yes, .v 0, .v 0, .v 0, 0x0, 0x0⟩), (0xE77A0D4601408000, .tfetch ⟨yes, .hnd (.ob 3), .k 6, .v 5, .v 8, 0x0⟩),
   (0xE87A0C0000000000, .tfrel ⟨yes, .hnd (.ob 3), .v 0, .v 0, 0x0, 0x0⟩)]

theorem test_words_Engines : wordsEngines.map (fun p => decodeWord p.1) = wordsEngines.map (fun p => .ok p.2) := rfl

/-- Words of the matrix and barriers forms. -/
def wordsMatrixAndBarriers : List (BitVec 64 × Instr) :=
  [(0xEC7A0C1100000000, .obrsv ⟨yes, .hnd (.ob 3), .v 17, .v 0, 0x0, 0x0⟩), (0xED7A7C0000000000, .obrel ⟨yes, .hnd (.ob 31), .v 0, .v 0, 0x0, 0x0⟩),
   (0xEE7A0C1140D45000, .obldS ⟨yes, .hnd (.ob 3), .v 17, .w 3, .k 5, 0x0⟩), (0xEE7A0C1140C00001, .obldR ⟨yes, .hnd (.ob 3), .v 17, .w 3, .v 0, 0x1⟩),
   (0xEF7A858C00000000, .cvdecl ⟨yes, .hnd (.cv 1), .const 12, .v 0, 0x0, 0x0⟩),
   (0xF07ACA84A16A1800, .mma ⟨yes, .hnd (.acc 2), .hnd (.ob 4), .hnd (.ob 5), .hnd (.cv 1), 0x800⟩),
   (0xF17ACA84A15FF0FF, .mmas ⟨yes, .hnd (.acc 2), .hnd (.ob 4), .hnd (.ob 5), .discard, 0xff⟩),
   (0xF27AC80000000000, .accinitZero ⟨yes, .hnd (.acc 2), .v 0, .v 0, 0x0, 0x0⟩),
   (0xF27AC81100000001, .accinitLd ⟨yes, .hnd (.acc 2), .v 17, .v 0, 0x0, 0x1⟩),
   (0xF3702AB204400002, .accrd ⟨yes, .v 10, .hnd (.acc 2), .v 17, 0x0, 0x2⟩),
   (0xF47AC81100000006, .mdrainS ⟨yes, .hnd (.acc 2), .v 17, .v 0, 0x0, 0x6⟩),
   (0xF47AC80000000005, .mdrainC ⟨yes, .hnd (.acc 2), .v 0, .v 0, 0x0, 0x5⟩), (0xF57AC80000000000, .mwait ⟨yes, .hnd (.acc 2), .v 0, .v 0, 0x0, 0x0⟩),
   (0xF67815FF00000000, .barSync ⟨yes, .hnd (.bar 5), .discard, .v 0, 0x0, 0x0⟩),
   (0xF679FD4700000001, .barArrive ⟨yes, .hnd (.bar 127), .k 7, .v 0, 0x0, 0x1⟩),
   (0xF77B4C0000000000, .gbarSync ⟨yes, .hnd (.gb 3), .v 0, .v 0, 0x0, 0x0⟩),
   (0xF77B7C0000000001, .gbarArrive ⟨yes, .hnd (.gb 15), .v 0, .v 0, 0x0, 0x1⟩), (0xF870000C00000002, .regroup ⟨yes, .v 0, .v 12, .v 0, 0x0, 0x2⟩),
   (0xF970000000000000, .regroupb ⟨yes, .v 0, .v 0, .v 0, 0x0, 0x0⟩)]

theorem test_words_MatrixAndBarriers : wordsMatrixAndBarriers.map (fun p => decodeWord p.1) = wordsMatrixAndBarriers.map (fun p => .ok p.2) := rfl

/-- Words of the regions forms. -/
def wordsRegions : List (BitVec 64 × Instr) :=
  [(0xFA700D4800000001, .fxload ⟨yes, .v 3, .k 8, .v 0, 0x0, 0x1⟩), (0xFB70000000000003, .fxrun ⟨yes, .v 0, .v 0, .v 0, 0x0, 0x3⟩),
   (0xFC740C0000000002, .fxwait ⟨yes, .w 3, .v 0, .v 0, 0x0, 0x2⟩), (0xFD70000600000009, .fxparam ⟨yes, .v 0, .v 6, .v 0, 0x0, 0x9⟩),
   (0xFE70000000000001, .fxdrop ⟨yes, .v 0, .v 0, .v 0, 0x0, 0x1⟩), (0xFF700C0600000001, .damp ⟨yes, .v 3, .v 6, .v 0, 0x0, 0x1⟩)]

theorem test_words_Regions : wordsRegions.map (fun p => decodeWord p.1) = wordsRegions.map (fun p => .ok p.2) := rfl

/-- Words of the element forms. -/
noncomputable def wordsElements : List (BitVec 32 × Instr) :=
  [(0x0377C078, .elemNop ⟨13, 13, 15, 0, 0, 0x78⟩), (0x0474A978, .elemMov ⟨1, 13, 2, 5, 2, 0x78⟩), (0x081C68AD, .elemAdd ⟨0, 7, 1, 5, 1, 0x2d⟩),
   (0x0C1C68AD, .elemSub ⟨0, 7, 1, 5, 1, 0x2d⟩), (0x101C68AD, .elemMul ⟨0, 7, 1, 5, 1, 0x2d⟩), (0x141C68AD, .elemMulh ⟨0, 7, 1, 5, 1, 0x2d⟩),
   (0x181C68AD, .elemMad ⟨0, 7, 1, 5, 1, 0x2d⟩), (0x1C1C68AD, .elemMin ⟨0, 7, 1, 5, 1, 0x2d⟩), (0x201C68AD, .elemMax ⟨0, 7, 1, 5, 1, 0x2d⟩),
   (0x241C68AD, .elemAnd ⟨0, 7, 1, 5, 1, 0x2d⟩), (0x281C68AD, .elemOr ⟨0, 7, 1, 5, 1, 0x2d⟩), (0x2C1C68AD, .elemXor ⟨0, 7, 1, 5, 1, 0x2d⟩),
   (0x301C68AD, .elemAndn ⟨0, 7, 1, 5, 1, 0x2d⟩), (0x3474A978, .elemNot ⟨1, 13, 2, 5, 2, 0x78⟩), (0x381C68AD, .elemShl ⟨0, 7, 1, 5, 1, 0x2d⟩),
   (0x3C1C68AD, .elemShr ⟨0, 7, 1, 5, 1, 0x2d⟩), (0x401C68AD, .elemSar ⟨0, 7, 1, 5, 1, 0x2d⟩), (0x4474A978, .elemPopc ⟨1, 13, 2, 5, 2, 0x78⟩),
   (0x4874A978, .elemClz ⟨1, 13, 2, 5, 2, 0x78⟩), (0x4C1C68AD, .elemSel ⟨0, 7, 1, 5, 1, 0x2d⟩), (0x501C68AD, .elemFadd ⟨0, 7, 1, 5, 1, 0x2d⟩),
   (0x541C68AD, .elemFsub ⟨0, 7, 1, 5, 1, 0x2d⟩), (0x581C68AD, .elemFmul ⟨0, 7, 1, 5, 1, 0x2d⟩), (0x5C1C68AD, .elemFfma ⟨0, 7, 1, 5, 1, 0x2d⟩),
   (0x601C68AD, .elemFmin ⟨0, 7, 1, 5, 1, 0x2d⟩), (0x641C68AD, .elemFmax ⟨0, 7, 1, 5, 1, 0x2d⟩), (0x6874A978, .elemFtoi ⟨1, 13, 2, 5, 2, 0x78⟩),
   (0x6C74A978, .elemItof ⟨1, 13, 2, 5, 2, 0x78⟩), (0x701C68AD, .elemCeq ⟨0, 7, 1, 5, 1, 0x2d⟩), (0x741C68AD, .elemCne ⟨0, 7, 1, 5, 1, 0x2d⟩),
   (0x781C68AD, .elemClt ⟨0, 7, 1, 5, 1, 0x2d⟩), (0x7C1C68AD, .elemCle ⟨0, 7, 1, 5, 1, 0x2d⟩), (0x801C68AD, .elemCltn ⟨0, 7, 1, 5, 1, 0x2d⟩),
   (0x841C68AD, .elemClen ⟨0, 7, 1, 5, 1, 0x2d⟩), (0x881C68AD, .elemFclt ⟨0, 7, 1, 5, 1, 0x2d⟩), (0x8C1C68AD, .elemFcle ⟨0, 7, 1, 5, 1, 0x2d⟩),
   (0x901C68AD, .elemFceq ⟨0, 7, 1, 5, 1, 0x2d⟩), (0x941C68AD, .elemFcne ⟨0, 7, 1, 5, 1, 0x2d⟩), (0x9B7718AC, .elemPset ⟨13, 13, 12, 3, 1, 0x2c⟩),
   (0x9F7718AC, .elemPclr ⟨13, 13, 12, 3, 1, 0x2c⟩), (0xA04B1878, .elemPand ⟨1, 2, 12, 3, 0, 0x78⟩), (0xA44B1878, .elemPor ⟨1, 2, 12, 3, 0, 0x78⟩),
   (0xA8771878, .elemPnot ⟨1, 13, 12, 3, 0, 0x78⟩), (0xAC50A178, .elemSteer ⟨1, 4, 2, 4, 2, 0x78⟩), (0xB048A878, .elemMerge ⟨1, 2, 2, 5, 0, 0x78⟩),
   (0xB448A878, .elemMergeu ⟨1, 2, 2, 5, 0, 0x78⟩), (0xB8748178, .elemDrop ⟨1, 13, 2, 0, 2, 0x78⟩), (0xBC748178, .elemEmit ⟨1, 13, 2, 0, 2, 0x78⟩),
   (0xC377C1F8, .elemDeq ⟨13, 13, 15, 0, 3, 0x78⟩), (0xC4758178, .elemSclatch ⟨1, 13, 6, 0, 2, 0x78⟩), (0xC8548178, .elemQuant ⟨1, 5, 2, 0, 2, 0x78⟩),
   (0xCC748178, .elemAmaxr ⟨1, 13, 2, 0, 2, 0x78⟩), (0xD0748178, .elemCnt ⟨1, 13, 2, 0, 2, 0x78⟩), (0xD477C178, .elemAcc ⟨1, 13, 15, 0, 2, 0x78⟩),
   (0xDB748078, .elemAccrel ⟨13, 13, 2, 0, 0, 0x78⟩), (0xDC1C68AD, .elemLsel ⟨0, 7, 1, 5, 1, 0x2d⟩)]

theorem test_words_Elements : wordsElements.map (fun p => decode (.elem p.1)) = wordsElements.map (fun p => .ok p.2) := rfl

/-- The element words pass the checks that need only the word. -/
theorem test_words_Elements_legal : wordsElements.all (fun p => wellFormed p.2) = true := by decide

/-! ## A term that each check refuses (R52 to R65, R194) -/

/-- Reserved fields and modifiers, pairs and quads, destinations, special registers, handles and guards. -/
theorem test_ill_formed :
    [Instr.iadd { r with m := 0x001 }, .imul { r with m := 0x400 }, .nop { r0 with c := 1 }, .mov { r1 with b := .v 1 }, .iadd { r with d := .k 1 },
     .iadd { r with d := .y false }, .iadd { r with a := .discard }, .iadd { r with a := .hnd (.tg 0) }, .iadd { r with c := 0x384 },
     .iadd64 { rp with a := .v 5 }, .iadd64 { rp with d := .v 255 }, .iadd64 { rp with b := .k 63 }, .unpk4 { r1 with d := .v 6 }, .unpk4 { r1 with d := .w 0 },
     .imad { r3 with a := .xl 0 }, .icmp { r with m := 0x300 }, .movk ri, .trap { ri with d := .v 0, imm := 256 }, .fadd { r with m := 0x800 },
     .fadd { r with m := 0x010 }, .fcmp { r with c := 0x380 }, .cvt { r1 with c := 0x160 }, .cvt { r1 with c := 0x021 }, .cvt { r1 with m := 0xA00 },
     .dot4e { r with c := 0x107 }, .dot4i { r with a := .const 3, c := 0x210 }, .dot8e { r with a := .const 10, c := 0x108 }, .qcvt { r with c := 0x240 },
     .shfli { r with c := 0x014 }, .qswap { r1 with c := 3 }, .redux { r1 with c := 8 }, .bcast { r1 with c := 0x021 }, .kset r1, .ld { rm with mm := 0xA00 },
     .ld { rm with mm := 0x500 }, .ld { rm with mm := 0x401 }, .ld { rm with mm := 0x430 }, .ld { rm with a := .w 0 }, .ldv rm, .stz { rm with d := .v 0 },
     .atadd { r with m := 0x200 }, .redadd { r with m := 0x400 }, .lds { rm with mm := 0x4B0 }, .wmap r, .wmap { r with d := .hnd (.win 0), m := 3 },
     .wflush { r0 with d := .hnd (.win 0) }, .pgpool { r0 with d := .v 2, c := 4 }, .gresumeSkip { rp with m := 0 }, .cpy32 r3, .cpywait { r0 with m := 2 },
     .scat { r with d := .v 2, m := 0x420 + 0x40 }, .mma { r3 with d := .hnd (.acc 0), a := .hnd (.ob 0), b := .hnd (.ob 0), c := .v 0 },
     .barSync { r0 with d := .hnd (.gb 0) }, .regroup { r0 with m := 33 }, .regroup { r0 with g := ⟨true, 7⟩, m := 1 }, .fxrun { r0 with m := 4 },
     .rdsr { rs with srn := 0x006 }, .rdsr { rs with srn := 0x050, sub := 6 }, .rdsr { rs with d := .k 0, srn := 0x000 }, .wrsr { rs with d := .v 0 },
     .bra { rb with lnk := .v 2 }, .call { rb with lnk := .v 3 }, .rcv { rb with g := ⟨false, 0⟩ }, .calll rm].all (fun i => !wellFormed i) = true := by decide

/-- Element words (R65, R194): an unused source that is not 13, DA 14, a destination where there is none, a second destination where there is
one, a predicate as a channel, a HEAD test off a channel, a literal source of a configured form. -/
theorem test_ill_formed_elements :
    [Instr.elemMov ⟨1, 0, 2, 0, 0, 0x78⟩, .elemAdd ⟨1, 2, 14, 0, 0, 0x78⟩, .elemDeq ⟨13, 13, 2, 0, 1, 0x78⟩, .elemDeq ⟨13, 13, 15, 0, 0, 0x78⟩,
     .elemEmit ⟨1, 13, 2, 5, 0, 0x78⟩, .elemPand ⟨8, 1, 12, 0, 0, 0x78⟩, .elemPset ⟨13, 13, 12, 7, 0, 0x78⟩, .elemAdd ⟨4, 1, 2, 0, 0, 0x79⟩,
     .elemSteer ⟨12, 1, 2, 0, 0, 0x78⟩, .elemMerge ⟨1, 2, 2, 0, 1, 0x78⟩, .elemSclatch ⟨1, 13, 2, 0, 0, 0x78⟩, .elemAccrel ⟨13, 13, 2, 0, 1, 0x78⟩].all
      (fun i => !wellFormed i) = true := by decide

/-- The all-zero word, unassigned opcodes, and operand codes that name nothing (R53, R60, R61). -/
theorem test_no_instruction :
    decodeWord 0 = .error .zeroWord ∧ decodeWord 0x3D70000000000000 = .error (.unassigned 0x3D) ∧
    decodeWord 0x1070000042800000 = .error .operandCode ∧ decodeWord 0xCA7B800451400001 = .error .operandCode ∧
    decodeWord 0xE370294400C00C00 = .error .illegalForm := ⟨rfl, rfl, rfl, rfl, rfl⟩

/-! ## Results that the spec works out -/

/-- The group after an instruction. -/
def run (g : Group) (i : Instr) : Group := (after (exec i (withGroup g))).cur
/-- A v register of lane 0 after an instruction, from v registers of lane 0. -/
def lane0 (v : List (Nat × Word)) (i : Instr) (q : Nat) : Word :=
  (run { group with v := v.map (fun p => (32 * p.1, p.2)) } i).stored 0 q 0
/-- Eight lanes of which v0 holds a list and v1 another. -/
def eight (a b : List Word) : State := stateOf { core with
  groups := [(0, { group with
    m := 0xFF
    exitm := 0xFFFFFF00
    tids := (List.range 8).map (fun l => (l, l + 1))
    v := a.zipIdx.map (fun p => (p.2, p.1)) ++ b.zipIdx.map (fun p => (32 + p.2, p.1)) })]
  blocks := [(0, { block with
    kd := { kernel with block := 8 }
    bx := 8
    threads := (List.range 8).map (fun l => (l, ⟨true, 0, l⟩)) })] }
/-- v2 of the eight lanes after an instruction. -/
def result8 (a b : List Word) (i : Instr) : List Word :=
  (List.range 8).map (fun l => (after (exec i (eight a b))).cur.stored 0 2 l)

/-- R98: 3 - 5 saturates at 0 without a sign, 0x7FFFFFFF + 1 at the maximum with one. -/
theorem test_saturation :
    lane0 [(0, 3), (1, 5)] (.isub { r with m := 0x400 }) 2 = 0 ∧ lane0 [(0, 0x7FFFFFFF), (1, 1)] (.iadd { r with m := 0xC00 }) 2 = 0x7FFFFFFF := by
  decide
/-- R100: -7 by 2. -/
theorem test_division :
    lane0 [(0, 0xFFFFFFF9), (1, 2)] (.idiv { r with m := 0x800 }) 2 = 0xFFFFFFFD ∧ lane0 [(0, 0xFFFFFFF9), (1, 2)] (.irem { r with m := 0x800 }) 2 = 0xFFFFFFFF ∧
    lane0 [(0, 0xFFFFFFF9), (1, 2)] (.idiv r) 2 = 0x7FFFFFFC := by decide
/-- R102: the first step of the addition of a quad gives 0 and carries. -/
theorem test_carry :
    let t := run { group with v := [(0, 0xFFFFFFFF), (32, 1)] } (.iaddc { r3 with c := .const 0, m := 0x080 })
    t.stored 0 2 0 = 0 ∧ t.stored 2 1 0 = 1 ∧ t.stored 2 1 1 = 0 := by decide
/-- R108, R109: bit fields and byte permutations. -/
theorem test_bit_fields :
    lane0 [(0, 0xF70), (1, 0x404)] (.bfx { r with m := 0x800 }) 2 = 7 ∧ lane0 [(0, 0xF80), (1, 0x404)] (.bfx { r with m := 0x800 }) 2 = 0xFFFFFFF8 ∧
    lane0 [(0, 0x12345678), (3, 0x123)] (.prmt r3) 2 = 0x78563412 ∧ lane0 [(0, 0x12345688), (3, 0x8880)] (.prmt r3) 2 = 0xFFFFFF88 := by decide
/-- R112: the LUT 0x96 is the parity of three inputs. -/
theorem test_pset : lane0 [(0, 1), (1, 1), (3, 1)] (.pset { r3 with m := 0x96 }) 2 = 1 ∧ lane0 [(0, 1), (1, 1)] (.pset { r3 with m := 0x96 }) 2 = 0 := by decide
/-- R142: the smallest subnormal is 0.5 times 2 to the -148. -/
theorem test_frexp :
    lane0 [(0, 1)] (.ffrexp r1) 2 = 0x3F000000 ∧ lane0 [(0, 1)] (.ffrexp r1) 3 = 0xFFFFFF6C := by decide +kernel
/-- R145: HFMA2 of halves 1.0 and 2.0 with the constants 0.5 and 1.0. -/
theorem test_hfma2 : lane0 [(0, 0x40003C00)] (.hfma2 { r3 with b := .const 4, c := .const 3 }) 2 = 0x40003E00 := by decide +kernel
/-- R152: 480.0 to e4m3. -/
theorem test_cvt :
    lane0 [(0, 0x43F00000)] (.cvt { r1 with c := 0x0A0, m := 0x080 }) 2 = 0x7E ∧ lane0 [(0, 0x43F00000)] (.cvt { r1 with c := 0x0A0 }) 2 = 0x7F := by
  decide +kernel
/-- R155: a quad quantised to e4m3 with the scale 0x79, and AMAX. -/
theorem test_qcvt :
    let t := run { group with v := [(256, 0x40400000), (288, 0xC0B00000), (320, 0x3C23D70A), (352, 0x3F800000), (640, 0x79)] }
      (.qcvt { r with a := .v 8, b := .v 20, c := 0x0A0 })
    t.stored 0 2 0 = 0x6832FB74 ∧ t.amaxOf 0 = 0x40B00000 := by decide +kernel
/-- R165: four e4m3 products added to 1.0. -/
theorem test_dot4e : lane0 [(0, 0x7E3800C0), (1, 0x38383838), (2, 0x3F800000)] (.dot4e { r with c := 0x0A5 }) 2 = 0x43E00000 := by decide +kernel
/-- R176: three segments of eight lanes, added as f32. -/
theorem test_segred :
    result8 [0x3F800000, 0x40000000, 0x3F000000, 0x40400000, 0xBF800000, 0x40800000, 0x40200000, 0x3E800000] [1, 0, 0, 1, 0, 0, 1, 0]
      (.segred { r with c := 4 }) = [0x40600000, 0x40600000, 0x40600000, 0x40C00000, 0x40C00000, 0x40C00000, 0x40300000, 0x40300000] := by decide +kernel
/-- R181: compaction and expansion. -/
theorem test_compact :
    result8 [10, 11, 12, 13, 14, 15, 16, 17] [0, 1, 0, 0, 1, 1, 0, 0] (.compact r) = [11, 14, 15, 0, 0, 0, 0, 0] ∧
    result8 [11, 14, 15, 0, 0, 0, 0, 0] [0, 1, 0, 0, 1, 1, 0, 0] (.expand r) = [0, 11, 0, 0, 14, 15, 0, 0] := by decide
/-- R247: three lanes add 1, 2 and 3 to a location that holds 10. -/
theorem test_atomic_sum :
    let s := ({ withGroup { group with
      m := 7
      v := [(0, 64), (1, 64), (2, 64), (64, 1), (65, 2), (66, 3)] } with mem := [(0x10040, 10)] })
    let t := after (exec (.atadd { r with d := .v 4, b := .v 2, m := 0x400 }) s)
    [t.cur.stored 0 4 0, t.cur.stored 0 4 1, t.cur.stored 0 4 2] = [10, 11, 13] ∧ t.mem = [(0x10040, 16)] := by decide +kernel

/-! ## States that meet the hypotheses of the obligations -/

/-- IntegerResults, IntegerPairResults, CarryAddition, IntegerRules. -/
theorem meets_integer : wordsInteger.all (fun p => plain.passes p.2 && legal p.2) = true := by decide
/-- FloatResults, DoubleResults. -/
theorem meets_float : wordsFloat.all (fun p => plain.passes p.2) = true := by decide
/-- PackAndDotResults, ConversionResults. -/
theorem meets_conversion : wordsConversion.all (fun p => plain.passes p.2) = true := by decide
/-- CrossLaneResults. -/
theorem meets_cross_lane : wordsCrossLane.all (fun p => plain.passes p.2) = true := by decide
/-- GroupRegisterResults: MOVK k8, and KSET of a word and of a pair. -/
theorem meets_group_registers :
    plain.passes (.movk { ri with d := .k 8 }) = true ∧ plain.passes (.kset { r1 with d := .k 63 }) = true ∧
    plain.passes (.kset { r1 with d := .k 62, c := 0x60 }) = true := by decide
/-- SpecialRegisters: a v, a k and a written register. -/
theorem meets_special_registers :
    plain.passes (.rdsr { rs with srn := 0x020 }) = true ∧ plain.passes (.rdsr { rs with d := .k 63 }) = true ∧
    [(0x029, 0), (0x052, 0), (0x052, 1)].all (fun p =>
      plain.passes (.wrsr { rs with d := .v 0, a := .v 1, srn := p.1, sub := p.2 })) = true := by decide

/-- A group whose lanes address consecutive 128-byte lines. -/
def lines : State := withGroup { group with
  v := [(1, 128), (2, 256), (3, 384)]
  k := [(0, 256)] }
/-- A group without an active lane. -/
def empty : State := withGroup { group with m := 0 }
/-- The group's pages in host memory, which the host has served. -/
def hosted : State := { lines with tlb :=
  [{ level := 0, owner := 0, asid := 0, va := 0, bytes := 65536, entry := 0x102E2 },
   { level := 3, owner := 0, asid := 0, va := 0, bytes := 65536, entry := 0 }] }
/-- Where the lanes' accesses of v0 lead. -/
def lead (s : State) (need : Need) (n l : Nat) : Xlat := s.reachCur need n (s.src64 (.v 0) l).toNat

/-- GlobalLoads: loads of device memory, of host memory, and LDK with and without a lane. -/
theorem meets_global_loads :
    ([Instr.ld rm, .ldk { rm with d := .k 2, a := .k 0 }].all lines.passes && lines.passes (.ldv { rm with a := .k 0 })) = true ∧
    lines.lanesOk 0xF 4 true (lead lines .read 4) = true ∧ outsideLane 0xF (lead lines .read 4) = false ∧
    lines.lanesOk 0xF 4 true (fun l => lines.reachCur .read 4 (lines.src64 (.k 0) 0 + BitVec.ofNat 64 (l * 4)).toNat) = true ∧
    lines.lanesOk 1 4 true (fun _ => lines.reachCur .read 4 256) = true ∧ lines.ordOk 0 0 = true ∧ lines.ordOk 1 3 = true ∧
    lines.acqOk 1 3 (laneCells (keysOf 0xF (lead lines .read 4)) 4) = true ∧
    hosted.lanesOk 0xF 4 true (lead hosted .read 4) = true ∧ outsideLane 0xF (lead hosted .read 4) = true ∧
    outsideLane 1 (lead hosted .read 4) = true ∧ hosted.passes (.ld rm) = true ∧ empty.passes (.ldk { rm with d := .k 2, a := .k 0 }) = true ∧
    empty.actOf yes = 0 ∧ lines.actOf yes = 0xF := by decide

/-- Lane 2 addresses nothing. -/
def astray : State := withGroup { group with v := [(1, 64), (2, 0x90000)] }
/-- NoFaultLoad: one lane fails, the others reach memory. -/
theorem meets_no_fault_load :
    let f := fun l => match lead astray .read 4 l with
      | .bad _ _ => Xlat.zero
      | x => x
    astray.passes (.ldnf rm) = true ∧ lead astray .read 4 2 = .bad 4 0 ∧ astray.lanesOk 0xF 4 true f = true ∧ outsideLane 0xF f = false := by decide
/-- GlobalStores. -/
theorem meets_global_stores :
    lines.passes (.st rm) = true ∧ lines.passes (.stv { rm with a := .k 0 }) = true ∧ lines.passes (.stz { rm with d := .v 0, mm := 0 }) = true ∧
    lines.lanesOk 0xF 4 false (lead lines .write 4) = true ∧ lines.lanesOk 0xF 128 false (lead lines .write 128) = true ∧
    lines.lanesOk 0xF 4 false (fun l => lines.reachCur .write 4 (lines.src64 (.k 0) 0 + BitVec.ofNat 64 (l * 4)).toNat) = true ∧
    lines.ordOk 2 4 = true := by decide
/-- GlobalAtomics: in device memory and, for FetchAdd, in host memory. -/
theorem meets_global_atomics :
    [Instr.atadd { r with m := 0x400 }, .atmin { r with m := 0x400 }, .atmax { r with m := 0x400 }, .atand { r with m := 0x400 }, .ator { r with m := 0x400 },
     .atxor { r with m := 0x400 }, .atexch { r with m := 0x400 }, .atinc { r with m := 0x400 }, .atdec { r with m := 0x400 }, .atfadd { r with m := 0x400 },
     .atfmin { r with m := 0x400 }, .atfmax { r with m := 0x400 }, .atcas { r3 with m := 0x400 },
     .atcas128 { r3 with d := .v 4, b := .v 8, c := .v 12, m := 0x800 }, .redadd { r with d := .v 0, m := 0x400 }, .redmin { r with d := .v 0, m := 0x400 },
     .redmax { r with d := .v 0, m := 0x400 }, .redfadd { r with d := .v 0, m := 0x400 }].all lines.passes = true ∧
    lines.lanesOk 0xF 4 true (fun l => noHost false (lead lines .atomic 4 l)) = true ∧
    lines.lanesOk 0xF 16 true (fun l => noHost false (lead lines .atomic 16 l)) = true ∧
    lines.lanesOk 0xF 4 true (fun l => noHost false (lead lines .write 4 l)) = true ∧
    hosted.lanesOk 0xF 4 true (fun l => noHost true (lead hosted .atomic 4 l)) = true ∧
    outsideLane 0xF (fun l => noHost true (lead hosted .atomic 4 l)) = true ∧ outsideLane 0xF (fun l => noHost false (lead lines .atomic 4 l)) = false := by
  decide
/-- AtomicSum. -/
theorem meets_atomic_sum : ([(0, 1), (1, 2), (31, 3)] : List (Nat × Nat)).Pairwise (fun p q => p.1 ≠ q.1) := by decide
/-- A write of the group to host memory has not performed. -/
def pending : State := { plain with writes := [{ id := 1, core := 0, slot := 0, gen := 0, outside := true }] }
/-- FencesAndCacheControl: nothing pending, a write pending at sys scope, and the two cache forms. -/
theorem meets_fences :
    let f := fun (scp : BitVec 12) => Instr.fence { rm with d := .v 0, mm := 0x180 + scp }
    plain.passes (f 0x40) = true ∧ plain.ordOk 3 4 = true ∧ pending.passes (f 0x40) = true ∧ pending.actOf yes ≠ 0 ∧ pending.ordOk 3 4 = false ∧
    pending.ordOk 3 3 = true ∧ plain.passes (.pref { rm with d := .v 0, mm := 0 }) = true ∧ plain.passes (.cctl { rm with d := .v 3, mm := 0xC }) = true := by
  decide
/-- LocalLoads, LocalStores, LocalAtomics. -/
theorem meets_local :
    [Instr.lds rm, .ldl rm, .sts rm, .stl rm, .ldsv { rm with a := .k 0 }, .stsv { rm with a := .k 0 }, .atsadd { r with m := 0x400 },
     .atsmin { r with m := 0x400 }, .atsmax { r with m := 0x400 }, .atscas { r3 with m := 0x400 }].all lines.passes = true ∧
    (∀ k ∈ [LocalKind.load, .store, .atomic], lines.localOk 0xF k 4 (fun l => (lines.src (.v 0) l).toNat) = true) ∧
    (∀ k ∈ [LocalKind.load, .store], lines.localOk 0xF k 4 (fun l => (lines.src (.k 0) l + BitVec.ofNat 32 (l * 4)).toNat) = true) ∧
    ∀ l ∈ lanesOf 0xF, let a := (plain.src (.v 0) l).toNat
      a % 4 = 0 ∧ a + 4 ≤ plain.curBlock.kd.lane ∧ plain.poisonAt (laneWordKey 0 (laneKey plain.curBlock (plain.cur.tid l) a)) 4 = false := by decide

/-- A shape record of one row of 32 bytes at 0x100 lies at scratchpad address 0x400; k0 is 0x800, k1 the record. -/
def shaped : State := stateOf { core with
  groups := [(0, { group with k := [(0, 0x800), (1, 0x400)] })]
  scratch := [(0x401, 1), (0x408, 32), (0x40A, 1), (0x40C, 1)] }
/-- The same with that window bound, its first word dirty. -/
def windowed : State := stateOf { core with
  groups := [(0, { group with k := [(0, 0x800), (1, 0x400)] })]
  scratch := [(0x401, 1), (0x408, 32), (0x40A, 1), (0x40C, 1), (0x800, 7)]
  windows := [⟨0, 3, 1, 0x800, 32, 0x100, 32, 1, 1, 0, 0, 0, 1⟩]
  marks := [(0x200, { d := true, be := 0xF })] }
/-- The same while another window shares the line. -/
def sharedWindow : State := { windowed with dir := [(514, { ws := [(0, 2, 1)] })] }
/-- WindowForms: the flush performs at once, or waits for the other window. -/
theorem meets_window_forms :
    let x := { r with d := .hnd (.win 3), a := .k 0, b := .k 1, m := 1 }
    let y := { r0 with d := .hnd (.win 3), m := 0x030 }
    let h := shapeOf (shaped.spRead 0 0 0x400 32)
    [Instr.wmap x, .wflush y, .wunmap y, .winv { y with m := 0 }].all (fun i => shaped.passes i && windowed.passes i && empty.passes i) = true ∧
    shapeOk (shaped.spRead 0 0 0x400 32) = true ∧ h.size = 32 ∧ 0x800 + h.size ≤ shaped.curBlock.scratchBytes ∧ meets 0x800 32 0x400 32 = false ∧
    (shaped.core 0).destHit (shaped.curBlock.sbase + 0x800) 32 = false ∧ (shaped.core 0).window 0 3 = none ∧
    ((windowed.core 0).window 0 3).isSome = true ∧ windowed.ordOk 2 3 = true ∧
    (shaped.cur.helpers shaped.curBlock) &&& 0xF = 0 ∧ shaped.poisonAt (spKey 0 0x400) 32 = false ∧
    (windowed.core 0).windows.any (fun w => match windowed.flushWindow 0 0 0 0 w, sharedWindow.flushWindow 0 0 0 0 w with
      | .ok t, .ok u => !t.unperformed 0 windowed.curBlock 3 && t.rd 0x10100 4 == 7 && (t.marksAt 0 0 0x800).f.contains 0 &&
        u.unperformed 0 windowed.curBlock 3
      | _, _ => false) = true ∧ windowed.cur.flushing = false := by decide +kernel

/-- Sixteen entries on the stack. -/
def full : List StackEntry := List.replicate 16 { rcv := false, pc := 0x40100, mask := 0 }
/-- Targets in k2 and v4, an odd one in k4, a table of entries at 0x100 that k6 names; p1 holds in lanes 0 and 1. -/
def jumping : Group := { group with
  k := [(2, 0x40080), (4, 0x40081), (6, 0x100)]
  v := [(1, 64), (2, 128), (3, 192), (128, 0x40080), (129, 0x40100), (130, 0x40080), (131, 0x40080)]
  p := [(1, 3)] }
/-- ControlTransfers: each form with lanes, without, with a full stack, and with a target that is no multiple of 8. -/
theorem meets_control_transfers :
    let s := withGroup jumping
    let f := withGroup { jumping with stack := full }
    let g : Guard := ⟨false, 1⟩
    let x := { r0 with g, a := .k 2 }
    s.passes (.bra rb) = true ∧ s.passes (.call { rb with lnk := .v 2 }) = true ∧ s.passes (.bra { rb with g, ofs := 0xFFFFFFFE }) = true ∧
    s.actOf yes = s.cur.m ∧ s.actOf g = 3 ∧ s.cur.stack.length < 16 ∧ ¬(f.actOf g = f.cur.m ∨ f.cur.stack.length < 16) ∧
    [Instr.bra { rb with g }, .call { rb with g, lnk := .v 2 }, .brx x, .ret x, .callx { x with d := .discard }].all f.passes = true ∧
    [Instr.brx { x with a := .k 4 }, .ret { x with a := .k 4 }, .callx { x with a := .k 4, d := .v 2 }, .brx { x with a := .v 4 }].all s.passes = true ∧
    (lanesOf (s.actOf g)).filter (fun l => s.src64 (.k 4) l &&& 7 != 0) = [0, 1] ∧ (lanesOf 0xF).all (fun l => s.src64 (.k 2) l &&& 7 == 0) = true ∧
    (lanesOf 0xF).all (fun l => s.src64 (.v 4) l == s.src64 (.v 4) 0) = false ∧ empty.passes (.callx { x with a := .k 2 }) = true ∧
    empty.actOf yes = 0 := by decide
/-- CALLL reads its entries. -/
theorem meets_calll :
    let s := { withGroup jumping with mem := [(0x10101, 1), (0x10102, 4)] }
    let at_ := fun (l : Nat) => s.reachCur .read 8 (s.src64 (.k 6) l).toNat
    s.passes (.calll { rm with a := .k 6, mm := 0x6B0 }) = true ∧ s.ordOk 1 3 = true ∧ s.lanesOk 0xF 8 true at_ = true ∧ outsideLane 0xF at_ = false ∧
    s.acqOk 1 3 (laneCells (keysOf 0xF at_) 8) = true ∧ s.readAt 8 (at_ 0) = 0x40100 := by decide
/-- ReconvergenceAndTraps. -/
theorem meets_reconvergence_and_traps :
    let trap := Instr.trap { ri with d := .v 0 }
    let g : Guard := ⟨false, 1⟩
    let t := withGroup { group with trapbase := 0x50000 }
    let f := withGroup { jumping with
      stack := full
      trapbase := 0x50000 }
    let att : State := { plain with parts := [(0, { dies := [0], dbgctl := 1 })] }
    plain.passes (.rcv rb) = true ∧ f.passes (.rcv rb) = true ∧ plain.passes (.join r0) = true ∧ joinStack 0x40000 [] = .fault 1 ∧
    joinStack 0x40000 [⟨true, 0x40000, 3⟩] = .run 3 0x40008 [] ∧ joinStack 0x40000 [⟨true, 0x40000, 0⟩] = .ends ∧
    [plain, empty].all (fun s => s.passes (.exit r0) && s.passes (.nop r0) && s.passes trap) = true ∧ (withGroup jumping).passes (.exit { r0 with g }) = true ∧
    plain.passes (.loophint { ri with d := .v 0 }) = true ∧ plain.cur.trapbase = 0 ∧ t.passes trap = true ∧ t.cur.trapbase ≠ 0 ∧
    f.passes (.trap { ri with d := .v 0, g }) = true ∧ f.cur.m &&& ~~~(f.actOf g) ≠ 0 ∧ plain.passes (.bkpt { ri with d := .v 0 }) = true ∧
    att.passes (.bkpt { ri with d := .v 0 }) = true ∧ (att.part att.curBlock.part).dbgctl.getLsbD 0 = true := by decide

/-- NamedBarriers: the whole block arrives; a count of 8 that four threads do not complete; a count of 1,024 that a record holds. -/
theorem meets_named_barriers :
    let b := Opnd.hnd (.bar 5)
    let open_ := stateOf { core with bars := [{ blk := 0, name := 5, explicit := true, expect := 1024, arrived := [], waiters := [] }] }
    let s := withGroup { group with k := [(7, 8), (8, 1024)] }
    [Instr.barSync { r0 with d := b, a := .discard }, .barArrive { r0 with d := b, a := .discard, m := 1 }].all (fun i => plain.passes i && empty.passes i) = true ∧
    plain.cur.st = .running ∧ (plain.core 0).barFree 0 = true ∧ s.passes (.barSync { r0 with d := b, a := .k 7 }) = true ∧ (s.src (.k 7) 0).toNat = 8 ∧
    (s.src (.k 8) 0).toNat = 1024 ∧ (plain.cur.threadsIn 0xF).length = 4 ∧
    plain.arrivesOk 1 = true ∧ (plain.core 0).barHeld { blk := 0, name := 5, explicit := false, expect := 0, arrived := [], waiters := [] } = false ∧
    (let halted := stateOf { core with
       groups := [(0, group), (1, { group with
         st := .halted
         tids := [(0, 5)] })]
       blocks := [(0, { block with
         slots := [0, 1]
         threads := block.threads ++ [(4, ⟨true, 1, 0⟩)] })] }
     (halted.core 0).barHeld { blk := 0, name := 5, explicit := true, expect := 4, arrived := [0, 1, 2, 3], waiters := [0] } = true) ∧
    ((open_.core 0).bars.find? (fun r => r.blk == 0 && r.name == 5)).isSome = true := by decide
/-- GangBarriersAndDeclarations: the block alone completes, or another thread is still to come; a declaration of 1 and of 40. -/
theorem meets_gang_barriers :
    let gb := { r0 with d := .hnd (.gb 0) }
    let s := withGroup { group with k := [(0, 1), (1, 40)] }
    let more := withBlock { block with
      bx := 5
      threads := block.threads ++ [(4, ⟨true, 1, 0⟩)] }
    [plain, empty, more].all (fun s => s.passes (.gbarSync gb) && s.passes (.gbarArrive { gb with m := 1 })) = true ∧
    [Opnd.k 0, .k 1].all (fun a => s.passes (.cvdecl { r0 with d := .hnd (.cv 15), a })) = true ∧ (s.src (.k 1) 0).toNat = 40 ∧
    plain.curBlock.gsets.length < 2 ∧ covers (plain.cur.threadsIn 0xF) plain.curBlock.live = true ∧ plain.curBlock.live ≠ [] ∧
    covers (more.cur.threadsIn 0xF) more.curBlock.live = false ∧ plain.curBlock.gangLaunch = false ∧ plain.curBlock.preempt = none ∧
    [plain, more].all (fun s => s.arrivesOk 2 && (s.fullSets 0).isEmpty && (SMap.get [] s.gangs 0).isEmpty && s.cur.st == .running) = true ∧
    plain.curSlot ∈ plain.curBlock.slots := by decide

/-- Page generation, the heap and fault handling are enabled; the tables at 0 lead address 0 to a COMMITTED page and 0x10000 to a RESERVED one. -/
def sparse : State := { withGroup { group with
    v := [(1, 0x10000), (2, 0x10000), (3, 0x10000)]
    k := [(0, 16)] } with
  tlb := []
  parts := [(0, { dies := [0], heapsize := 65536, aspaces := [(0, { used := true, pgen := true, heapen := true, flten := true })] })]
  mem := [(0, 2), (2, 1), (0x10000, 2), (0x10002, 2), (0x20000, 0xE2), (0x20008, 0xE1)] }
/-- PageForms. -/
theorem meets_page_forms :
    let asp := SMap.get {} (sparse.part 0).aspaces 0
    let end_ := fun l => walk sparse 0 (sparse.rootOf 0 0 (sparse.src64 (.v 0) l).toNat) (sparse.src64 (.v 0) l).toNat
    let e := sparse.fe yes
    [Instr.pgcommit { r1 with m := 1 }, .pgrelease r1, .pgprot r, .pgquery { r1 with a := .v 0 }, .pgpool { r0 with d := .v 2, c := 3 }].all sparse.passes = true ∧
    asp.pgen = true ∧ sparse.ordOk 3 3 = true ∧ (end_ 0).kind = .leaf ∧ (end_ 0).level = 3 ∧ pteSt (end_ 0).entry = 2 ∧ pteSt (end_ 1).entry = 1 ∧
    (∀ l ∈ lanesOf 0xF, (sparse.src64 (.v 0) l).toNat < 2 ^ 56 ∧ (end_ l).kind ≠ .absent ∧ (end_ l).kind ≠ .held ∧ e.commitBusy = false ∧
      e.releaseBusy (end_ l) = false ∧ sparse.poisonAt (end_ l).addr 8 = false ∧ e.protBusy (sparse.src (.v 1) l).toNat (end_ l) = false) ∧
    sparse.acqOk 1 3 ((lanesOf 0xF).map (fun l => ((end_ l).addr, 8))) = true := by
  decide +kernel
/-- HeapForms. -/
theorem meets_heap_forms :
    [Instr.halloc r1, .hfree r1, .hsize r1].all sparse.passes = true ∧ (SMap.get {} (sparse.part 0).aspaces 0).heapen = true ∧ sparse.ordOk 2 3 = true ∧
    sparse.ordOk 1 3 = true := by decide

/-- Slot 1 holds a group that is suspended at 0x40010 under FAULTID 0x10001; v0 of lane 0 is that number. -/
def suspended : State := { stateOf { core with
    groups := [(0, { group with v := [(0, 0x10001)] }), (1, { group with
      st := .suspended 0x10001
      pc := 0x40010
      faults := 1
      susp := some ⟨0x10001, 0x40010, 4, 0, 0, 0, 0, 1⟩ })]
    blocks := [(0, { block with
      slots := [0, 1]
      ngrp := 2 })] } with
  parts := [(0, { dies := [0], aspaces := [(0, { used := true, flten := true })] })] }
/-- GroupResume: each action names the other group, and without a lane nothing happens; FunctionRegisters: the host's resumptions. -/
theorem meets_resume :
    [Instr.gresumeReplay r1, .gresumeSkip { rp with a := .v 0, m := 1 }, .gresumeKill { r1 with m := 2 }].all (fun i => suspended.passes i && empty.passes i) = true ∧
    suspended.ordOk 2 3 = true ∧ (SMap.get {} (suspended.part 0).aspaces 0).flten = true ∧
    (∀ q ∈ [0, 1, 2], suspended.resumeHeld 0x10001 q = false ∧ (match suspended.resume 0 0x10001 q 0x40020 with
      | some (st, t) => st == 0 && t.cur.st == (if q = 2 then .free else .running)
      | none => false) = true) := by decide +kernel

/-- Rearrangement: the forms on a fresh rendezvous, and a rendezvous at which both groups of a block have arrived. -/
theorem meets_rearrangement :
    let rv : Rdv := { pc := 0x40000, back := false, key := .v 12, bits := 2, arrived := [0] }
    let s := stateOf { core with
      groups := [(0, { group with st := .waiting .regroup })]
      blocks := [(0, { block with rdv := some rv })] }
    plain.passes (.regroup { r0 with a := .v 12, m := 2 }) = true ∧ plain.passes (.regroupb r0) = true ∧ plain.cur.m = ~~~plain.cur.exitm ∧
    plain.cur.stack = [] ∧ (plain.fe yes).matPending = false ∧ ((s.core 0).block 0).rdv = some rv ∧
    (s.core 0).shuffleReady ((s.core 0).block 0) rv = true ∧
    s.unperformedBy 0 ((s.core 0).participants ((s.core 0).block 0)) 1 = false ∧
    s.unseen 0 ((s.core 0).participants ((s.core 0).block 0)) 1 = false := by decide

/-- Scratchpad addresses 0, 32, 64 and 96 in v0, global addresses 0, 128, 256 and 384 in v[4:5], 16 bytes in v6, a pair of 16 in v[8:9]; k2 is 64,
k3 a shape record at 0x400, k[4:5] a global address. -/
def copying : Group := { group with
  v := [(1, 32), (2, 64), (3, 96), (129, 128), (130, 256), (131, 384), (192, 16), (193, 16), (194, 16), (195, 16), (256, 16), (257, 16), (258, 16),
    (259, 16)]
  k := [(2, 64), (3, 0x400), (4, 0x200), (6, 32)] }
/-- A core whose group runs with these registers, and the shape record of `shaped`. -/
def copyCore : Core := { core with
  groups := [(0, copying)]
  scratch := [(0x401, 1), (0x408, 32), (0x40A, 1), (0x40C, 1)] }
/-- The device with it. -/
def copyable : State := stateOf copyCore
/-- Its group has an operation outstanding at tag 0. -/
def tagged : State := stateOf { copyCore with groups := [(0, { copying with
  tg := [(0, 1)]
  mtc := 1 })] }
/-- CopyForms: every form with lanes, without, with a count of zero, and the waits with an operation outstanding or none. -/
theorem meets_copy_forms :
    let s := copyable
    let e := s.fe yes
    let x : FmtR3 := { r3 with d := .hnd (.tg 0), a := .v 0, b := .v 4, c := .v 6 }
    let p : FmtR3 := { x with a := .v 4, b := .k 4, c := .v 8 }
    let f : FmtR3 := { x with b := .const 0 }
    let st : FmtR := { r0 with d := .hnd (.tg 0), a := .k 2, b := .k 3 }
    let w : FmtR := { r0 with d := .hnd (.tg 0) }
    [Instr.cpy32 x, .cpy32 { x with m := 1 }, .cpyb x, .cpyb { x with a := .v 4, b := .v 0, m := 1 }, .cpyb { x with b := .v 0, m := 2 },
     .cpyb { x with a := .v 4, m := 3 }, .cpyfill f, .cpyfill { f with a := .v 4, m := 1 }, .cpyp p, .cpyst st, .cpywait w,
     .cpywait { r0 with m := 1 }, .cpycnt { r0 with d := .v 2, a := .hnd (.tg 0) }, .cpyb { x with c := .const 0 }, .cpyp { p with c := .const 0 }].all
      (fun i => s.passes i && empty.passes i && tagged.passes i) = true ∧
    (lanesOf 0xF).all (fun l => (gravest ([alignedAt 4 (s.src (.v 0) l).toNat, alignedAt 4 (s.src64 (.v 4) l).toNat, e.ownSpot (s.src (.v 0) l).toNat 32] ++
      e.pagesReach .read (s.src64 (.v 4) l).toNat 16)).2 == .zero) = true ∧
    [(true, Opnd.v 4), (false, .v 0)].all (fun q => (gravest [(e.bulkEnd q.1 q.2 16).1]).2 == .zero) = true ∧
    s.ordOk 2 4 = true ∧ s.ordOk 1 1 = true ∧ s.ordOk 1 4 = true ∧ s.cur.peerTags = 0 ∧
    (s.core 0).copyInsts = 0 ∧ s.cur.tag 0 = 0 ∧ s.cur.tg = [] ∧ tagged.cur.tag 0 = 1 ∧
    [w, { r0 with m := 1 }].all (fun w => s.cur.tagsDone (tagsOf w) && !tagged.cur.tagsDone (tagsOf w)) = true ∧
    s.toBeWritten 0 s.curBlock [(spOff 0x400, 32)] = false ∧ s.localPoison 0 0 32 0x400 = false ∧
    (s.src64 (.v 8) 0).toNat = 16 := by decide +kernel
/-- BoxAndTileForms: a box, tiles of both sides and kinds, and a sparse slot of no values; MTWAIT with a tile outstanding and without. -/
theorem meets_box_and_tile_forms :
    let s := copyable
    let e := s.fe yes
    let rec_ := s.spRead 0 0 0x400 32
    let h := shapeOf rec_
    let g : FmtR := ⟨yes, .k 2, .k 4, .v 0, 0, 0x400⟩
    [Instr.gath g, .gath { g with a := .k 2, m := 0x500 }, .scat g, .scat { g with m := 0x420 }, .scat { g with m := 0x440 },
     .gathbm { r3 with d := .k 2, a := .k 4, b := .v 0, c := .k 6, m := 0x400 }, .mtwait r0].all (fun i => s.passes i && empty.passes i && tagged.passes i) = true ∧
    (gravest [e.ownSpot 0x400 32]).2 = .zero ∧ boxOk rec_ = true ∧ h.size = 32 ∧ h.below = false ∧ h.rows.all (fun r => r + 32 ≤ 2 ^ 56) = true ∧
    (gravest [e.ownSpot 64 h.size]).2 = .zero ∧
    (lanesOf 0xF).all (fun l => (gravest ([alignedAt 4 64, alignedAt 4 0x200, e.ownSpot 64 128, alignedAt 4 (e.tileAddr g l)] ++
      e.pagesReach .read (e.tileAddr g l) 4)).2 == .zero && (gravest (e.pagesReach .write (e.tileAddr g l) 4)).2 == .zero) = true ∧
    s.localPoison 0 0 32 0x400 = false ∧ s.toBeWritten 0 s.curBlock (e.pages .read 0x200 2) = false ∧ s.ordOk 1 1 = true ∧
    (s.src (.k 6) 0).toNat = 32 ∧ (gravest [e.ownSpot 64 128]).2 = .zero ∧ (gravest (e.pagesReach .read 0x200 8)).2 = .zero ∧ s.cur.mtc = 0 ∧
    (s.core 0).tileq = [] ∧ tagged.cur.mtc = 1 := by decide +kernel
/-- A copy of 32 bytes from memory to the scratchpad, one whose page is absent, and a tile request. -/
def moving : State := stateOf { core with
  copyq := [⟨1, 1, 0, 0, 0, 0x40000, [(.mem 0x10100, 32)], [(.sp 0, 32)], false, 0, none⟩,
    ⟨2, 2, 0, 0, 0, 0x40008, [(.gl 0x90000, 32)], [(.sp 64, 32)], false, 0, none⟩]
  tileq := [⟨3, 0, 0, 1, [(.mem 0x10200, 4)], [(.sp 128, 4)], .move⟩]
  groups := [(0, { group with
    tg := [(0, 2)]
    mtc := 1 })] }
/-- EngineEvents. -/
theorem meets_engine_events :
    moving.enginesHeld 0 = false ∧
    ((moving.core 0).copyq[0]?.any (fun o => let w := moving.copyRest 0 o
      resolved w.1 && resolved w.2 && moving.mayRun 0 o.id block w.1 w.2 && (moving.poisonIn 0 0 w.1).isNone && o.susp.isNone)) = true ∧
    ((moving.core 0).copyq[1]?.any (fun o => o.susp.isNone && lowestFail (moving.pieceFails 0 block o 0) == some (0x90000, .bad 4 0))) = true ∧
    ((moving.core 0).tileq.any (fun q => q.tile == 1 && moving.mayRun 0 q.id block q.reads q.writes && (moving.poisonIn 0 0 q.reads).isNone)) = true ∧
    moving.hubq = [] ∧ (let s := stateOf { core with tileq := [⟨3, 0, 0, 1, [(.mem 0x10200, 10)], [(.sp 128, 128)], .expand 0x200 32 4 1⟩] }
      (s.core 0).tileq.any (fun q => resolved (s.moreValues 0 q 0x200 4 1 0)) = true) := by
  decide +kernel

/-- Reservations 0 and 1 of 16 rows of 32 bf16 elements and tile 2 of the block, a reservation record at 0x500, addresses in k registers. -/
def matrix : Core := { core with
  groups := [(0, { group with k := [(1, 0x500), (2, 32), (3, 128), (4, 0x200), (6, 0x600)] })]
  scratch := [(0x500, 3), (0x502, 4), (0x504, 32)]
  resv := [⟨0, 0, 0, 1024, 3, false, false, 16, 32, 0, []⟩, ⟨0, 1, 1024, 1024, 3, false, false, 16, 32, 0, []⟩,
    ⟨0, 2, 2048, 2048, 3, false, true, 16, 64, 0, []⟩]
  claims := [(2, 1)] }
/-- The device with it. -/
def matrixState : State := stateOf matrix
/-- The same with an empty active mask. -/
def matrixIdle : State := stateOf { matrix with groups := [(0, { group with m := 0 })] }
/-- MatrixForms: reservation 3 and tile 3 are free, reservations 0 and 2 and tile 2 are the block's. -/
theorem meets_matrix_forms :
    let s := matrixState
    let c := s.core 0
    let e := s.fe yes
    let t := fun (n : BitVec 3) => Opnd.hnd (.acc n)
    let o := fun (n : BitVec 5) => Opnd.hnd (.ob n)
    let rec_ := s.spRead 0 0 0x500 16
    [Instr.obrsv { r1 with d := o 3, a := .k 1 }, .obrel { r0 with d := o 0 }, .obldS ⟨yes, o 0, .k 4, .const 0, .k 2, 0⟩,
     .obldR ⟨yes, o 0, .v 0, .k 3, .v 0, 1⟩, .tfetch ⟨yes, o 0, .k 4, .const 0, .k 2, 0⟩, .tfrel { r0 with d := o 0 }, .accinitZero { r0 with d := t 3 },
     .accinitLd { r0 with d := t 2, a := .k 6, m := 1 }, .mdrainS { r0 with d := t 2, a := .k 6, m := 6 }].all
       (fun i => s.passes i && matrixIdle.passes i) = true ∧
    c.reservation 0 3 = none ∧ c.resv.length < 32 ∧ (gravest [e.ownSpot 0x500 16]).2 = .zero ∧ resvOk rec_ = true ∧
    c.obFree (resvOf rec_).rangeBytes = some 4096 ∧ (c.reservation 0 0).isSome = true ∧ c.matq = [] ∧ (gravest [e.ownSpot 0x200 32]).2 = .zero ∧
    (gravest (e.pagesReach .read 0x200 32)).2 = .zero ∧ SMap.get 0 c.claims 3 = 0 ∧ SMap.get 0 c.claims 2 = 1 ∧ c.claimed 0 2 = true ∧
    (gravest [e.ownSpot 0x600 16384]).2 = .zero ∧
    [(0x200, 32), (0x600, 16384), (0x500, 16)].all (fun q => match s.spot 0 0 q.1 q.2 with
      | .ok sp => sp.win.isNone
      | .bad _ => false) = true ∧
    (List.range 16).all (fun i => (s.localReach 0 0 .load 1 (0x500 + i)).2.fine s 32 false false) = true ∧ s.destWait 0 0 16 0x500 = false ∧
    s.staleAt 0 0 0 16 0x500 = false ∧ s.localPoison 0 0 16 0x500 = false ∧ s.arrivesOk 1 = true ∧ (s.src (.k 3) 0).toNat = 128 ∧ (s.src (.k 2) 0).toNat = 32 := by decide +kernel
/-- RoundsAndReads: ACCRD of rows 0 and 63; a round alone, and one that two groups sign: the first and the last. -/
theorem meets_rounds_and_reads :
    let s := matrixState
    let c := s.core 0
    let signed := fun (l : List Nat) => stateOf { matrix with blocks := [(0, { block with cvs := [(1, { decl := 2, signers := l, d := 2, a := 0, b := 1, m := 0 })] })] }
    let x : FmtR3 := ⟨yes, .hnd (.acc 2), .hnd (.ob 0), .hnd (.ob 1), .discard, 0⟩
    let z : FmtR3 := { x with a := .hnd (.ob 2) }
    let k : FmtR := ⟨yes, .v 2, .hnd (.acc 2), .const 0, 0, 0⟩
    let w : FmtR := { r0 with d := .hnd (.acc 2) }
    let busy := stateOf { matrix with matq := [⟨1, 0, [0], .accZero 2, false, false⟩] }
    [Instr.mma x, .mmas z, .accrd k, .accrd { k with m := 2 }, .accrd { k with d := .w 0, b := .k 2, m := 1 }, .mwait w, .mwait { r0 with m := 1 }].all
      (fun i => s.passes i && busy.passes i) = true ∧
    (signed []).passes (.mma { x with c := .hnd (.cv 1) }) = true ∧ (signed [1]).passes (.mma { x with c := .hnd (.cv 1) }) = true ∧
    (signed [1]).curBlock.cvs = [(1, { decl := 2, signers := [1], d := 2, a := 0, b := 1, m := 0 })] ∧
    c.claimed 0 2 = true ∧ c.tileBusy 2 = false ∧ ((c.reservation 0 0).map (·.klen)) = some 32 ∧ ((c.reservation 0 2).map (·.sparse)) = some true ∧
    widthClass 3 = some .c16 ∧ fmtK 3 = 32 ∧ s.devstate ≠ 1 ∧ s.arrivesOk 1 = true ∧ (s.fe yes).mmaReduced x = false ∧
    (let low : State := { (stateOf { matrix with resv := [⟨0, 0, 0, 1024, 2, false, false, 16, 32, 0, []⟩, ⟨0, 1, 1024, 1024, 2, false, false, 16, 32, 0, []⟩] })
       with devstate := 1 }
     (low.fe yes).mmaReduced x = true ∧ low.passes (.mma x) = true) ∧ s.cur.st = .running ∧ 6 ≤ s.curBlock.kd.shares ∧
    ((busy.core 0).matq.filter (fun q => q.work.tile == some 2)).map (·.id) = [1] := by decide +kernel
/-- The queue holds a zeroing, a round and a drain to channels; element 0 takes the drain's tokens. -/
def queued : State := stateOf { matrix with
  matq := [⟨1, 0, [0], .accZero 3, false, false⟩, ⟨3, 0, [0], .drainC 4 false false, false, false⟩, ⟨2, 0, [0], .mma false 2 0 1 0, false, false⟩]
  claims := [(2, 1), (3, 1), (4, 1)]
  placed := [(0, { rgn := 0, region := some .running, nodes := [(0, { kind := 4, route := 0x8000 })] })] }
/-- MatrixEvents. -/
theorem meets_matrix_events :
    let c := queued.core 0
    (c.matq[0]?.any (fun p => let q := p.translated queued 0; queued.matRun 0 0 q && (queued.poisonIn 0 0 q.work.ranges.1).isNone && !q.work.isDrainC && !q.work.isMma)) = true ∧
    c.matq.findIdx? (fun q => q.work.isMma && !q.started) = some 2 ∧ c.round = none ∧
    (c.matq[2]?.any (fun q => c.matFree 2 q && (c.roundRate q).isSome)) = true ∧ c.matq.findIdx? (fun q => q.work.isDrainC) = some 1 ∧
    (c.matq[1]?.any (fun q => c.matFree 1 q)) = true ∧ c.drainBlocked 0 = false ∧ SMap.get 0 c.drain 4 < 511 := by decide +kernel

/-! ### Regions and elements -/

/-- A region image of one element whose slots are empty, with one parameter port at its channel 0 (R391 to R395): 240 bytes. -/
def image : List Byte :=
  bytesOf 64 0x1cc05d1e000000f00000000001000001010101000000000000000000000000000000000000000000000100024d434c50 ++ bytesOf 8 0 ++
  (List.range 16).flatMap (fun _ => bytesOf 4 0x0377C070) ++ bytesOf 76 0 ++ bytesOf 4 4 ++ bytesOf 16 0 ++ bytesOf 8 0x8000
/-- A block with the image at 0x100 of its pages; k[2:3] is that address, v6 a parameter. -/
def regionCore (l : SMap Placed) : Core := { core with
  groups := [(0, { group with k := [(2, 0x100)] })]
  placed := l }
/-- The device with regions. -/
def regional (l : SMap Placed) : State := { stateOf (regionCore l) with mem := (image.zipIdx.map (fun p => (0x10100 + p.2, p.1))).filter (fun p => p.2 != 0) }
/-- Region 1 in a state, its port at channel 0 of element 0. -/
def region1 (r : RegionState) : SMap Placed := [(0, { rgn := 1, region := some r, image := image, ports := [0x8000] })]
/-- RegionForms: the image is accepted where the region is free and refused as busy where it is not; each form meets the states it allows. -/
theorem meets_region_forms :
    let s := regional []
    let x : FmtR := { r0 with m := 1 }
    [Instr.fxload { x with d := .v 3, a := .k 2 }, .fxrun x, .fxwait { x with d := .v 3 }, .fxparam { x with a := .v 6, m := 1 }, .fxdrop x,
     .damp { r0 with d := .v 3 }, .damp ⟨yes, .v 3, .const 0, .v 0, 0, 1⟩].all (fun i => s.passes i && empty.passes i &&
       (regional (region1 .loaded)).passes i) = true ∧
    s.pagesOk 0x100 64 = true ∧ imSize (s.pageBytes 0x100 64) = 240 ∧ s.pagesOk 0x100 240 = true ∧ s.pageBytes 0x100 240 = image ∧
    (s.fe yes).refusal image false = none ∧ (s.fe yes).refusal image true = some (11, 0xFF) ∧
    [RegionState.loading, .loaded, .running, .done, .faulted].all (fun r => ((regional (region1 r)).core 0).regionOf 0 1 == some (0, (region1 r).head!.2)) = true ∧
    (s.core 0).regionOf 0 1 = none ∧
    (let p := (((regional (region1 .loaded)).core 0).placedAt 0)
     ((p.ports[0]?).bind (p.dest 0)).isSome = true) ∧ (s.core 0).drainsInto 0 0 = false ∧
    (let u := regional (region1 .loaded)
     let e := u.fe yes
     let x : FmtR := { r0 with a := .v 6, m := 1 }
     let full : Core := { (u.core 0) with elems := [(0, { owner := 1, chans := [(0, { q := List.replicate 4 (tokenOf 0 (fun _ => 0)) })] })] }
     u.arrivesOk 1 = true ∧ (u.core 0).carillonHeld = false ∧ 4 ≤ (u.core 0).limit ∧
     (e.paramSend x (.chan 0 0) [0] (u.core 0)).2 = none ∧ (e.paramSend x (.chan 0 0) [0] full).2 = some 0 ∧ u.cur.fxOct = 0 ∧
     u.cur.fxEnd = none ∧ (u.core 0).flyingTo 0 = false ∧
     (let v := withGroup { group with fxEnd := some 2 }
      [Instr.fxwait { r0 with d := .v 3, m := 1 }, .fxparam x].all v.passes = true ∧ v.cur.fxEnd = some 2)) := by decide +kernel

/-- The slots of `placeSlot`. -/
noncomputable def firingOf (w : BitVec 32) : State × Firing :=
  let s := State.reset.placeSlot w.toNat
  (s, s.firing 0 0 0 (elemFields w))
/-- ElementResults, ElementFirings, ElementTransport: every form but NOP is ready on a running element with a token in each channel and no
fault; NOP never is. -/
theorem meets_elements :
    wordsElements.all (fun p =>
      let f := (firingOf p.1).2
      let m := elemForm (slotOp p.1)
      ((m.ready f).any (fun r => (m.typeFault f).isNone && (m.stickyFault f r.deqs).isNone) && (m.lanes f).isSome) ||
      (slotOp p.1 == 0 && (m.ready f).isNone)) = true := by decide +kernel
/-- The same forms are not ready without a token. -/
theorem meets_elements_waiting :
    wordsElements.all (fun p =>
      let s := State.reset.placeSlot p.1.toNat
      let c := s.core 0
      let f := (s.setCore 0 { c with elems := [(0, { (c.elem 0) with chans := [], ctxs := [] })] }).firing 0 0 0 (elemFields p.1)
      ((elemForm (slotOp p.1)).ready f).isNone || (taChans (elemFields p.1)).isEmpty) = true := by decide +kernel

/-- A running region: element 0 with a free channel 0 and one blocked at channel 1, a load node, a stream engine and an end node, tokens on
hops to channel 0 and to the end node. -/
def stream : State :=
  let tok := tokenOf (hdrOf false 0 0 0 8 0xFF) (fun _ => 64)
  let c : Core := { core with
    elems := [(0, { owner := 1, chans := [(1, { q := [tok], timer := 4096 })] })]
    placed := [(0, { region := some .running
                     nodes := [(0, { kind := 1, route := 0x8000, opc := 0xA0, mm := 0x400, in0 := [tok] }),
                       (1, { kind := 3, route := 0x8000, walking := true, ext := [8, 1, 1, 1], stride := [4, 0, 0, 0], pos := [0, 0, 0, 0] }),
                       (2, { kind := 3, route := 0x8000, ext := [8, 1, 1, 1], stride := [4, 0, 0, 0], in0 := [tok] }), (3, { kind := 6, in0 := [tok] })] })]
    hops := [(.chan 0 0, tok), (.port 0 3 0, tok), (.chan 0 0, tok)]
    blocks := [(0, { block with tokens := [(0, 3)] })] }
  stateOf c
/-- TokensAndNodes: the first and a later token of a channel, a count token, a load, a stream, a new round, and the end node with END set. -/
theorem meets_tokens_and_nodes :
    let c := stream.core 0
    ((c.elem 0).chan 0).q.length < ((c.elem 0).chan 0).limit ∧ (((c.placedAt 0).node 3).port 0).length < 2 ∧
    (({ kind := 1, in0 := List.replicate 2 (tokenOf 0 (fun _ => 0)) } : Node).port 0).length = 2 ∧ ((c.placedAt 0).node 0).past = [] ∧
    c.hops.take 0 = [] ∧ ((c.hops.take 2).any (fun h => h.1 == .chan 0 0)) = true ∧ (c.block 0).tokens = [(0, 3)] ∧
    ((stream.nodeTurn 0 0).any (fun q => q.d.kind == 1 && q.d.whole && q.room && !q.held && q.fine)) = true ∧
    ((stream.nodeTurn 0 1).any (fun q => q.d.kind == 3 && q.d.walking && (q.p.dest q.pi q.d.route).isSome && q.room && q.streams)) = true ∧
    ((stream.nodeTurn 0 2).any (fun q => q.d.kind == 3 && !q.d.walking && !q.d.in0.isEmpty)) = true ∧
    (let p := c.placedAt 0
     (p.nodes.find? (fun q => q.2.kind == 6)).map (·.1) = some 3 ∧ ((p.node 3).in0.any (fun q => hdrEnd q.hdr 3)) = true ∧
     stream.accessComing 0 0 (p.wiredTo 3) = false ∧ stream.unperformedBy 0 ((p.wiredTo 3).map (nodeSlot 0)) (p.node 3).scope = false) := by decide +kernel
/-- Probes: a channel whose timer has run out; an empty channel that its own element, another element, or nothing feeds. -/
theorem meets_probes :
    let c := stream.core 0
    let q : Probe := { placed := 0, elem := 0, chan := 2, place := 0, path := [] }
    let s := fun (l : SMap Element) => stateOf { c with
      elems := l
      probes := [q] }
    4096 ≤ ((c.elem 0).chan 1).timer ∧ c.probes = [] ∧ (c.placedAt 0).region = some .running ∧
    (s [(0, { owner := 1, routes := [(0, 0x8002)] })]).probeEdges 0 q = [(2, some 0)] ∧
    (s [(0, { owner := 1 }), (1, { owner := 1, routes := [(0, 0x8002)] })]).probeEdges 0 q = [(2, some 1)] ∧
    (s [(0, { owner := 1 })]).probeEdges 0 q = [(2, none)] := by decide +kernel

/-- Two words at 0x40000: v2 rises by 1, and a branch back under p1. -/
def loopWords : List Dword := [0x1070080260400000, 0x01100000FFFFFFFE]
/-- A code object with these words; the group stands at the loop's head, and it has taken the branch back often enough. -/
def looping (c : Core) : State := { stateOf { c with groups := [(0, { group with
      loopH := 0x40000
      loopCount := 8
      p := [(1, 0xF)] })] } with
  mem := ((loopWords.flatMap (fun w => bytesOf 8 w.toNat)).zipIdx.map (fun p => (0x20000 + p.2, p.1))).filter (fun p => p.2 != 0)
  parts := [(0, { dies := [0], objects := [(0, { st := 2, objid := 7, base := 0x40000, pages := 1, size := 65536, present := [0], verified := [0] })] })] }
/-- A copy of the loop. -/
def copyOf : Copy :=
  { slot := 0, head := 0x40000, exitPc := 0x40010, k := 4, permits := 4, entryMask := 0xF, body := loopWords, outs := [2] }
/-- A core that streams it. -/
def streamingCore (q : Copy) : State := looping { core with placed := [(0, { copy := some q, image := image })] }
/-- CapturedLoops: a request without and with its object, the hand-over, an admission, a commit, a damp, an exit and the write-back. -/
theorem meets_captured_loops :
    let cached := looping { core with
      cache := [{ objid := 7, headofs := 0, layhash := 0, k := 4, image := some image, used := 0 }]
      placerq := [{ slot := 0, objid := 7, headofs := 0, layhash := 0, k := 4 }] }
    let c := cached.core 0
    let commits := fun (q : Copy) =>
      let s := streamingCore q
      State.sweep 0 0 0 q.head ⟨q.oldest, q.early, q.body.length⟩ q.body 0 0 (s.trial 0 q) (q.entryMask &&& ~~~q.exited) [] {}
    ((cached.part 0).objectAt 0 0x40000).isSome = true ∧ (cached.eligibleBody 0 block 0x40000).any (fun q => q.1 == loopWords) = true ∧
    cached.breakIn 0 0x40000 0x40008 = false ∧ c.cache.any (·.has ⟨7, 0, 0, 4⟩) = true ∧ c.sharesFit block image = true ∧ c.origin image = some (0, 0) ∧
    (c.group 0).candidate = true ∧ (c.group 0).pc = (c.group 0).loopH ∧ c.carillonHeld = false ∧ 4 ≤ c.limit ∧ cached.devstate ≠ 1 ∧
    (c.group 0).kDepth = 4 ∧ c.copies < 16 ∧ (plain.part 0).objects.find? (fun q => q.2.objid == 7) = none ∧
    ((streamingCore copyOf).core 0).copyAt 0 ≠ none ∧ cached.bodyHeld 0 block 0x40000 96 0 = false ∧
    (match commits { copyOf with inflight := 1 } with
     | .done _ x _ => x == 0
     | _ => false) = true ∧
    (match commits { copyOf with body := [0] } with
     | .damp x _ => !x
     | _ => false) = true ∧
    ((streamingCore { copyOf with exitIter := some 0 }).core 0).copyAt 0 ≠ none ∧
    ((streamingCore { copyOf with damp := some (0, .preempt) }).core 0).copyAt 0 ≠ none ∧
    (match commits { copyOf with inflight := 1, exited := 7, body := [0x01100000FFFFFFFF] } with
     | .done _ x _ => x == 0
     | _ => false) = true ∧
    (match commits { copyOf with inflight := 1, exited := 7, body := [0x01900000FFFFFFFF] } with
     | .done _ x _ => x == 8
     | _ => false) = true ∧
    (((streamingCore { copyOf with leaving := some 0x40010 }).core 0).placedAt 0).frozen = false ∧
    (((streamingCore { copyOf with leaving := some 0x40000, damp := some (0, .preempt), exited := 3 }).core 0).group 0).stack.length < 16 := by decide +kernel

/-- CapturedLoops, an admission: whatever channels the loop feeds, none of them holds a token. -/
theorem meets_captured_loops_space (d : Dest) (h : d ∈ (((streamingCore copyOf).core 0).placedAt 0).entries) :
    ((streamingCore copyOf).core 0).spaceFor d copyOf.octets.length = true := by
  obtain ⟨w, -, rfl⟩ := List.mem_map.1 h
  rfl

/-- A group waits for a reply whose atomic has performed, and another for a translation; a write waits for a window's notice; kit 0 holds line 514. -/
def replying : State :=
  let q : Request := { id := 1, gen := 0, slot := 0, blk := 0, x := yes, act := 0xF, work := .load (.v 2) 0x400 [(0, some (2 ^ 60))] 0 }
  { stateOf { core with
      groups := [(0, { group with st := .waiting .reply }), (1, { group with st := .waiting (.translation [(0, 0x90000)]) })]
      windows := [⟨0, 3, 1, 0x800, 128, 0x100, 128, 1, 1, 0, 0, 0, 1⟩]
      marks := [(0x200, { v := true, src := 65793 })]
      requests := [q, { q with id := 2, work := .atomic 0 false (.v 2) 0x400 [(0, some (2 ^ 60), 1, 0)] none },
        { q with id := 3, gen := 7 }, { q with id := 4, work := .atomic 0 false (.v 2) 0x400 [(0, some (2 ^ 60), 1, 0)] (some [(0, 5)]) }] } with
    notices := [{ core := 0, wid := 1, line := 514, words := 1, write := 1 }]
    writes := [{ id := 1, core := 0, slot := 0, gen := 0, outside := false }, { id := 2, core := 0, slot := 0, gen := 0, outside := true }]
    dir := [(514, { st := 1, kits := [0], ws := [(0, 1, 1)] })] }
/-- What an iteration that damps has filled stays (R274): the sector at 0x800 is valid, from key 0x10100 on, and a word beyond it is not. -/
theorem test_fills_remain :
    let s := replying.setCore 0 { (replying.core 0) with marks := [] }
    let t := s.keepFills replying 0 0
    ((List.range 8).all (fun i => (t.marksAt 0 0 (0x800 + 4 * i)).v && (t.marksAt 0 0 (0x800 + 4 * i)).src == 65793 + 4 * i)) = true ∧
    (t.marksAt 0 0 0x820).v = false := by decide +kernel

/-- RepliesAndDirectory. -/
theorem meets_replies_and_directory :
    let c := replying.core 0
    [1, 2, 3, 4].all (fun n => (c.request n).isSome) = true ∧ c.gen = 0 ∧ replying.partOfDie 0 = some 0 ∧
    (c.request 3).any (fun r => !replying.replyWaits 0 r && r.gen != c.gen) = true ∧
    [1, 4].all (fun n => (c.request n).any (fun r => !replying.replyWaits 0 r)) = true ∧ (c.request 2).any (fun r => !replying.requestHeld r) = true ∧ (c.group 0).st = .waiting .reply ∧
    (c.group 1).st = .waiting (.translation [(0, 0x90000)]) ∧ replying.notices.all (fun q => q.write != 2) = true ∧
    (replying.marksAt 0 0 0x800).hitBy 514 1 = true ∧ (replying.dirEntry 514).eq = [] ∧ replying.slices 0 ≠ [] ∧ replying.holds (128 * 514) 128 = true ∧
    (514 ∈ linesAt (replying.ringKey (replying.homeOf 514).1) 64) = False ∧ (∀ q ∈ replying.notices, q.write ≠ replying.freshWrite) ∧
    (∀ w ∈ replying.writes, w.gen = (replying.core w.core).gen) ∧ (replying.dirEntry 514).kits = [0] ∧
    replying.notices.any (fun q => q.line == 514 && q.core + 64 == 64) = true ∧ replying.retention.contains 3 = false ∧
    (∀ i ∈ List.range 16, (replying.core (16 * 3 + i)).blocks = []) := by decide +kernel
/-- ErrorsAndOutsideAccesses: boundary addresses, a resident block, a poisoned word, and a walk that ends in a leaf. -/
theorem meets_errors_and_outside_accesses :
    (plain.core 0).hasBlock 0 = true ∧ plain.curBlock.gangLaunch = false ∧ ({ plain with poisoned := [64] } : State).poisonAt 64 4 = true ∧
    plain.holds (plain.partBytes 0 - 1) 1 = true ∧ plain.holds (plain.partBytes 0) 1 = false ∧ Config.localArrayBytes - 1 < Config.localArrayBytes ∧ plain.partOfDie (dieOf 0) = some 0 ∧
    (sparse.walkFor 0 0 0 0).cached = true ∧ (SMap.get [] sparse.walks 0).length ≤ 256 ∧ plain.claimed (plain.partBytes 0 - 8) 8 = false ∧
    plain.holds (plain.partBytes 0 - 8) 8 = true ∧ (plain.partBytes 0 - 8) % 8 = 0 := by decide +kernel

/-! ### Commands, registers, blocks and service -/

/-- Tables that map VA 0 to the page at 0x30000, which holds a record, and 5 at 0x800. -/
def tables (record : Nat) : SMap Byte :=
  [(0, 2), (2, 1), (0x10000, 2), (0x10002, 2), (0x20000, 0xE2), (0x20002, 3)] ++
  ((bytesOf 64 record).zipIdx.map (fun p => (0x30000 + p.2, p.1))).filter (fun p => p.2 != 0) ++ [(0x30800, 5)]
/-- A hub with one queue in address space 1, one record in it, and some commands. -/
def hub (record : Nat) (c : SMap Command) : State := { State.reset with
  devstate := 2
  dieok := 3
  mem := tables record
  jbase := 0x100000
  queues := [(0, { st := .active, asid := 1, widx := 1 })]
  commands := c
  nextCmd := 9
  parts := [(0, { dies := [0, 1], qcount := 4, qtbase := 0x30000, asdesc := 0x30000, poolLog := 8, aspaces := [(1, { used := true })] })] }
/-- The bytes of a record of layout 2: TYPE, byte 4, and the fields at 8, 0x10 and 0x18. -/
def record (typ op a b c : Nat) : Nat := 2 + typ * 2 ^ 8 + op * 2 ^ 32 + a * 2 ^ 64 + b * 2 ^ 128 + c * 2 ^ 192
/-- The command of such a record. -/
def command (typ op a b c : Nat) : Command :=
  { typ, asid := 1, raw := bytesOf 64 (record typ op a b c), total := 4, kd := kernel, acceptSeq := 1, latestSeq := 1 }
/-- CommandFetch: a JOURNAL_MARK, a record without a type, and a queue whose base is absent. -/
theorem meets_command_fetch :
    let s := hub (record 8 0 1 0 0) []
    let t := hub (record 9 0 0 0 0) []
    let u := { s with queues := [(0, { st := .active, asid := 1, widx := 1, base := 0x100000 })] }
    let old := fun (op : Nat) => bytesOf 64 (1 + 4 * 2 ^ 8 + op * 2 ^ 32 + 2 ^ 48 + 0x800 * 2 ^ 64 + 5 * 2 ^ 128)
    [0, 1].all (fun op => !layout1Reserved (old op) && layout1Limits (old op) == (op == 0)) = true ∧
    (match (s.advance 0 []).checkRecord 0 (layout2Of 1 (old 0)) with
     | .accept _ => true
     | _ => false) = true ∧
    s.fetchQueue.map (·.1) = some 0 ∧ t.fetchQueue.map (·.1) = some 0 ∧ u.fetchQueue.map (·.1) = some 0 ∧ s.commands.length < 16384 ∧
    (match s.hubReach 0 1 .read 0 64 with
     | .ok l => recField (s.hubBytes l) 0 1 == 2 && (match (s.advance 0 []).checkRecord 0 (s.hubBytes l) with
       | .accept _ => true
       | _ => false)
     | _ => false) = true ∧
    (match t.hubReach 0 1 .read 0 64 with
     | .ok l => (match (t.advance 0 []).checkRecord 0 (t.hubBytes l) with
       | .refuse why _ => why == 2
       | _ => false)
     | _ => false) = true ∧
    (match u.hubReach 0 1 .read 0x100000 64 with
     | .bad _ => true
     | _ => false) = true := by decide +kernel
/-- OrderingCommands: signals of a mapped and an absent counter; conditions met, open and absent; a time-out; a mark; queues free, idle and busy. -/
theorem meets_ordering_commands :
    let s := fun c => hub 0 [(1, c)]
    let at_ := fun (c : Command) => (s c).hubReach c.part c.asid .write (c.field 8 8) 8
    [command 3 0 0x800 7 0, command 3 1 0x800 7 0, command 3 0 0x100000 7 0].all (fun c => (s c).isCommand 1 3 && (s c).oldest 1) = true ∧
    (match at_ (command 3 0 0x800 7 0) with
     | .ok _ => true
     | _ => false) = true ∧
    (match at_ (command 3 0 0x100000 7 0) with
     | .bad _ => true
     | _ => false) = true ∧
    (s (command 4 0 0x800 5 0)).counterAt 0 1 0x800 = some 5 ∧ (command 4 0 0x800 5 0).conds = [(0x800, 5, false)] ∧
    (command 4 1 0x800 6 0).conds = [(0x800, 6, true)] ∧ condHolds (0x800, 5, false) 5 = true ∧ condHolds (0x800, 6, true) 5 = false ∧
    (command 5 3 0x800 5 0x800).conds.length = 3 ∧
    (match (s (command 4 0 0x100000 5 0)).readConds 0 1 [(0x100000, 5, false)] with
     | .bad _ => true
     | _ => false) = true ∧
    (s (command 4 0 0x800 5 1)).isCommand 1 4 = true ∧ (command 4 0 0x800 5 1).field 0x18 4 ≠ 0 ∧ (s (command 8 0 0 0 0)).isCommand 1 8 = true ∧
    [(command 7 0 0 0 0, false), (command 7 1 0 0 0, false)].all (fun c => (s c.1).isCommand 1 7) = true ∧
    ((s (command 7 1 0 0 0)).queue 1).st = .free ∧ (hub 0 [(1, { (command 7 0 0 0 0) with q := 1 })]).othersOf 0 1 = [] ∧
    (hub 0 [(1, { (command 7 0 0 0 0) with q := 1 }), (2, command 8 0 0 0 0)]).othersOf 0 1 = [2] := by decide +kernel
/-- WorkCommands: a launch held and not, retiring and not; a copy whose last piece is left, one with more, one that cannot be read; a preload. -/
theorem meets_work_commands :
    let s := fun c => hub 0 [(1, c)]
    let launch := { (command 1 0 0 0 0) with kd := kernel }
    let run := { launch with st := CmdState.dispatched }
    let cp := { (command 2 0 0x800 0x900 256) with st := CmdState.dispatched }
    let src := fun (c : Command) (n : Nat) => (s c).hubReach 0 1 .read (c.field 8 8) n
    (s launch).launchHeld 1 = false ∧ ({ (s { launch with kd := {} }) with devstate := 1 } : State).launchHeld 1 = true ∧ launch.st = .accepted ∧
    (s { run with finished := 4 }).isCommand 1 1 = true ∧ run.total ≤ 4 ∧ run.finished < run.total ∧ launch.sig.1 = 0 ∧
    (s cp).isCommand 1 2 = true ∧ cp.field 0x18 8 - cp.copied = 256 ∧ (command 2 0 0x800 0x900 257).field 0x18 8 = 257 ∧
    (match src cp 256 with
     | .ok _ => true
     | _ => false) = true ∧
    (match src (command 2 0 0x100000 0x900 256) 256 with
     | .bad _ => true
     | _ => false) = true ∧
    (s (command 6 3 0 1 0)).isCommand 1 6 = true ∧ (command 6 3 0 1 0).st = .accepted ∧
    (let c := { (command 6 3 0 1 0) with
      st := CmdState.dispatched
      cores := [0] }
     (match (s c).preloadCore c 0 (c.field 0x10 4) 0 ((s c).core 0) with
      | (.miss, _) => true
      | _ => false) = true) := by decide +kernel

/-- A host's register page: queue 0 active with a record left, queue 1 free, its QTAB entry at 0x30020, address space 1, a page to give. -/
def page : State :=
  let s := hub (2 ^ 64 * 4 + 2 ^ 80) []
  { s with
    parts := [(0, { (s.part 0) with qtbase := 0x30000 - 32 })]
    drains := [(0, 1, 0, 65536)]
    tlb := [{ level := 0, owner := 0, asid := 1, va := 0, bytes := 65536, entry := 0 }] }
/-- QueueAndSpaceControl: the doorbell at RIDX + 2^LOGSIZE and one above; each status of QCTL and ASCTL; a frame at the last address. -/
theorem meets_queue_and_space_control :
    page.devstate ≠ 0 ∧ (page.queue 0).st = .active ∧ (page.queue 1).st = .free ∧ (page.queue 0).logsize = 4 ∧ (page.queue 0).widx = 1 ∧
    (page.part 0).hasQueue 0 = true ∧ (page.part 0).hasQueue 1 = true ∧ (page.part 0).hasQueue 4 = false ∧
    (page.queueOf 0 (readList page.mem (partKey 0 0x30000) 32)).isSome = true ∧ (page.queueOf 0 (readList page.mem 0x30800 32)) = none ∧ page.othersOf 0 0 = [] ∧
    (SMap.get {} (page.part 0).aspaces 1).used = true ∧ (SMap.get {} (page.part 0).aspaces 2).used = false ∧ page.spaceNamed 0 1 = true ∧
    page.spaceNamed 0 2 = false ∧ (page.part 0).poolFree < (page.part 0).poolCap ∧ (page.partBytes 0 - 65536) % 65536 = 0 ∧
    0x30000 + 32 ≤ page.partBytes 0 ∧ page.hubQuiet (page.poolKey 0 (page.part 0).poolW) 8 ∧
    page.drains.find? (fun d => d.1 == 0) = some (0, 1, 0, 65536) ∧ page.cores = [] ∧ page.functionPart 20 = none ∧
    pfOnly 0x110 = true ∧ page.parts.any (fun k => k.1 == 0) = true ∧ State.reset.parts.any (fun k => k.1 == 0) = false := by decide +kernel
/-- FunctionRegisters: requests for a resident grid and block and for none, at the least and the greatest deadline; rings and bases in use and not. -/
theorem meets_function_registers :
    let claimed : State := { suspended with dir := [(0x400, { eq := [(0, 1)] })] }
    let s := { suspended with
      commands := [(1, { (command 1 0 0 0 0) with
        st := .dispatched
        started := 1
        acceptSeq := 5 })]
      cores := [(0, { (suspended.core 0) with blocks := [(0, { block with cmd := 1 })] })] }
    (∀ a ∈ [0, 1, 2], s.resumeHeld 0x10001 a = false) ∧ claimed.resumeHeld 0x10001 1 = true ∧
    s.savedOf 0 1 0 = false ∧ (s.part 0).dies.contains (dieOf (faultCore 0x10001)) = true ∧ (s.part 0).dies.contains (dieOf (faultCore 0x40000001)) = false ∧
    s.gridOf 0 5 = some 1 ∧ s.gridOf 0 6 = none ∧ s.blocksOf 1 = [(0, 0)] ∧ ((s.core 0).block 0).b = 0 ∧ s.gangBlocks 0 0 = [(0, 0)] ∧
    s.anyActive 0 = false ∧ page.anyActive 0 = true ∧ (s.part 0).csa.length < 4096 ∧ (s.part 0).fqr.toNat ≤ 0 ∧ (s.part 0).fqw = 0 ∧ 1024 ≤ 2 ^ 24 := by
  decide +kernel

/-- A launch with chunks at die 1 and none at die 0, whose core 0 is empty. -/
def dealt : State := { hub 0 [(1, { (command 1 0 0 0 0) with st := .dispatched })] with
  units := [(1, [⟨1, 0, 8, 0⟩, ⟨1, 8, 8, 8⟩])]
  steals := [(1, [⟨1, 16, 8, 16⟩])] }
/-- Distribution: a theft from the only holder, the reply's arrival, a site for a block, gang sites, and a block that has finished. -/
theorem meets_distribution :
    let s := { dealt with units := [(0, [⟨1, 0, 8, 0⟩])] }
    let gangs := { dealt with
      commands := [(1, { (command 1 0 0 0 0) with
        st := .dispatched
        kd := { kernel with gang := 2 } })]
      units := [(0, [⟨1, 0, 2, 0⟩])] }
    let x : Site := ⟨0, 0, 0⟩
    let ended := stateOf { core with
      groups := [(0, { group with st := .ended })]
      blocks := [(0, { block with ngrp := 0 })] }
    dealt.nameable 0 0 = [1] ∧ dealt.partDies 0 = [0, 1] ∧ dealt.idleDie 0 = true ∧ (dealt.freshUnits 1 [1]).length = 2 ∧
    (highestUnit (dealt.freshUnits 1 [1])).isSome = true ∧ SMap.get [] dealt.steals 1 ≠ [] ∧ s.isCommand 1 1 = true ∧
    s.siteOk 0 kernel (groupsOf 4) 1 x = true ∧ (lowestUnit ((s.unitsAt 0).filter (fun u => u.cmd == 1))).map (·.next) = some 0 ∧
    [x, ⟨1, 0, 0⟩].all (gangs.siteOk 0 kernel (groupsOf 4) 1) = true ∧ gangs.gangsOn 0 < 16 ∧ (ended.core 0).hasBlock 0 = true ∧ ended.finished 0 0 = true ∧
    (match ended.flushBlock 0 0 with
     | .done _ => true
     | _ => false) = true := by decide +kernel

/-- A block whose pre-emption has been asked for, and the same with the save area taken. -/
def asked (r : Option Preempt) : State := { withBlock { block with preempt := r } with
  parts := [(0, { dies := [0], csa := [(0x100000, 0x100000)], preemptWait := [(0, 0, 2048)], aspaces := [(0, { used := true })] })] }
/-- The save area of a block taken from those. -/
def taken : Preempt := { deadline := 2048, area := 0x100000, size := 0x100000, ofs := 0, own := 0x80000, expired := false }
/-- Preemption: arrival, deadline, and a save of a block at rest. -/
theorem meets_preemption :
    (asked none).curBlock.preempt = none ∧ ((asked none).part 0).awaits 0 0 = some 2048 ∧ (asked none).curBlock.gangLaunch = false ∧
    pad256 ((asked none).areaNeed 0 0) * 1 ≤ 0x100000 ∧ (asked (some taken)).curBlock.preempt = some taken ∧
    (asked (some taken)).stillBlock 0 0 taken = true ∧
    (let c := (streamingCore copyOf).core 0
     c.streaming 0 = [(0, copyOf)] ∧ (c.placedAt 0).copy = some copyOf ∧ copyOf.injected = false ∧
     (((streamingCore { copyOf with injected := true }).core 0).streaming 0).map (·.2.injected) = [true]) ∧
    (match (asked (some taken)).flushBlock 0 0 with
     | .done s => !s.unperformed 0 (asked (some taken)).curBlock 4 && (s.poisonedOf 0 (asked (some taken)).curBlock).isNone && (match s.savePlacements 0 0 with
       | .ok _ => true
       | _ => false)
     | _ => false) = true := by decide +kernel

/-- A block that has been saved; its area of 44 bytes at 0x100000 holds zeros and their CRC-32 at offset 40 (R442). -/
def savedBlock : SavedBlock :=
  { block, groups := [(0, group)], scratch := [], laneMem := [], bars := [], windows := [], resv := [], tiles := [], matq := [], copies := [],
    placed := [], elems := [], ofs := 0, size := 44 }
/-- A device with its area. -/
def restorable (crc : Nat) : State := { stateOf {} with
  mem := ((bytesOf 4 crc).zipIdx.map (fun p => (0x100028 + p.2, p.1))).filter (fun p => p.2 != 0)
  parts := [(0, { dies := [0], saved := [(3, { area := 0x100000, size := 0x1000, blocks := [savedBlock] })], aspaces := [(0, { used := true })] })] }
/-- Preemption: a restore of a block whose area passes its check, and of one whose area does not. -/
theorem meets_restore :
    let good := restorable 0x8324661C
    let loaded := [(savedBlock.loaded (good.areaOf 0 0x100000 savedBlock), (⟨0, 0, 0⟩ : Site))]
    good.areaWaits 0 0x100000 savedBlock = false ∧ good.areaPoison 0 0x100000 savedBlock = none ∧
    ({ good with poisoned := [0x100004] } : State).areaPoison 0 0x100000 savedBlock = some 0x100004 ∧
    ({ good with dir := [(0x100000 / 128, { eq := [(0, 1)] })] } : State).areaWaits 0 0x100000 savedBlock = true ∧
    (match good.restoreAll loaded with
     | some t => !good.drawHeld t 0
     | none => false) = true ∧
    (restorable 0x8324661C).sitesFor (SMap.get {} ((restorable 0x8324661C).part 0).saved 3) [⟨0, 0, 0⟩] = true ∧
    (restorable 0x8324661C).areaOk 0 0x100000 savedBlock = true ∧
    (restorable 0).areaOk 0 0x100000 savedBlock = false ∧ (restorable 0).sitesFor (SMap.get {} ((restorable 0).part 0).saved 3) [⟨0, 0, 0⟩] = true := by
  decide +kernel

/-- An attached debugger; slot 1 is HALTED and slot 2 asked to halt. -/
def debugged : State := { stateOf { core with groups :=
    [(0, group), (1, { group with st := .halted }), (2, { group with haltReq := true })] } with
  parts := [(0, { dies := [0], dbgctl := 1, dbgring := 0x100000 })] }
/-- DebugPort. -/
theorem meets_debug_port :
    (debugged.part 0).dbgctl.getLsbD 0 = true ∧ (debugged.part 0).dies.contains (dieOf 0) = true ∧ (debugged.group 0 1).st = .halted ∧
    (debugged.group 0 2).st = .running ∧ (debugged.group 0 2).haltReq = true ∧ debugged.quietGroup 0 2 = true ∧ (debugged.group 0 0).st ≠ .halted ∧
    [0, 255, 0x107, 0x110, 0x17F].all (fun r => ((debugged.group 0 1).debugWrite r 31 5).isSome) = true ∧ (debugged.part 0).dbgring ≠ 0 ∧
    (plain.part 0).dbgring = 0 ∧ (debugged.group 0 2).answer = none ∧
    (let s : State := { debugged with
       mem := [(0x20007, 0x0D), (0x20006, 0x70)]
       parts := [(0, { (debugged.part 0) with dbgbp := [(0, 0x40001)] })] }
     (s.core 0).eligible 0 = true ∧ s.bpMatch 0 0 = true ∧ s.fetchFor 0 0 = .word 0x0D70000000000000 ∧
     ({ s with tlb := [] } : State).fetchFor 0 0 ≠ .word 0x0D70000000000000) := by decide +kernel

/-- A header of a code object of one page at VA 0 of address space 1. -/
def loadable : State :=
  hub (0x4E414B46 + 2 * 2 ^ 32 + 7 * 2 ^ 64 + 2 ^ 128) []
/-- ServiceAndCode: reset and the service states, partitions at rest, a link up and down, a loaded and an unloaded object. -/
theorem meets_service_and_code :
    State.reset.devstate = 0 ∧ ({ State.reset with devstate := 1 } : State).devstate = 1 ∧ plain.devstate = 2 ∧
    ({ State.reset with devstate := 2 } : State).cores = [] ∧ ({ State.reset with links := [(0, { up := true, ver := 2, width := 8 })] } : State).blocksOver 0 = [] ∧
    (List.replicate 32 (0 : Byte)).length = 32 ∧ (SMap.get {} (loadable.part 0).objects 3).st = 0 ∧
    ((loadable.loaderRead 0 1 0 80).any (fun l => headerFits l && (objectOf 1 0 l).objid == 7)) = true ∧
    ((loadable.loaderRead 0 1 0 80).any (fun l => !(objectOf 1 0 l).signed && recField l 0x16 2 == 0)) = true ∧
    (loadable.exportNames 0 1 0 65536 0 0 0 0).any distinctNames = true ∧ loadable.importsOk 0 1 0 0 = true ∧ plain.writes = [] ∧ plain.hubq = [] ∧
    (SMap.get {} ((looping core).part 0).objects 0).st = 2 ∧
    (let s := { loadable with parts := [(0, { (loadable.part 0) with objects := [(0, { st := 2, objid := 7, asid := 1, pages := 1, hashofs := 64 })] })] }
     (s.loaderRead 0 1 0 65536).isSome = true ∧ (s.loaderRead 0 1 64 48).isSome = true) := by decide +kernel

/-! ### The step, its checks and its invariant -/

/-- The front end's turn at a word, and at one that is none. -/
def turning (w : Nat) : State := State.reset.placeWord w
/-- StepRunsTheDecodedInstruction: a NOP, a word that is no instruction, an idle core, an element's turn, and an event. -/
theorem meets_step :
    let s := { turning 0x0D70000000000000 with turns := [] }
    (s.core 0).pick (s.accepts 0) = some 0 ∧ decodeWord 0x0D70000000000000 = .ok (.nop r0) ∧
    (match s.fetchFor 0 0 with
     | .word w => w == 0x0D70000000000000
     | _ => false) = true ∧
    s.bpMatch 0 0 = false ∧ (State.reset.core 0).pick (State.reset.accepts 0) = none ∧
    ({ State.reset.placeSlot 0x04410078 with turns := [] } : State).arbiter 0 0 = some 0 ∧ encode (.walkComplete 0 0 0) = .noWord := by
  exact ⟨by decide +kernel, rfl, by decide +kernel, by decide +kernel, by decide +kernel, by decide +kernel, rfl⟩
/-- FrontEndChecks: an illegal modifier, a register at `.regs`, an invalid y0, and a word that is no instruction. -/
theorem meets_checks :
    legal (.iadd { r with m := 1 }) = false ∧ (form (.iadd { r with a := .v 64 })).uses.any (aboveRegs plain.curBlock.kd.regs) = true ∧
    (form (.iadd { r with a := .v 63 })).uses.any (aboveRegs plain.curBlock.kd.regs) = false ∧
    yFault plain.cur (form (.iadd { r with b := .y true })).uses = some 1 ∧ legal (.iadd { r with b := .y true }) = true := by decide
/-- GroupFault: the fault queue has one slot left, and is full. -/
theorem meets_group_fault :
    let p : Partition := { fqbase := 0x100000, fqw := 63, fqr := 0 }
    ({ plain with parts := [(0, { p with dies := [0] })] } : State).hubQuiet (partKey 0 (0x100000 + 64 * 63)) 64 ∧
    p.fqbase ≠ 0 ∧ (p.fqw - p.fqr).toNat < 2 ^ p.fqlog ∧ p.ringFree = true ∧ ({ p with fqw := 64 } : Partition).ringFree = false := by decide
/-- DecodeEncode: the words above are well formed, and they have words. -/
theorem meets_decode_encode :
    (wordsControl ++ wordsGlobalMemory ++ wordsLocalMemoryAndWindows ++ wordsPagesHeapAndResumption ++ wordsEngines ++ wordsMatrixAndBarriers ++
      wordsRegions).all (fun p => wellFormed p.2 && encode p.2 != .noWord) = true := by decide
/-- MemoryStaysCanonical: memory with two bytes listed, and a step. -/
theorem meets_memory_canonical :
    SMap.wf (0 : Byte) [(5, 1), (7, 2)] = true ∧ SMap.wf (0 : Byte) [(5, 0)] = false ∧
    (match step { State.reset with turns := [.issue 5] } with
     | .next _ => true
     | _ => false) = true := by decide +kernel

end Sys2Proof.Tests
end

section
/-!
SUPPORT. What the hub's writes, the journal and the ends of commands can change, and what they leave (R293, R299, R300, R336, R337).
-/

namespace Sys2Proof.Machine

/-! ## The frame of a write of the hub -/

/-- A core but for the marks of its windows. -/
def Core.unmarked (c : Core) : Core := { c with marks := [] }

/-- The state but for its cores, memory and homes: what no write of the hub reaches. -/
def State.beyondHomes (s : State) : State :=
  { s with
    cores := []
    mem := []
    dir := []
    poisoned := []
    notices := []
    writes := []
    hubq := []
    retention := [] }

/-- A write of the hub changes memory and homes, and of the cores nothing but the marks of their windows (R268, R293, R300). -/
structure HubStep (s t : State) : Prop where
  beyond : t.beyondHomes = s.beyondHomes
  cores : ∀ k, (t.core k).unmarked = (s.core k).unmarked

theorem HubStep.refl (s : State) : HubStep s s := ⟨rfl, fun _ => rfl⟩

theorem HubStep.trans {s t u : State} (h : HubStep s t) (k : HubStep t u) : HubStep s u :=
  ⟨k.beyond.trans h.beyond, fun i => (k.cores i).trans (h.cores i)⟩

/-- An operation on the homes alone, whose cores are as before. -/
theorem HubStep.of_cores {s t : State} (h : t.beyondHomes = s.beyondHomes) (hc : t.cores = s.cores) : HubStep s t :=
  ⟨h, fun k => by unfold State.core; rw [hc]⟩

theorem HubStep.foldl {α : Type} {f : State → α → State} (hf : ∀ s a, HubStep s (f s a)) (l : List α) (s : State) :
    HubStep s (l.foldl f s) := by
  induction l generalizing s with
  | nil => exact .refl s
  | cons a r ih => exact (hf s a).trans (ih _)

theorem HubStep.commands {s t : State} (h : HubStep s t) : t.commands = s.commands :=
  show t.beyondHomes.commands = s.beyondHomes.commands by rw [h.beyond]
theorem HubStep.jhead {s t : State} (h : HubStep s t) : t.jhead = s.jhead :=
  show t.beyondHomes.jhead = s.beyondHomes.jhead by rw [h.beyond]

/-- A part of a core other than its marks. -/
theorem HubStep.core_part {α : Type} {s t : State} (h : HubStep s t) (f : Core → α) (hf : ∀ c, f c = f c.unmarked) (k : Nat) :
    f (t.core k) = f (s.core k) := by rw [hf, h.cores k, ← hf]

/-! ## Writes at the homes -/

theorem State.setMarks_hubStep (s : State) (core blk off : Nat) (m : Marks) : HubStep s (s.setMarks core blk off m) where
  beyond := rfl
  cores k := by
    unfold State.setMarks
    rw [State.setCore_core]
    split
    · subst_vars; rfl
    · rfl

theorem State.deliverNotice_hubStep (s : State) (n : Notice) : HubStep s (s.deliverNotice n) := by
  have hd : HubStep s (s.setDir n.line ((s.dirEntry n.line).unshare n.core n.wid n.words)) := .of_cores rfl rfl
  unfold State.deliverNotice
  extract_lets u
  split
  · exact hd
  · refine hd.trans (HubStep.foldl (fun s o => ?_) _ _)
    extract_lets m
    split
    · exact State.setMarks_hubStep ..
    · exact .refl s

theorem State.deliverAll_hubStep (s : State) (w : Nat) : HubStep s (s.deliverAll w) :=
  (HubStep.foldl State.deliverNotice_hubStep _ _).trans (.of_cores rfl rfl)

theorem State.cleanse_hubStep (s : State) (k n : Nat) : HubStep s (s.cleanse k n) := by
  unfold State.cleanse
  split
  · exact .refl s
  · exact .of_cores rfl rfl

/-- A write that no kit makes is ordered at the homes alone. -/
theorem State.ordered_none_hubStep (s : State) (core slot : Nat) (cells : List (Nat × Nat)) (self : Option (Nat × Nat)) :
    HubStep s (s.ordered core slot none cells self) := by
  unfold State.ordered
  exact .of_cores rfl rfl

/-- A write of an agent outside the cores. -/
theorem State.outsideWrite_hubStep (s : State) (k : Nat) (l : List Byte) : HubStep s (s.outsideWrite k l) := by
  have h0 : HubStep s { s with mem := writeList s.mem k l } := .of_cores rfl rfl
  exact ((h0.trans (State.cleanse_hubStep ..)).trans (State.ordered_none_hubStep ..)).trans (State.deliverAll_hubStep ..)

/-- A write of the hub, at once or waiting. -/
theorem State.hubWrite_hubStep (s : State) (k : Nat) (l : List Byte) : HubStep s (s.hubWrite k l) := by
  unfold State.hubWrite
  split
  · exact .of_cores rfl rfl
  · exact State.outsideWrite_hubStep ..

theorem State.retryHub_hubStep (l : List (Nat × List Byte)) (s : State) : HubStep s (State.retryHub l s) := by
  induction l generalizing s with
  | nil => exact .refl s
  | cons q r ih => exact (State.hubWrite_hubStep s q.1 q.2).trans (ih _)

theorem State.releaseClaims_hubStep (s : State) (core : Nat) (ops : List Nat) : HubStep s (s.releaseClaims core ops) :=
  HubStep.trans (t := { s with
    dir := mapDir (fun d => { d with eq := d.eq.filter (fun q => !(q.1 == core && ops.contains q.2)) }) s.dir
    hubq := [] }) (.of_cores rfl rfl) (State.retryHub_hubStep s.hubq _)

theorem State.unregister_hubStep (s : State) (core : Nat) (wids : List Nat) : HubStep s (s.unregister core wids) := .of_cores rfl rfl

theorem State.hubPut_hubStep (s : State) (r : List (EAddr × Nat)) (l : List Byte) : HubStep s (s.hubPut r l) := by
  induction r generalizing s l with
  | nil => exact .refl s
  | cons p r ih =>
    obtain ⟨a, n⟩ := p
    unfold State.hubPut
    refine HubStep.trans ?_ (ih _ _)
    cases a with
    | mem k => exact State.outsideWrite_hubStep ..
    | _ => exact .refl s

/-- A piece of a COPY (R331). -/
theorem State.hubMove_hubStep (s : State) (src dst : List (EAddr × Nat)) : HubStep s (s.hubMove src dst) :=
  (State.hubPut_hubStep s dst (s.hubBytes src)).trans (.of_cores rfl rfl)

/-! ## The frame of the journal and of commands -/

/-- What no record of the journal and no end of a command reaches. -/
def State.beyondHub (s : State) : State :=
  { s.beyondHomes with
    commands := []
    jhead := 0 }

/-- The journal and the ends of commands change memory, homes and marks as the hub does, the table of commands, and the journal's head, which
never falls (R336). -/
structure HubWork (s t : State) : Prop where
  beyond : t.beyondHub = s.beyondHub
  cores : ∀ k, (t.core k).unmarked = (s.core k).unmarked
  head : s.jhead ≤ t.jhead

theorem HubStep.work {s t : State} (h : HubStep s t) : HubWork s t :=
  ⟨by unfold State.beyondHub; rw [h.beyond], h.cores, h.jhead.ge⟩

theorem HubWork.refl (s : State) : HubWork s s := (HubStep.refl s).work

theorem HubWork.trans {s t u : State} (h : HubWork s t) (k : HubWork t u) : HubWork s u :=
  ⟨k.beyond.trans h.beyond, fun i => (k.cores i).trans (h.cores i), h.head.trans k.head⟩

theorem HubWork.core_part {α : Type} {s t : State} (h : HubWork s t) (f : Core → α) (hf : ∀ c, f c = f c.unmarked) (k : Nat) :
    f (t.core k) = f (s.core k) := by rw [hf, h.cores k, ← hf]

theorem HubWork.groupsSame {s t : State} (h : HubWork s t) : GroupsSame s t :=
  fun c i => h.core_part (fun x => x.group i) (fun _ => rfl) c
theorem HubWork.cache {s t : State} (h : HubWork s t) (k : Nat) : (t.core k).cache = (s.core k).cache :=
  h.core_part Core.cache (fun _ => rfl) k
theorem HubWork.units {s t : State} (h : HubWork s t) : t.units = s.units :=
  show t.beyondHub.units = s.beyondHub.units by rw [h.beyond]

theorem GroupsSame.trans {s t u : State} (h : GroupsSame s t) (k : GroupsSame t u) : GroupsSame s u :=
  fun c i => (k c i).trans (h c i)
theorem GroupsSame.of_cores {s t : State} (h : t.cores = s.cores) : GroupsSame s t := by
  intro c i
  unfold State.group State.core
  rw [h]

theorem State.setCommand_hubWork (s : State) (id : Nat) (c : Command) : HubWork s (s.setCommand id c) := ⟨rfl, fun _ => rfl, le_rfl⟩
theorem State.finish_hubWork (s : State) (id : Nat) : HubWork s (s.finish id) := ⟨rfl, fun _ => rfl, le_rfl⟩

/-- One record of the journal: the head rises by one (R336). -/
theorem State.journalRaw_jhead (s : State) (q ver st typ reason flags part : Nat) (ridx : Dword) (data : Nat) :
    (s.journalRaw q ver st typ reason flags part ridx data).jhead = s.jhead + 1 := rfl

theorem State.journalRaw_hubWork (s : State) (q ver st typ reason flags part : Nat) (ridx : Dword) (data : Nat) :
    HubWork s (s.journalRaw q ver st typ reason flags part ridx data) := by
  unfold State.journalRaw
  extract_lets seq r o s1 m s2
  have h1 : HubStep s s1 := State.hubWrite_hubStep ..
  have h2 : HubStep s s2 := by
    simp only [s2]
    split
    · exact h1
    · exact h1.trans (State.hubWrite_hubStep ..)
  exact ⟨h2.work.beyond, h2.cores, Nat.le_succ _⟩

theorem State.carry_hubWork (s : State) (n : Nat) : HubWork s (s.carry n) := by
  induction n generalizing s with
  | zero => exact .refl s
  | succ n ih =>
    unfold State.carry
    split
    · exact ((State.journalRaw_hubWork ..).trans (State.setCommand_hubWork ..)).trans (ih _)
    · exact .refl s

theorem State.journal_hubWork (s : State) (id : Nat) (st : JState) (reason data : Nat) : HubWork s (s.journal id st reason data) :=
  ((State.carry_hubWork ..).trans (State.journalRaw_hubWork ..)).trans (State.setCommand_hubWork ..)

/-- A command that enters a state is journaled at least once. -/
theorem State.journal_jhead (s : State) (id : Nat) (st : JState) (reason data : Nat) : s.jhead < (s.journal id st reason data).jhead := by
  unfold State.journal
  extract_lets s0 c s1
  rw [State.setCommand_jhead, State.journalRaw_jhead]
  exact Nat.lt_succ_of_le (s.carry_hubWork _).head

/-! ## How commands end -/

theorem SMap.del_any {α : Type} (m : SMap α) (k : Nat) : (SMap.del m k).any (fun p => p.1 == k) = false := by
  induction m with
  | nil => rfl
  | cons p r ih =>
    obtain ⟨i, a⟩ := p
    unfold SMap.del
    split
    · exact ih
    · rename_i h; simpa [h] using ih

theorem State.finish_hasCommand (s : State) (id : Nat) : (s.finish id).hasCommand id = false := SMap.del_any s.commands id

/-- A record of the journal and the end of its command, whatever the record says. -/
theorem State.journal_finish (s : State) (id : Nat) (st : JState) (reason data : Nat) :
    HubWork s ((s.journal id st reason data).finish id) ∧ Finished s ((s.journal id st reason data).finish id) id := by
  have h := (s.journal_hubWork id st reason data).trans (State.finish_hubWork _ id)
  exact ⟨h, State.finish_hasCommand _ id, State.journal_jhead s id st reason data, h.groupsSame⟩

theorem State.cmdRetire_hubWork (s : State) (id : Nat) : HubWork s (s.cmdRetire id) := (s.journal_finish ..).1
theorem State.cmdRetire_finished (s : State) (id : Nat) : Finished s (s.cmdRetire id) id := (s.journal_finish ..).2
theorem State.cmdFault_finished (s : State) (id reason data : Nat) : Finished s (s.cmdFault id reason data) id := (s.journal_finish ..).2

/-- What finishes a command after other work of the hub finishes it. -/
theorem HubWork.finished {s t u : State} {id : Nat} (h : HubWork s t) (k : Finished t u id) : Finished s u id := by
  obtain ⟨hc, hj, hg⟩ := k
  exact ⟨hc, h.head.trans_lt hj, h.groupsSame.trans hg⟩

/-- A counter that the hub reaches changes there. -/
theorem State.counterPut_ok {s : State} {part asid va : Nat} {need : Need} {f : Nat → Nat} {l : List (EAddr × Nat)}
    (h : s.hubReach part asid need va 8 = .ok l) :
    s.counterPut part asid need va f = .ok (s.hubPut l (bytesOf 8 (f (natOf (s.hubBytes l))))) := by
  rw [State.counterPut, h]

/-- The completion signal of a LAUNCH or COPY, where it has one, reaches its counter (R329). -/
def State.signalReaches (s : State) (c : Command) : Prop :=
  c.sig.1 = 0 ∨ ∃ l, s.hubReach c.part c.asid .atomic c.sig.1 8 = .ok l

/-- A LAUNCH or COPY retires where its completion signal can be performed. -/
theorem State.retireSignal_finished {s : State} {id : Nat} (h : s.signalReaches (s.command id)) :
    ∃ t, s.retireSignal id = .next t ∧ Finished s t id := by
  rw [State.retireSignal]
  unfold State.signalReaches at h
  generalize (s.command id).sig = q at h ⊢
  obtain ⟨a, v⟩ := q
  dsimp only at h ⊢
  by_cases ha : a = 0
  · rw [if_pos ha]
    exact ⟨_, rfl, State.cmdRetire_finished s id⟩
  · obtain ⟨l, hl⟩ := h.resolve_left ha
    rw [if_neg ha, State.counterPut_ok hl]
    exact ⟨_, rfl, (State.hubPut_hubStep ..).work.finished (State.cmdRetire_finished _ id)⟩

end Sys2Proof.Machine
end

section
/-!
SUPPORT. LAUNCH, GRID_RETIRE, COPY and PLACE_PRELOAD, case by case (R19 to R21, R26, R331, R409).
-/

namespace Sys2Proof.Machine

/-! ## LAUNCH and GRID_RETIRE -/

theorem execLaunch_dispatches {s : State} {id : Nat} (h : s.isCommand id 1 = true) (ha : (s.command id).st = .accepted)
    (hh : s.launchHeld id = false) : execLaunch id s = .next (s.dispatch id) := by
  simp [execLaunch, h, ha, hh]

theorem execLaunch_held {s : State} {id : Nat} (hh : s.launchHeld id = true) : execLaunch id s = .next s := by
  simp [execLaunch, hh]

/-- A dispatch journals the launch, deals its units out and changes no group. -/
theorem State.dispatch_spec (s : State) (id : Nat) :
    GroupsSame s (s.dispatch id) ∧ ((s.dispatch id).command id).st = .dispatched ∧ s.jhead < (s.dispatch id).jhead ∧
      (s.dispatch id).units = dealUnits (s.partDies (s.command id).part) ((s.command id).unitsOf id) s.units := by
  unfold State.dispatch
  extract_lets c s1 s2
  have h0 : GroupsSame s s1 := GroupsSame.of_cores (t := s1) rfl
  have hj : s1.jhead < s2.jhead := s1.journal_jhead id .dispatched 0 0
  have h : HubWork s1 (s2.setCommand id { (s2.command id) with st := .dispatched }) :=
    (s1.journal_hubWork id .dispatched 0 0).trans (s2.setCommand_hubWork id _)
  refine ⟨h0.trans h.groupsSame, ?_, ?_, h.units⟩
  · rw [State.command_setCommand_same]
  · rw [State.setCommand_jhead]
    exact hj

theorem execGridRetire_finished {s : State} {id : Nat} (h : s.isCommand id 1 = true) (hd : (s.command id).st = .dispatched)
    (hf : (s.command id).total ≤ (s.command id).finished)
    (hs : (s.command id).failed.isSome = true ∨ s.signalReaches (s.command id)) :
    ∃ t, execGridRetire id s = .next t ∧ Finished s t id := by
  have hc : ¬ (s.command id).finished < (s.command id).total := by omega
  rw [execGridRetire]
  simp only [h, hd, hc, Bool.not_true, bne_self_eq_false, Bool.or_self, decide_false, Bool.false_eq_true, if_false]
  cases hfail : (s.command id).failed with
  | some q => exact ⟨_, rfl, State.cmdFault_finished s id q.1 q.2.toNat⟩
  | none =>
    rw [hfail] at hs
    exact State.retireSignal_finished (hs.resolve_left (by simp))

theorem execGridRetire_waits {s : State} {id : Nat} (hf : (s.command id).finished < (s.command id).total) :
    execGridRetire id s = .next s := by
  rw [execGridRetire]
  simp [hf]

/-! ## COPY -/

theorem execCopy_dispatches {s : State} {id : Nat} (h : s.isCommand id 2 = true) (ha : (s.command id).st = .accepted) :
    ∃ t, execCopy id s = .next t ∧ GroupsSame s t ∧ (t.command id).st = .dispatched ∧ s.jhead < t.jhead := by
  have hj : s.jhead < (s.journal id .dispatched 0 0).jhead := s.journal_jhead id .dispatched 0 0
  have hw : HubWork s (s.journal id .dispatched 0 0) := s.journal_hubWork id .dispatched 0 0
  have he : execCopy id s = .next ((s.journal id .dispatched 0 0).setCommand id
      { ((s.journal id .dispatched 0 0).command id) with st := .dispatched }) := by
    rw [execCopy, h, ha]
    rfl
  generalize s.journal id .dispatched 0 0 = u at hj hw he
  refine ⟨_, he, (hw.trans (u.setCommand_hubWork id _)).groupsSame, ?_, ?_⟩
  · rw [State.command_setCommand_same]
  · rw [State.setCommand_jhead]
    exact hj

/-- The bytes of a COPY that are still to be copied. -/
def Command.left (c : Command) : Nat := c.field 0x18 8 - c.copied
/-- How the next piece of a COPY reaches its source. -/
def State.copySource (s : State) (c : Command) : Reach := s.hubReach c.part c.asid .read (c.field 8 8 + c.copied) (min 256 c.left)
/-- How it reaches its destination. -/
def State.copyTarget (s : State) (c : Command) : Reach := s.hubReach c.part c.asid .write (c.field 0x10 8 + c.copied) (min 256 c.left)

/-- The state after a piece of a COPY has moved. -/
def State.copyPiece (s : State) (id : Nat) (l w : List (EAddr × Nat)) : State :=
  (s.hubMove l w).setCommand id { (s.command id) with copied := (s.command id).copied + min 256 (s.command id).left }

theorem State.copyPiece_hubWork (s : State) (id : Nat) (l w : List (EAddr × Nat)) : HubWork s (s.copyPiece id l w) :=
  (State.hubMove_hubStep s l w).work.trans (State.setCommand_hubWork ..)

theorem execCopyRetire_moves {s : State} {id : Nat} {l w : List (EAddr × Nat)} (h : s.isCommand id 2 = true)
    (hd : (s.command id).st = .dispatched) (hl : 0 < (s.command id).left) (hs : s.copySource (s.command id) = .ok l)
    (ht : s.copyTarget (s.command id) = .ok w) :
    execCopyRetire id s = if (s.command id).left ≤ 256 then (s.copyPiece id l w).retireSignal id else .next (s.copyPiece id l w) := by
  have hc : ¬ (s.command id).field 0x18 8 ≤ (s.command id).copied := by unfold Command.left at hl; omega
  have hg : (!s.isCommand id 2 || (s.command id).st != .dispatched) = false := by simp [h, hd]
  have hn : (s.command id).copied + min 256 (s.command id).left = (s.command id).field 0x18 8 ↔ (s.command id).left ≤ 256 := by
    unfold Command.left at *; omega
  unfold State.copySource at hs
  unfold State.copyTarget at ht
  rw [execCopyRetire, hg]
  unfold Command.left at *
  rw [if_neg Bool.false_ne_true, if_neg hc, hs, ht]
  exact if_congr hn rfl rfl

theorem execCopyRetire_fails {s : State} {id a : Nat} (h : s.isCommand id 2 = true) (hd : (s.command id).st = .dispatched)
    (hl : 0 < (s.command id).left) (hs : s.copySource (s.command id) = .bad a ∨
      (∃ l, s.copySource (s.command id) = .ok l) ∧ s.copyTarget (s.command id) = .bad a) :
    ∃ t, execCopyRetire id s = .next t ∧ Finished s t id := by
  have hc : ¬ (s.command id).field 0x18 8 ≤ (s.command id).copied := by unfold Command.left at hl; omega
  have hg : (!s.isCommand id 2 || (s.command id).st != .dispatched) = false := by simp [h, hd]
  refine ⟨s.cmdFault id 13 a, ?_, State.cmdFault_finished s id 13 a⟩
  unfold State.copySource State.copyTarget at hs
  rw [execCopyRetire, hg]
  unfold Command.left at *
  rw [if_neg Bool.false_ne_true, if_neg hc]
  rcases hs with hs | ⟨⟨l, hs⟩, ht⟩
  · rw [hs]
  · rw [hs, ht]

/-! ## PLACE_PRELOAD -/

theorem execPlacePreload_starts {s : State} {id : Nat} (h : s.isCommand id 6 = true) (ha : (s.command id).st = .accepted) :
    execPlacePreload id s = .next (s.setCommand id { (s.command id) with
      st := .dispatched
      cores := ((s.partDies (s.command id).part).filter (fun d => ((s.command id).field 4 1).testBit d)).flatMap s.dieCores }) := by
  simp [execPlacePreload, h, ha]

theorem execPreloadRetire_last {s : State} {id : Nat} (h : s.isCommand id 6 = true) (hd : (s.command id).st = .dispatched)
    (hc : (s.command id).cores = []) : execPreloadRetire id s = .next (s.cmdRetire id) := by
  rw [execPreloadRetire]
  simp [h, hd, hc]

theorem execPreloadRetire_core {s : State} {id k : Nat} {r : List Nat} {x : Core} (h : s.isCommand id 6 = true)
    (hd : (s.command id).st = .dispatched) (hc : (s.command id).cores = k :: r)
    (hp : s.preloadCore (s.command id) k ((s.command id).field 0x10 4) 0 (s.core k) = (.miss, x)) :
    execPreloadRetire id s = .next (if r.isEmpty then ((s.setCore k x).setCommand id { (s.command id) with cores := r }).cmdRetire id
      else (s.setCore k x).setCommand id { (s.command id) with cores := r }) := by
  have hg : (!s.isCommand id 6 || (s.command id).st != .dispatched) = false := by simp [h, hd]
  rw [execPreloadRetire, hg, if_neg Bool.false_ne_true, hc]
  dsimp only
  rw [hp]

/-- A core has read its images: it holds them, the other cores remain, and after the last core the record retires (R409). -/
theorem execPreloadRetire_holds {s : State} {id k : Nat} {r : List Nat} {x : Core} (h : s.isCommand id 6 = true)
    (hd : (s.command id).st = .dispatched) (hc : (s.command id).cores = k :: r)
    (hp : s.preloadCore (s.command id) k ((s.command id).field 0x10 4) 0 (s.core k) = (.miss, x)) :
    ∃ t, execPreloadRetire id s = .next t ∧ (t.core k).cache = x.cache ∧
      (r ≠ [] → t.core k = x ∧ t.command id = { (s.command id) with cores := r }) ∧
      (r = [] → t.hasCommand id = false ∧ s.jhead < t.jhead) := by
  have hx : ((s.setCore k x).setCommand id { (s.command id) with cores := r }).core k = x := State.core_setCore_same s k x
  refine ⟨_, execPreloadRetire_core h hd hc hp, ?_⟩
  cases r with
  | nil =>
    obtain ⟨hh, hj, -⟩ := State.cmdRetire_finished ((s.setCore k x).setCommand id { (s.command id) with cores := [] }) id
    refine ⟨?_, fun hr => absurd rfl hr, fun _ => ⟨hh, hj⟩⟩
    exact ((State.cmdRetire_hubWork _ id).cache k).trans (congrArg Core.cache hx)
  | cons j r => exact ⟨congrArg Core.cache hx, fun _ => ⟨hx, State.command_setCommand_same ..⟩, fun hr => absurd hr (by simp)⟩

/-! ## The obligation -/

/-- Settles O45: each clause is the case of its command above. -/
theorem workCommands : Obligations.WorkCommands := by
  intro s id c left n src dst signalled
  refine ⟨?_, ?_, ?_, ?_, ?_, ?_, ?_, ?_, ?_, ?_⟩
  · intro h ha hh
    exact ⟨_, execLaunch_dispatches h ha hh, s.dispatch_spec id⟩
  · intro _ _ hh
    exact execLaunch_held hh
  · exact fun h hd hf hs => execGridRetire_finished h hd hf hs
  · exact fun _ _ hf => execGridRetire_waits hf
  · exact fun h ha => execCopy_dispatches h ha
  · intro l w h hd hs hw
    refine ⟨fun hl => ?_, fun h0 hl hsig => ?_⟩
    · have hn : n = 256 := Nat.min_eq_left hl.le
      refine ⟨s.copyPiece id l w, ?_, (s.copyPiece_hubWork id l w).groupsSame, fun _ => rfl, ?_⟩
      · exact (execCopyRetire_moves h hd (Nat.zero_lt_of_lt hl) hs hw).trans (if_neg (Nat.not_le.mpr hl))
      · rw [← hn]
        exact State.command_setCommand_same ..
    · have hr : (s.copyPiece id l w).signalReaches ((s.copyPiece id l w).command id) := by
        have hq : (s.copyPiece id l w).command id = { c with copied := c.copied + n } := State.command_setCommand_same ..
        rw [hq]
        exact hsig
      obtain ⟨t, ht, hf⟩ := State.retireSignal_finished hr
      obtain ⟨hc, hj, -⟩ := (s.copyPiece_hubWork id l w).finished hf
      exact ⟨t, ((execCopyRetire_moves h hd h0 hs hw).trans (if_pos hl)).trans ht, hc, hj⟩
  · exact fun a h hd hl hs => execCopyRetire_fails h hd hl hs
  · intro h ha
    exact ⟨_, execPlacePreload_starts h ha, fun _ _ => rfl, fun _ => rfl, State.command_setCommand_same ..⟩
  · intro h hd hc
    exact ⟨_, execPreloadRetire_last h hd hc, State.cmdRetire_finished s id⟩
  · exact fun k r x h hd hc hp => execPreloadRetire_holds h hd hc hp

end Sys2Proof.Machine
end

section
/-!
SUPPORT. One step: whose turn it is, and what the turn of a front end, of an element and of an event comes to (assumption 1).
-/

namespace Sys2Proof.Machine

theorem State.turn_cons {s : State} {t : Config.Turn} {r : List Config.Turn} (h : s.turns = t :: r) :
    s.turn = (t, { s with turns := r }) := by
  unfold State.turn
  rw [h]

/-- The state in which the picked group issues its word, after one cycle of its core's counters. -/
def State.issued (s : State) (core slot : Nat) : State :=
  (s.setCore core ((s.core core).cycle (s.accepts core) (some slot))).issuingAs core slot

/-- A front end's turn runs the word that the picked group fetches. -/
theorem State.issue_run {s : State} {core slot : Nat} {w : Dword} {i : Instr} (hp : (s.core core).pick (s.accepts core) = some slot)
    (hw : s.fetchFor core slot = .word w) (hb : s.bpMatch core slot = false) (hd : decodeWord w = .ok i) :
    s.issue core (s.accepts core) = .run i (s.issued core slot) := by
  simp only [State.issue, hp, hw, hb, hd, Bool.false_eq_true, if_false, State.issued]

theorem State.issue_bad {s : State} {core slot : Nat} {w : Dword} {e : DecodeError} (hp : (s.core core).pick (s.accepts core) = some slot)
    (hw : s.fetchFor core slot = .word w) (hb : s.bpMatch core slot = false) (hd : decodeWord w = .error e) :
    s.issue core (s.accepts core) = .bad w (s.issued core slot) := by
  simp only [State.issue, hp, hw, hb, hd, Bool.false_eq_true, if_false, State.issued]

theorem State.issue_none {s : State} {core : Nat} (hp : (s.core core).pick (s.accepts core) = none) :
    s.issue core (s.accepts core) = .idle (s.setCore core ((s.core core).cycle (s.accepts core) none)) := by
  rw [State.issue, hp]

/-- An element's turn fires the slot that the arbiter chooses, unless its image draws above a limit that the core cannot meet (R13). -/
theorem State.elementTurn_fires {s : State} {core elem n : Nat} (ha : s.arbiter core elem = some n)
    (ho : ((s.core core).elem elem).owner = 0 ∨ ((s.core core).placedAt (((s.core core).elem elem).owner - 1)).acts = false ∨
      (s.core core).overdrawn = false) :
    s.elementTurn core elem = .fires (slotOp (((s.core core).elem elem).slotWord n)) (elemFields (((s.core core).elem elem).slotWord n))
      { (s.elemCycle core elem (some n)) with
        curCore := core
        curElem := elem
        curElemSlot := n } := by
  have hc : ¬ (((s.core core).elem elem).owner ≠ 0 ∧ ((s.core core).placedAt (((s.core core).elem elem).owner - 1)).acts = true ∧
      (s.core core).overdrawn = true) := by
    rintro ⟨h0, hacts, hover⟩
    rcases ho with h | h | h
    · exact h0 h
    · rw [h] at hacts; exact Bool.false_ne_true hacts
    · rw [h] at hover; exact Bool.false_ne_true hover
  rw [State.elementTurn]
  dsimp only
  rw [if_neg hc, ha]

theorem isEvent_of_noWord {i : Instr} (h : encode i = .noWord) : isEvent i = true := by
  unfold isEvent
  rw [h]

/-! ## A step by the turn that is taken -/

section
variable {s s1 : State} {core elem op : Nat} {i : Instr} {w : Dword} {x : ElemWord} {r : List Config.Turn}

theorem step_of_run (ht : s.turns = .issue core :: r) (h : State.frontTurn { s with turns := r } core = .run i s1) : step s = exec i s1 := by
  rw [step, State.turn_cons ht]
  dsimp only
  rw [h]

theorem step_of_bad (ht : s.turns = .issue core :: r) (h : State.frontTurn { s with turns := r } core = .bad w s1) :
    step s = exec (.unassignedOp w) s1 := by
  rw [step, State.turn_cons ht]
  dsimp only
  rw [h]
  rfl

theorem step_of_idle (ht : s.turns = .issue core :: r) (h : State.frontTurn { s with turns := r } core = .idle s1) : step s = .next s1 := by
  rw [step, State.turn_cons ht]
  dsimp only
  rw [h]

theorem step_of_fires (ht : s.turns = .element core elem :: r) (h : State.elementTurn { s with turns := r } core elem = .fires op x s1) :
    step s = s1.fire (elemForm op) x := by
  rw [step, State.turn_cons ht]
  dsimp only
  rw [h]

theorem step_of_event (ht : s.turns = .event i :: r) (h : encode i = .noWord) : step s = exec i { s with turns := r } := by
  rw [step, State.turn_cons ht]
  exact if_pos (isEvent_of_noWord h)

end

/-- Settles O52: the head of the list of turns chooses the agent, and each agent's turn is the law above. -/
theorem stepRunsTheDecodedInstruction : Obligations.StepRunsTheDecodedInstruction := by
  intro s core slot elem n i w r u0 u c ready issued
  refine ⟨fun ht hp hw hb => ⟨fun hd => ?_, fun e hd => ?_⟩, fun ht hp => ?_, fun ht ha ho => ?_, fun ht he => ?_⟩
  · exact step_of_run ht (State.issue_run (s := u) hp hw hb hd)
  · exact step_of_bad ht (State.issue_bad (s := u) hp hw hb hd)
  · exact step_of_idle ht (State.issue_none (s := u) hp)
  · exact step_of_fires ht (State.elementTurn_fires ha ho)
  · exact step_of_event ht he

end Sys2Proof.Machine
end

section
/-!
SUPPORT. The distributors, operation by operation: stealing, taking a core, starting a block, and a block that leaves (R16 to R26, R339).
-/

namespace Sys2Proof.Machine

/-! ## Stealing (R22) -/

theorem State.unitsAt_setUnits_same (s : State) (die : Nat) (l : List Chunk) : (s.setUnits die l).unitsAt die = l := SMap.get_set_same ..

theorem foldl_max_le {l : List Nat} {b : Nat} (h : ∀ a ∈ l, a ≤ b) : l.foldl max 0 ≤ b :=
  List.foldlRecOn l max (motive := (· ≤ b)) (Nat.zero_le b) (fun _ hm a ha => max_le hm (h a ha))

/-- A die without work takes the highest unstarted unit of a launch from a distributor that holds most. -/
theorem execStealMessage_takes {s : State} {id thief victim : Nat} {u : Chunk}
    (hid : id ∈ s.nameable (s.command id).part thief) (ht : thief ∈ s.partDies (s.command id).part)
    (hv : victim ∈ s.partDies (s.command id).part) (hne : victim ≠ thief) (hi : s.idleDie thief = true)
    (hm : ∀ d ∈ s.partDies (s.command id).part, d ≠ thief → (s.freshUnits d (s.nameable (s.command id).part thief)).length ≤
      (s.freshUnits victim (s.nameable (s.command id).part thief)).length)
    (hu : highestUnit (s.freshUnits victim [id]) = some u) :
    execStealMessage id thief victim s = .next { (s.setUnits victim ((s.unitsAt victim).erase u)) with
      steals := SMap.set [] s.steals thief [u] } := by
  have hmost : ¬ (s.freshUnits victim (s.nameable (s.command id).part thief)).length <
      (((s.partDies (s.command id).part).filter (· != thief)).map
        (fun d => (s.freshUnits d (s.nameable (s.command id).part thief)).length)).foldl max 0 := by
    refine Nat.not_lt.mpr (foldl_max_le fun a ha => ?_)
    obtain ⟨d, hd, rfl⟩ := List.mem_map.mp ha
    obtain ⟨hd, hdt⟩ := List.mem_filter.mp hd
    exact hm d hd (by simpa using hdt)
  simp [execStealMessage, hid, ht, hv, hne, hi, hmost, hu, State.setUnits]

/-! ## Sites and units (R21) -/

theorem eraseDups_of_nodup {l : List Nat} (h : l.Nodup) : l.eraseDups = l := by
  induction l with
  | nil => rfl
  | cons a r ih =>
    obtain ⟨ha, hr⟩ := List.nodup_cons.mp h
    have hf : r.filter (fun b => !b == a) = r := List.filter_eq_self.mpr fun b hb => by
      simpa using fun hba : b = a => ha (hba ▸ hb)
    rw [List.eraseDups_cons, hf, ih hr]

/-! ## Taking a core (R23, R295, R339) -/

/-- A core that takes a block has a new generation where R339 says, and the kernel's split where it was empty. -/
def Core.taken (c : Core) (cmd : Nat) (k : KDesc) : Core :=
  { c with
    gen := if c.newGen cmd then c.gen + 1 else c.gen
    l1kib := if c.blocks.isEmpty then k.l1slice else c.l1kib }

section
variable (s : State) (core cmd : Nat) (k : KDesc)

/-- Beside the core that takes a block, directory entries and kits in retention may change. -/
theorem State.takeCore_eq : ∃ d r, s.takeCore core cmd k = State.setCore { s with dir := d, retention := r } core ((s.core core).taken cmd k) := by
  have hgen : (if (s.core core).newGen cmd then { s.core core with gen := (s.core core).gen + 1 } else s.core core) =
      { s.core core with gen := if (s.core core).newGen cmd then (s.core core).gen + 1 else (s.core core).gen } := by
    split <;> rfl
  rw [State.takeCore, hgen]
  dsimp only
  by_cases hs : (s.core core).newSplit k = true
  · have he : (s.core core).blocks.isEmpty = true := (Bool.and_eq_true_iff.mp hs).1
    rw [if_pos hs, Core.taken, if_pos he]
    exact ⟨_, _, rfl⟩
  · have hl : (if (s.core core).blocks.isEmpty = true then k.l1slice else (s.core core).l1kib) = (s.core core).l1kib := by
      split
      next he =>
        have hne : (s.core core).newSplit k = false := by simpa using hs
        rw [Core.newSplit, he, Bool.true_and, bne_eq_false_iff_eq] at hne
        exact hne.symm
      next => rfl
    rw [if_neg hs, Core.taken, hl]
    exact ⟨_, _, rfl⟩

@[simp] theorem State.takeCore_mem : (s.takeCore core cmd k).mem = s.mem := by
  obtain ⟨d, r, h⟩ := s.takeCore_eq core cmd k
  rw [h]; rfl
@[simp] theorem State.takeCore_commands : (s.takeCore core cmd k).commands = s.commands := by
  obtain ⟨d, r, h⟩ := s.takeCore_eq core cmd k
  rw [h]; rfl
@[simp] theorem State.takeCore_units : (s.takeCore core cmd k).units = s.units := by
  obtain ⟨d, r, h⟩ := s.takeCore_eq core cmd k
  rw [h]; rfl
theorem State.takeCore_core_same : (s.takeCore core cmd k).core core = (s.core core).taken cmd k := by
  obtain ⟨d, r, h⟩ := s.takeCore_eq core cmd k
  rw [h, State.core_setCore_same]
theorem State.takeCore_core_ne {j : Nat} (hj : core ≠ j) : (s.takeCore core cmd k).core j = s.core j := by
  obtain ⟨d, r, h⟩ := s.takeCore_eq core cmd k
  rw [h, State.core_setCore_ne _ _ hj]
  rfl

end

/-! ## Groups written one after the other -/

section
variable {α : Type} (key : α → Nat) (f : α → Group → Group)

/-- Change the groups in some slots, one after the other. -/
def Core.changeGroups (c : Core) (l : List α) : Core := l.foldl (fun c q => c.setGroup (key q) (f q (c.group (key q)))) c

/-- What of a core does not depend on its groups stays. -/
theorem Core.changeGroups_part {β : Type} (part : Core → β) (hp : ∀ c i g, part (c.setGroup i g) = part c) (c : Core) (l : List α) :
    part (c.changeGroups key f l) = part c := by
  induction l generalizing c with
  | nil => rfl
  | cons a r ih => exact (ih _).trans (hp ..)

theorem Core.changeGroups_outside (c : Core) (l : List α) {i : Nat} (h : ∀ q ∈ l, key q ≠ i) :
    (c.changeGroups key f l).group i = c.group i := by
  induction l generalizing c with
  | nil => rfl
  | cons a r ih =>
    obtain ⟨ha, hr⟩ := List.forall_mem_cons.mp h
    exact (ih _ hr).trans (Core.group_setGroup_ne _ _ ha)

/-- A slot that is named holds what one of its entries makes of a group. -/
theorem Core.changeGroups_inside (c : Core) (l : List α) {i : Nat} (h : ∃ q ∈ l, key q = i) :
    ∃ q ∈ l, key q = i ∧ ∃ g, (c.changeGroups key f l).group i = f q g := by
  induction l generalizing c with
  | nil => simp at h
  | cons a r ih =>
    by_cases hr : ∃ q ∈ r, key q = i
    · obtain ⟨q, hq, hk, g, hg⟩ := ih (c.setGroup (key a) (f a (c.group (key a)))) hr
      exact ⟨q, List.mem_cons_of_mem _ hq, hk, g, hg⟩
    · obtain ⟨q, hq, hk⟩ := h
      obtain rfl : q = a := (List.mem_cons.mp hq).resolve_right fun hq => hr ⟨q, hq, hk⟩
      refine ⟨q, List.mem_cons_self .., hk, c.group (key q), ?_⟩
      subst hk
      refine (Core.changeGroups_outside key f _ r fun p hp hpk => hr ⟨p, hp, hpk⟩).trans ?_
      exact Core.group_setGroup_same ..

end

/-! ## Starting a block (R16, R19, R25, R374) -/

/-- A group starts with the address of its argument block in k[0:1] (R25). -/
theorem startGroup_kreg (blk order n i faults : Nat) (entry arg : Dword) :
    (startGroup blk order n i faults entry arg).kreg 0 = arg.setWidth 32 ∧
      (startGroup blk order n i faults entry arg).kreg 1 = arg.extractLsb' 32 32 :=
  ⟨(SMap.get_set_ne _ _ _ (by decide)).trans (SMap.get_set_same ..), SMap.get_set_same ..⟩

theorem Core.freeSlots_nodup (c : Core) : c.freeSlots.Nodup := List.nodup_range.filter _

/-- The ARG of a launch (R329). -/
def Command.arg (m : Command) : Dword := BitVec.ofNat 64 (m.field 0x10 8)
/-- The slots that a block of a launch takes on a core. -/
def Core.blockSlots (c : Core) (m : Command) : List Nat := c.freeSlots.take (groupsOf m.threads + m.kd.headroom)
/-- The slots of its home groups, the lowest of them. -/
def Core.homeSlots (c : Core) (m : Command) : List Nat := (c.blockSlots m).take (groupsOf m.threads)

/-- What becomes of the group in a home slot, given with its home index. -/
def Core.homeGroup (c : Core) (m : Command) (order : Nat) (q : Nat × Nat) (g : Group) : Group :=
  startGroup c.freeBlockId order m.threads q.2 g.faults.toNat m.kd.entry m.arg
/-- What becomes of the group in a slot of the headroom. -/
def Core.spareGroup (c : Core) (order : Nat) (_ : Nat) (g : Group) : Group :=
  { st := .reserved, blk := c.freeBlockId, age := order, exitm := 0xFFFFFFFF, faults := g.faults }

/-- A core after a block of a launch has started its home groups and reserved its headroom. -/
def Core.startGroups (c : Core) (m : Command) (order : Nat) : Core :=
  (c.changeGroups (·.1) (c.homeGroup m order) (c.homeSlots m).zipIdx).changeGroups id (c.spareGroup order)
    ((c.blockSlots m).drop (groupsOf m.threads))

section
variable (c : Core) (m : Command) (order : Nat)

theorem Core.startGroups_part {β : Type} (part : Core → β) (hp : ∀ c i g, part (c.setGroup i g) = part c) :
    part (c.startGroups m order) = part c :=
  (Core.changeGroups_part _ _ part hp _ _).trans (Core.changeGroups_part _ _ part hp _ _)

/-- A home group starts as R16 and R25 say; of the slot's former group the count of faults stays. -/
theorem Core.startGroups_home {i : Nat} (h : i < (c.homeSlots m).length) :
    ∃ faults, (c.startGroups m order).group ((c.homeSlots m).getD i 0) =
      startGroup c.freeBlockId order m.threads i faults m.kd.entry m.arg := by
  have hnd : (c.blockSlots m).Nodup := c.freeSlots_nodup.sublist (List.take_sublist ..)
  have hnh : (c.homeSlots m).Nodup := hnd.sublist (List.take_sublist ..)
  rw [List.getD_eq_getElem _ _ h]
  have hmem : (c.homeSlots m)[i] ∈ c.homeSlots m := List.getElem_mem h
  unfold Core.startGroups
  rw [Core.changeGroups_outside]
  · obtain ⟨q, hq, hk, g, hg⟩ := Core.changeGroups_inside (·.1) (c.homeGroup m order) c (c.homeSlots m).zipIdx (i := (c.homeSlots m)[i])
      ⟨((c.homeSlots m)[i], i), by simp [List.mem_zipIdx_iff_getElem?, h], rfl⟩
    obtain ⟨hlt, hget⟩ := List.getElem?_eq_some_iff.mp (List.mem_zipIdx_iff_getElem?.mp hq)
    obtain rfl : q.2 = i := hnh.getElem_inj_iff.mp (hget.trans hk)
    exact ⟨g.faults.toNat, hg⟩
  · rintro q hq rfl
    exact List.disjoint_take_drop hnd le_rfl hmem hq

/-- The groups in slots that were not free stay. -/
theorem Core.startGroups_outside {i : Nat} (h : i ∉ c.freeSlots) : (c.startGroups m order).group i = c.group i := by
  have hb : i ∉ c.blockSlots m := fun hi => h (List.mem_of_mem_take hi)
  unfold Core.startGroups
  rw [Core.changeGroups_outside, Core.changeGroups_outside]
  · rintro q hq rfl
    exact hb (List.mem_of_mem_take (List.fst_mem_of_mem_zipIdx hq))
  · rintro q hq rfl
    exact hb (List.mem_of_mem_drop hq)

end

section
variable (s : State) (cmd b : Nat) (x : Site)

@[simp] theorem State.startBlock_mem : (s.startBlock cmd b x).mem = s.mem := s.takeCore_mem x.core cmd _
@[simp] theorem State.startBlock_units : (s.startBlock cmd b x).units = s.units := s.takeCore_units x.core cmd _

theorem State.startBlock_started : ((s.startBlock cmd b x).command cmd).started = (s.command cmd).started + 1 := by
  have h : (s.takeCore x.core cmd (s.command cmd).kd).command cmd = s.command cmd := by
    unfold State.command
    rw [State.takeCore_commands]
  unfold State.startBlock
  extract_lets
  rw [State.command_setCommand_same]
  exact congrArg (fun c : Command => c.started + 1) h

theorem State.startBlock_core_ne {j : Nat} (h : x.core ≠ j) : (s.startBlock cmd b x).core j = s.core j :=
  (State.core_setCore_ne _ _ h).trans (State.takeCore_core_ne s x.core cmd _ h)

/-- The core of a site after a block has started there: its groups, and the block's entry (R374). -/
theorem State.startBlock_core_same : let m := s.command cmd
    let c := (s.core x.core).taken cmd m.kd
    ∃ order e, (s.startBlock cmd b x).core x.core = (c.startGroups m order).setBlock c.freeBlockId e ∧
      e.b = b ∧ e.cmd = cmd ∧ e.part = m.part ∧ e.asid = m.asid ∧ e.sbase = x.sbase ∧ e.lbase = x.lbase ∧
      e.ngrp = groupsOf m.threads ∧ e.hslot = c.homeSlots m := by
  dsimp only
  rw [← State.takeCore_core_same s x.core cmd (s.command cmd).kd]
  exact ⟨_, _, State.core_setCore_same .., rfl, rfl, rfl, rfl, rfl, rfl, rfl, rfl⟩

theorem State.startBlock_l1kib : ((s.startBlock cmd b x).core x.core).l1kib =
    if (s.core x.core).blocks.isEmpty then (s.command cmd).kd.l1slice else (s.core x.core).l1kib := by
  obtain ⟨order, e, h, -⟩ := s.startBlock_core_same cmd b x
  rw [h]
  exact Core.startGroups_part _ _ order Core.l1kib fun _ _ _ => rfl

theorem State.startBlock_gen : ((s.startBlock cmd b x).core x.core).gen =
    if (s.core x.core).newGen cmd then (s.core x.core).gen + 1 else (s.core x.core).gen := by
  obtain ⟨order, e, h, -⟩ := s.startBlock_core_same cmd b x
  rw [h]
  exact Core.startGroups_part _ _ order Core.gen fun _ _ _ => rfl

/-- Each home group of the block starts. -/
theorem State.startBlock_home {i : Nat} (hi : i < ((s.core x.core).homeSlots (s.command cmd)).length) :
    ∃ blk order faults, (s.startBlock cmd b x).group x.core (((s.core x.core).homeSlots (s.command cmd)).getD i 0) =
      startGroup blk order (s.command cmd).threads i faults (s.command cmd).kd.entry (s.command cmd).arg := by
  obtain ⟨order, e, h, -⟩ := s.startBlock_core_same cmd b x
  obtain ⟨faults, hg⟩ := Core.startGroups_home ((s.core x.core).taken cmd (s.command cmd).kd) (s.command cmd) order hi
  refine ⟨_, order, faults, Eq.trans ?_ hg⟩
  unfold State.group
  rw [h]
  rfl

/-- A group of another core, or in a slot that was not free, stays. -/
theorem State.startBlock_group_other {k i : Nat} (hk : k ≠ x.core ∨ i ∉ (s.core x.core).freeSlots) :
    (s.startBlock cmd b x).group k i = s.group k i := by
  unfold State.group
  by_cases hc : x.core = k
  · subst hc
    obtain ⟨order, e, h, -⟩ := s.startBlock_core_same cmd b x
    rw [h]
    exact Core.startGroups_outside ((s.core x.core).taken cmd (s.command cmd).kd) _ order (hk.resolve_left (by simp))
  · rw [s.startBlock_core_ne cmd b x hc]

end

/-! ## Placing a unit (R21, R23, R24) -/

section
variable (s : State) (cmd : Nat) (sites : List Site) (b : Nat)

@[simp] theorem State.startAll_mem : (s.startAll cmd sites b).mem = s.mem := by
  induction sites generalizing s b with
  | nil => rfl
  | cons x r ih => exact (ih _ _).trans (s.startBlock_mem cmd b x)

@[simp] theorem State.startAll_units : (s.startAll cmd sites b).units = s.units := by
  induction sites generalizing s b with
  | nil => rfl
  | cons x r ih => exact (ih _ _).trans (s.startBlock_units cmd b x)

/-- As many more blocks of the launch have started as there are sites. -/
theorem State.startAll_started : ((s.startAll cmd sites b).command cmd).started = (s.command cmd).started + sites.length := by
  induction sites generalizing s b with
  | nil => rfl
  | cons x r ih =>
    refine (ih _ _).trans ?_
    rw [s.startBlock_started cmd b x, List.length_cons]
    omega

end

/-- The units of a die after a block of a unit has been placed. -/
def State.unitsLeft (s : State) (die : Nat) (u : Chunk) : List Chunk :=
  if u.next + 1 = u.first + u.count then (s.unitsAt die).erase u else (s.unitsAt die).erase u ++ [{ u with next := u.next + 1 }]

section
variable {s : State} {id die : Nat} {u : Chunk} (hc : s.isCommand id 1 = true)
  (hu : lowestUnit ((s.unitsAt die).filter (fun u => u.cmd == id)) = some u)
include hc hu

theorem execBlockPlace_block {x : Site} (hg : (s.command id).kd.gang = 0)
    (hx : s.siteOk die (s.command id).kd (groupsOf (s.command id).threads) id x = true) :
    execBlockPlace id die [x] s = .next ((s.setUnits die (s.unitsLeft die u)).startBlock id u.next x) := by
  simp [execBlockPlace, hc, hu, hg, hx, eraseDups_of_nodup, State.unitsLeft, State.startAll]

theorem execBlockPlace_gang {sites : List Site} (hg : (s.command id).kd.gang ≠ 0)
    (hx : sites.all (s.siteOk die (s.command id).kd (groupsOf (s.command id).threads) id) = true)
    (hn : (sites.map (·.core)).Nodup) (hl : sites.length = u.count) (hr : s.gangsOn die < 16) :
    execBlockPlace id die sites s = .next ((s.setUnits die ((s.unitsAt die).erase u)).startAll id sites u.first) := by
  have he : (sites.map (·.core) == (sites.map (·.core)).eraseDups) = true := by rw [eraseDups_of_nodup hn, beq_self_eq_true]
  rw [execBlockPlace]
  simp only [hc, hx, he, hu, hg, hl, hr, Bool.not_true, Bool.and_self, Bool.or_self, Bool.false_eq_true, if_false, ne_eq,
    not_false_eq_true, if_true, and_self]

end

/-! ## A block that leaves (R26, R424) -/

theorem Core.freeBlock_hasBlock (c : Core) (blk : Nat) (killed : Bool) : (c.freeBlock blk killed).hasBlock blk = false :=
  SMap.del_any _ blk

theorem Core.clearLanes_groups (c : Core) (b : Block) : (c.clearLanes b).groups = c.groups := by
  rw [Core.clearLanes]

theorem Core.freeBlock_groups (c : Core) (blk : Nat) (killed : Bool) : (c.freeBlock blk killed).groups =
    (((c.placedOf blk).foldl Core.dropPlaced c).changeGroups id (fun _ g => { faults := g.faults }) (c.block blk).slots).groups := by
  rw [Core.freeBlock]
  dsimp only
  rw [Core.clearLanes_groups]
  rfl

/-- The slots of a block that is freed are FREE; of their groups only the count of faults stays (R428). -/
theorem Core.freeBlock_slot (c : Core) (blk : Nat) (killed : Bool) {i : Nat} (h : i ∈ (c.block blk).slots) :
    ((c.freeBlock blk killed).group i).st = .free := by
  obtain ⟨q, -, -, g, hg⟩ := Core.changeGroups_inside id (fun _ g => { faults := g.faults })
    ((c.placedOf blk).foldl Core.dropPlaced c) (c.block blk).slots ⟨i, h, rfl⟩
  unfold Core.group at hg ⊢
  rw [Core.freeBlock_groups]
  exact congrArg Group.st hg

theorem State.chime_commands (s : State) (b : Block) (killed : Bool) : (s.chime b killed).commands = s.commands := by
  unfold State.chime
  extract_lets p s1
  split
  · exact (State.hubWrite_hubStep ..).commands
  · rfl

theorem State.chime_unmarked (s : State) (b : Block) (killed : Bool) (k : Nat) :
    ((s.chime b killed).core k).unmarked = (s.core k).unmarked := by
  unfold State.chime
  extract_lets p s1
  split
  · rw [State.core_setPart]
    exact (State.hubWrite_hubStep ..).cores k
  · rw [State.core_setPart]

@[simp] theorem State.unpoison_cores (s : State) (core : Nat) (b : Block) : (s.unpoison core b).cores = s.cores := by
  unfold State.unpoison
  split <;> rfl
@[simp] theorem State.unpoison_commands (s : State) (core : Nat) (b : Block) : (s.unpoison core b).commands = s.commands := by
  unfold State.unpoison
  split <;> rfl
@[simp] theorem State.returnArea_cores (s : State) (b : Block) : (s.returnArea b).cores = s.cores := by
  unfold State.returnArea
  split
  · rfl
  · extract_lets
    split <;> rfl
@[simp] theorem State.returnArea_commands (s : State) (b : Block) : (s.returnArea b).commands = s.commands := by
  unfold State.returnArea
  split
  · rfl
  · extract_lets
    split <;> rfl

/-- What the hub does as a block leaves: its chime record, its claims and its windows' entries at the homes. -/
def State.leaveHub (s : State) (core blk : Nat) (killed : Bool) : State :=
  let c := s.core core
  ((s.chime (c.block blk) killed).releaseClaims core
    ((c.copyq.filter (fun o => o.blk == blk)).map (·.id) ++ (c.tileq.filter (fun o => o.blk == blk)).map (·.id) ++
      (c.matq.filter (fun q => q.blk == blk)).map (·.id))).unregister core ((c.windows.filter (fun w => w.blk == blk)).map (·.wid))

/-- What the core does as a block leaves: it frees what the block held. -/
def State.leaveCore (s : State) (core blk : Nat) (killed : Bool) : State :=
  let s1 := s.leaveHub core blk killed
  s1.setCore core ((s1.core core).freeBlock blk killed)

section
variable (s : State) (core blk : Nat) (killed : Bool)

theorem State.leaveHub_commands : (s.leaveHub core blk killed).commands = s.commands :=
  ((State.releaseClaims_hubStep ..).trans (State.unregister_hubStep ..)).commands.trans (s.chime_commands ..)

theorem State.leaveHub_unmarked (k : Nat) : ((s.leaveHub core blk killed).core k).unmarked = (s.core k).unmarked :=
  (((State.releaseClaims_hubStep ..).trans (State.unregister_hubStep ..)).cores k).trans (s.chime_unmarked ..)

theorem State.leave_core (k : Nat) : (s.leave core blk killed).core k = (s.leaveCore core blk killed).core k := by
  have h : (s.leave core blk killed).cores = (s.leaveCore core blk killed).cores := by
    unfold State.leave
    extract_lets c b ops wids s1 s2 s3
    have h3 : s3.cores = (s.leaveCore core blk killed).cores :=
      (State.returnArea_cores ..).trans (State.unpoison_cores ..)
    split
    · exact h3
    · exact h3
  unfold State.core
  rw [h]

theorem State.leave_hasBlock : ((s.leave core blk killed).core core).hasBlock blk = false := by
  rw [State.leave_core, State.leaveCore, State.core_setCore_same]
  exact Core.freeBlock_hasBlock ..

theorem State.leave_slot {i : Nat} (h : i ∈ ((s.core core).block blk).slots) : ((s.leave core blk killed).group core i).st = .free := by
  unfold State.group
  rw [State.leave_core, State.leaveCore, State.core_setCore_same]
  refine Core.freeBlock_slot _ _ _ ?_
  have hb : ((s.leaveHub core blk killed).core core).unmarked.block blk = (s.core core).unmarked.block blk := by
    rw [s.leaveHub_unmarked core blk killed core]
  exact hb ▸ h

/-- One more block of the launch has finished. -/
theorem State.leave_finished (h : s.hasCommand ((s.core core).block blk).cmd = true) :
    ((s.leave core blk killed).command ((s.core core).block blk).cmd).finished =
      (s.command ((s.core core).block blk).cmd).finished + 1 := by
  unfold State.leave
  extract_lets c b ops wids s1 s2 s3
  have h3 : s3.commands = (s.leaveCore core blk killed).commands := (State.returnArea_commands ..).trans (State.unpoison_commands ..)
  replace h3 : s3.commands = s.commands := h3.trans (s.leaveHub_commands core blk killed)
  have hh : s3.hasCommand b.cmd = true := by
    unfold State.hasCommand at h ⊢
    rwa [h3]
  have hm : s3.command b.cmd = s.command b.cmd := by
    unfold State.command
    rw [h3]
  rw [if_pos hh]
  refine (congrArg Command.finished (State.command_setCommand_same ..)).trans ?_
  exact congrArg (fun m : Command => m.finished + 1) hm

end

theorem execBlockRetire_leaves {s s1 : State} {core blk : Nat} (hb : (s.core core).hasBlock blk = true)
    (hh : ((s.core core).block blk).flushHold = none) (hf : s.finished core blk = true) (hd : s.flushBlock core blk = .done s1) :
    execBlockRetire core blk s = .next ((s1.leave core blk false).gangSettle (dieOf core) 64) := by
  rw [execBlockRetire]
  simp only [hb, hh, hf, hd, Option.isSome_none, Bool.not_true, Bool.or_self, Bool.false_eq_true, if_false]

/-! ## The obligation -/

/-- Settles O48: each clause is the law of its operation above. -/
theorem distribution : Obligations.Distribution := by
  intro s id die thief victim core blk sites x c names dies n unit
  refine ⟨?_, ?_, ?_, ?_, ?_⟩
  · intro u hid ht hv hne hi hm hu
    exact ⟨_, execStealMessage_takes hid ht hv hne hi hm hu, fun _ => rfl, rfl,
      State.unitsAt_setUnits_same .., SMap.get_set_same [] s.steals thief [u]⟩
  · exact ⟨_, rfl, fun _ => rfl, rfl, SMap.get_del_same .., State.unitsAt_setUnits_same ..⟩
  · intro u hc hg hx hu
    let v := s.setUnits die (s.unitsLeft die u)
    refine ⟨v.startBlock id u.next x, execBlockPlace_block hc hu hg hx, fun a => ?_, v.startBlock_started id u.next x, ?_⟩
    · rw [v.startBlock_mem id u.next x]
      rfl
    intro k homes b
    obtain ⟨order, e, hcore, hb, hcmd, hpart, hasid, hsb, hlb, hn, hh⟩ := v.startBlock_core_same id u.next x
    have he : b = e := by
      show ((v.startBlock id u.next x).core x.core).block k.freeBlockId = e
      rw [hcore]
      exact Core.block_setBlock_same ..
    rw [he]
    refine ⟨hb, hcmd, hpart, hasid, hsb, hlb, hn, hh, v.startBlock_l1kib id u.next x, v.startBlock_gen id u.next x, fun i hi => ?_,
      fun k i hk => v.startBlock_group_other id u.next x hk⟩
    intro g th
    obtain ⟨blk, order, faults, hstart⟩ := v.startBlock_home id u.next x hi
    obtain ⟨hk0, hk1⟩ := startGroup_kreg blk order c.threads i faults c.kd.entry c.arg
    have hg : g = startGroup blk order c.threads i faults c.kd.entry c.arg := hstart
    rw [hg]
    exact ⟨rfl, rfl, rfl, rfl, rfl, rfl, rfl, rfl, rfl, hk0, hk1⟩
  · intro u hc hg hx hn hu hl hr
    let v := s.setUnits die ((s.unitsAt die).erase u)
    refine ⟨v.startAll id sites u.first, execBlockPlace_gang hc hu hg hx hn hl hr, fun a => ?_, ?_, ?_⟩
    · rw [v.startAll_mem id sites u.first]
      rfl
    · rw [← hl]
      exact v.startAll_started id sites u.first
    · unfold State.unitsAt
      rw [v.startAll_units id sites u.first]
      exact SMap.get_set_same ..
  · intro s1 b hb hh hf hd
    exact ⟨_, _, execBlockRetire_leaves hb hh hf hd, rfl, rfl, s1.leave_hasBlock core blk false,
      fun i hi => s1.leave_slot core blk false hi, s1.leave_finished core blk false⟩

end Sys2Proof.Machine
end

section
/-!
SUPPORT. Special registers: what the ends of RDSR leave in a group, and what WRSR writes (R34, R77, R78, R90, R91).
-/

namespace Sys2Proof.Machine

/-! ## The end of a word that writes its destination and pushes it -/

/-- A push makes the y slots what R75 says, over a group whose y slots are those before the word. -/
theorem Group.push32_pushed {g h : Group} (hy : YSame g h) (x : Guard) (d : Opnd) (act : Mask) (f : Nat → Word) :
    Pushed32 g (h.push32 x d act f).next x act d f := by
  obtain ⟨h0, h1, h0v, h1v⟩ := hy
  unfold Pushed32 Group.push32
  split
  · exact ⟨h0, h1, h0v, h1v⟩
  · refine ⟨h0, h0v, rfl, fun l hl => (get_ySlot (fun l => if act.getLsbD l then f l else h.holds d l) l hl).trans ?_⟩
    cases d <;> rfl

theorem Group.push32_next_frame (h : Group) (x : Guard) (d : Opnd) (act : Mask) (f : Nat → Word) :
    (h.push32 x d act f).next = { h with
      y0 := (h.push32 x d act f).y0
      y1 := (h.push32 x d act f).y1
      y0v := (h.push32 x d act f).y0v
      y1v := (h.push32 x d act f).y1v
      pc := h.pc + 8 } := by
  unfold Group.push32
  split <;> rfl

/-- The end of a form with a 32-bit result, as its group sees it (R92, R94). -/
theorem Group.write_push_next (g : Group) (x : Guard) (d : Opnd) (act : Mask) (f : Nat → Word) :
    GroupRegs g ((g.write d act f).push32 x d act f).next ∧ Wrote32 g ((g.write d act f).push32 x d act f).next x act d f := by
  have hw := Group.write_holdsFrame g d act f
  have hp := Group.push32_next_frame (g.write d act f) x d act f
  have hy : YSame g (g.write d act f) := by rw [hw]; exact ⟨rfl, rfl, rfl, rfl⟩
  refine ⟨?_, fun file r l hl => ?_, Group.push32_pushed hy x d act f⟩
  · unfold GroupRegs
    rw [hp, hw]
  · rw [← Group.write_regsAfter g d act f file r l hl, hp]
    rfl

/-- The end of a form with a k result, as its group sees it (R90, R178). -/
theorem Group.writeK_push_next (g : Group) (x : Guard) (n : BitVec 6) (act : Mask) (w : Word) :
    let t := ((if act = 0 then g else g.writeK n.toNat w).push32 x (.k n) act (fun _ => w)).next
    GroupRegs { g with k := t.k } t ∧ KAfter g t (act != 0) n.toNat 1 (fun _ => w) ∧ Pushed32 g t x act (.k n) (fun _ => w) ∧
      ∀ file r l, t.stored file r l = g.stored file r l := by
  intro t
  have ht : t = _ := Group.push32_next_frame _ x (.k n) act (fun _ => w)
  by_cases ha : act = 0
  · simp only [if_pos ha] at ht
    refine ⟨?_, fun r => ?_, ?_, fun file r l => ?_⟩
    · unfold GroupRegs; rw [ht]
    · rw [ht]; simp [ha]; rfl
    · exact Group.push32_pushed (by rw [if_pos ha]; exact ⟨rfl, rfl, rfl, rfl⟩) ..
    · rw [ht]; rfl
  · simp only [if_neg ha] at ht
    refine ⟨?_, fun r => ?_, ?_, fun file r l => ?_⟩
    · unfold GroupRegs; rw [ht]; rfl
    · have hr : t.kreg r = if n.toNat = r then w else g.kreg r := by
        rw [ht]; exact SMap.get_set ..
      have hn : (act != 0) = true ∧ n.toNat ≤ r ∧ r < n.toNat + 1 ↔ n.toNat = r := by
        rw [bne_iff_ne]
        exact ⟨fun ⟨_, hle, hlt⟩ => by omega, fun q => ⟨ha, by omega⟩⟩
      rw [hr, if_congr hn rfl rfl]
    · exact Group.push32_pushed (by rw [if_neg ha]; exact ⟨rfl, rfl, rfl, rfl⟩) ..
    · rw [ht]; rfl

/-! ## The state when only the issuing group changes -/

theorem State.cur_setCur (s : State) (g : Group) : (s.setGroup s.curCore s.curSlot g).cur = g := s.group_setGroup_same s.curCore s.curSlot g

theorem State.curStep_setCur (s : State) (g : Group) : CurStep s (s.setGroup s.curCore s.curSlot g) :=
  ⟨by rw [State.cur_setCur], fun _ => rfl⟩

/-! ## RDSR and WRSR -/

/-- The issuing group once a read of CLOCKLO has latched CLOCKHI (R78). -/
def State.latched (s : State) (x : FmtS) : Group :=
  { s.cur with clockhi := if x.srn = 0x020 ∧ s.actOf x.g ≠ 0 then halfOf (s.core s.curCore).cycles 1 else s.cur.clockhi }

theorem State.latched_eq (s : State) (x : FmtS) :
    (if x.srn = 0x020 ∧ (s.fe x.g).act ≠ 0 then { (s.fe x.g).g with clockhi := halfOf (s.fe x.g).c.cycles 1 } else (s.fe x.g).g) =
      s.latched x := by
  unfold State.latched
  rw [State.fe_act]
  by_cases hc : x.srn = 0x020 ∧ s.actOf x.g ≠ 0
  · rw [if_pos hc, if_pos hc]; rfl
  · rw [if_neg hc, if_neg hc]; rfl

/-- RDSR with a destination other than a k register, whole (R90). -/
theorem execRdsr_result {x : FmtS} {s : State} (h : s.passes (.rdsr x) = true) (hd : ∀ q, x.d ≠ .k q) :
    let v := (s.fe x.g).srValue x.srn.toNat x.sub.toNat
    execRdsr x s = .next (s.setGroup s.curCore s.curSlot
      (((s.latched x).write x.d (s.actOf x.g) v).push32 x.g x.d (s.actOf x.g) v).next) := by
  unfold execRdsr
  rw [frontEnd_passes h]
  simp only [s.latched_eq x]
  rfl

/-- RDSR with a k register as its destination, whole (R90). -/
theorem execRdsr_resultK {x : FmtS} {s : State} {n : BitVec 6} (h : s.passes (.rdsr x) = true) (hd : x.d = .k n) :
    let w := (s.fe x.g).srValue x.srn.toNat x.sub.toNat (lowest (s.actOf x.g))
    execRdsr x s = .next (s.setGroup s.curCore s.curSlot
      ((if s.actOf x.g = 0 then s.latched x else (s.latched x).writeK n.toNat w).push32 x.g (.k n) (s.actOf x.g) (fun _ => w)).next) := by
  unfold execRdsr
  rw [frontEnd_passes h]
  simp only [s.latched_eq x, hd]
  unfold Fe.resultK
  rw [BitVec.ofNat_toNat, BitVec.setWidth_eq]
  rfl

/-- A special register that WRSR may name is LOOPCFG or TRAPBASE (R91). -/
theorem srWritable_of_passes {x : FmtS} {s : State} (h : s.passes (.wrsr x) = true) : x.srn = 0x029 ∨ x.srn = 0x052 := by
  simp only [State.passes, form, srWritable, Bool.and_eq_true, Bool.or_eq_true, beq_iff_eq] at h
  obtain ⟨⟨⟨⟨⟨⟨hs, -⟩, -⟩, -⟩, -⟩, -⟩, -⟩ := h
  rcases hs with ⟨h29, -⟩ | ⟨h52, -⟩
  · exact .inl (BitVec.eq_of_toNat_eq h29)
  · exact .inr (BitVec.eq_of_toNat_eq h52)

/-- What WRSR writes, by the register and the part of it that it names (R34, R91). -/
theorem Group.writeSr_eq (g : Group) {srn : BitVec 12} (h : srn = 0x029 ∨ srn = 0x052) (sub : BitVec 8) (w : Word) :
    g.writeSr srn.toNat sub.toNat w = { g with
      loopcfg := if srn = 0x029 then w &&& 0x7FF else g.loopcfg
      trapbase := if srn = 0x052 ∧ sub = 0 then (g.trapbase.extractLsb' 32 32 ++ (w &&& 0xFFFFFFF8) : Dword)
        else if srn = 0x052 then ((w &&& 0x00FFFFFF) ++ g.trapbase.setWidth 32 : Dword) else g.trapbase } := by
  rcases h with rfl | rfl
  · rfl
  · by_cases hs : sub = 0
    · subst hs; rfl
    · have hn : sub.toNat ≠ 0 := fun q => hs (BitVec.eq_of_toNat_eq q)
      unfold Group.writeSr
      rw [if_neg (by decide), if_neg hn, if_neg (by decide), if_neg (fun q => hs q.2), if_pos rfl]
      rfl

/-- WRSR, whole: nothing where ACT is empty, and otherwise its register gets the value of the lowest lane (R91). -/
theorem execWrsr_passes {x : FmtS} {s : State} (h : s.passes (.wrsr x) = true) :
    execWrsr x s = .next (s.setGroup s.curCore s.curSlot (if s.actOf x.g = 0 then s.cur
      else s.cur.writeSr x.srn.toNat x.sub.toNat (s.src x.a (lowest (s.actOf x.g)))).next) := by
  unfold execWrsr
  rw [frontEnd_passes h]
  show (if s.actOf x.g = 0 then _ else _) = _
  split <;> rfl

/-- Settles O10: RDSR by the ends of forms over the group that has latched CLOCKHI, WRSR by the register that it names. -/
theorem specialRegisters : Obligations.SpecialRegisters := by
  intro x n s act v hi w
  refine ⟨fun h hd => ?_, fun h hd => ?_, fun h => ?_⟩
  · obtain ⟨hregs, hwrote⟩ := Group.write_push_next (s.latched x) x.g x.d act v
    refine ⟨_, execRdsr_result h hd, s.curStep_setCur _, ?_, ?_⟩ <;> rw [State.cur_setCur]
    · exact hregs
    · exact hwrote
  · obtain ⟨hregs, hk, hpush, hsame⟩ := Group.writeK_push_next (s.latched x) x.g n act (v (lowest act))
    refine ⟨_, execRdsr_resultK h hd, s.curStep_setCur _, ?_⟩
    rw [State.cur_setCur, hd]
    exact ⟨hregs, hk, hpush, fun file r l _ => hsame file r l⟩
  · refine ⟨_, execWrsr_passes h, s.curStep_setCur _, ?_⟩
    rw [State.cur_setCur]
    by_cases ha : act = 0
    · rw [if_pos ha]
      simp only [ha, ne_eq, not_true_eq_false, false_and, if_false]
      rfl
    · rw [if_neg ha, Group.writeSr_eq s.cur (srWritable_of_passes h)]
      simp only [ne_eq, ha, not_false_eq_true, true_and]
      rfl

end Sys2Proof.Machine
end

section
/-!
SUPPORT. What the carillon's operations on a core leave: every one of them changes elements, placed images, hops, counters and the placement
cache, and nothing else (R39 to R46, R406).
-/

namespace Sys2Proof.Machine

/-! ## The frame -/

/-- A core but for what its carillon, its counters and its placement cache hold. -/
def Core.offCarillon (c : Core) : Core :=
  { c with
    elems := []
    placed := []
    hops := []
    probes := []
    pmc := []
    cache := []
    placerq := [] }

/-- A part of a core that lies off the carillon. -/
theorem Core.off_part {α : Type} {c d : Core} (h : d.offCarillon = c.offCarillon) (f : Core → α) (hf : ∀ c, f c = f c.offCarillon) :
    f d = f c := by rw [hf, h, ← hf]

theorem Core.off_group {c d : Core} (h : d.offCarillon = c.offCarillon) (i : Nat) : d.group i = c.group i :=
  Core.off_part h (fun c => c.group i) (fun _ => rfl)
theorem Core.off_limit {c d : Core} (h : d.offCarillon = c.offCarillon) : d.limit = c.limit :=
  Core.off_part h Core.limit (fun _ => rfl)

theorem Core.foldl_off {α : Type} {f : Core → α → Core} (hf : ∀ c a, (f c a).offCarillon = c.offCarillon) (l : List α) (c : Core) :
    (l.foldl f c).offCarillon = c.offCarillon := by
  induction l generalizing c with
  | nil => rfl
  | cons a r ih => exact (ih _).trans (hf c a)

/-! ## The operations -/

theorem Core.count_off (c : Core) (code n : Nat) : (c.count code n).offCarillon = c.offCarillon := by
  rw [Core.count_eq]
  rfl

theorem Core.setElem_off (c : Core) (e : Nat) (x : Element) : (c.setElem e x).offCarillon = c.offCarillon := rfl
theorem Core.setNode_off (c : Core) (pi ni : Nat) (d : Node) : (c.setNode pi ni d).offCarillon = c.offCarillon := rfl

theorem Core.send_off (c : Core) (d : Option Dest) (t : Token) : (c.send d t).offCarillon = c.offCarillon := by
  cases d <;> rfl

theorem Core.enterTokens_off (c : Core) (p : Placed) (q : Copy) : (c.enterTokens p q).offCarillon = c.offCarillon :=
  Core.foldl_off (fun c _ => Core.foldl_off (fun c _ => c.send_off ..) _ c) _ c

theorem Core.touch_off (c : Core) (k : PlaceKey) : (c.touch k).offCarillon = c.offCarillon := rfl

/-- What the placer enters changes the placement cache alone (R38, R406). -/
theorem Core.enter_frame (c : Core) (k : PlaceKey) (image : Option (List Byte)) : c.enter k image = { c with cache := (c.enter k image).cache } := by
  unfold Core.enter
  extract_lets e free
  split
  · rfl
  · split
    · rfl
    · cases free <;> rfl

/-- An entry is found afterwards wherever its key had one or the cache had a place (R406). -/
theorem Core.enter_has (c : Core) (k : PlaceKey) (image : Option (List Byte)) (h : c.cache.any (·.has k) = true ∨ c.cache.length < 32) :
    ∃ e ∈ (c.enter k image).cache, e.has k = true ∧ e.image = image := by
  unfold Core.enter
  extract_lets e free
  have he : e.has k = true := by simp [e, CacheEntry.has]
  by_cases hk : c.cache.any (·.has k) = true
  · obtain ⟨a, ha, hak⟩ := List.any_eq_true.mp hk
    rw [if_pos hk]
    exact ⟨e, List.mem_map.mpr ⟨a, ha, if_pos hak⟩, he, rfl⟩
  · rw [if_neg hk, if_pos (h.resolve_left hk)]
    exact ⟨e, List.mem_append_right _ (List.mem_singleton_self e), he, rfl⟩

theorem Core.loadImage_off (c : Core) (pi blk rgn : Nat) (i : List Byte) (x0 y0 : Nat) (region : Option RegionState) (copy : Option Copy) :
    (c.loadImage pi blk rgn i x0 y0 region copy).offCarillon = c.offCarillon := rfl

theorem Core.loadImage_copy (c : Core) (pi blk rgn : Nat) (i : List Byte) (x0 y0 : Nat) (region : Option RegionState) (copy : Option Copy) :
    ((c.loadImage pi blk rgn i x0 y0 region copy).placedAt pi).copy = copy := by
  unfold Core.placedAt Core.loadImage
  rw [SMap.get_set_same]

theorem Core.placedAt_setPlaced_same (c : Core) (pi : Nat) (p : Placed) : (c.setPlaced pi p).placedAt pi = p := SMap.get_set_same ..

/-- The live-ins change elements alone, beside the nodes of the image. -/
theorem Core.injectLive_eq (c : Core) (pi : Nat) (g : Group) (q : Copy) :
    c.injectLive pi g q = { (c.setPlaced pi { (c.placedAt pi) with nodes := (c.placedAt pi).nodes.map (fun d => (d.1, d.2.based g)) }) with
      elems := (c.injectLive pi g q).elems } := by
  have hfold : ∀ {α : Type} (f : Core → α → Core) (_ : ∀ c a, f c a = { c with elems := (f c a).elems }) (l : List α) (c : Core),
      l.foldl f c = { c with elems := (l.foldl f c).elems } := by
    intro α f hf l
    induction l with
    | nil => exact fun _ => rfl
    | cons a r ih =>
      intro c
      rw [List.foldl_cons, ih, hf c a]
  unfold Core.injectLive
  extract_lets p c0 c1
  rw [hfold _ (fun c w => ?_) _ c1]
  · simp only [c1]
    rw [hfold _ (fun c r => ?_) _ c0]
    split <;> rfl
  · split <;> rfl

theorem Core.injectLive_off (c : Core) (pi : Nat) (g : Group) (q : Copy) : (c.injectLive pi g q).offCarillon = c.offCarillon := by
  rw [Core.injectLive_eq]
  rfl

theorem Core.injectLive_copy (c : Core) (pi : Nat) (g : Group) (q : Copy) : ((c.injectLive pi g q).placedAt pi).copy = (c.placedAt pi).copy := by
  have h : (c.injectLive pi g q).placedAt pi =
      { (c.placedAt pi) with nodes := (c.placedAt pi).nodes.map (fun d => (d.1, d.2.based g)) } := by
    rw [Core.injectLive_eq]
    exact Core.placedAt_setPlaced_same ..
  rw [h]

theorem Core.setCopy_off (c : Core) (n : Nat) (q : Copy) : (c.setCopy n q).offCarillon = c.offCarillon := rfl

theorem Core.setCopy_copy (c : Core) (n : Nat) (q : Copy) : ((c.setCopy n q).placedAt n).copy = some q := by
  unfold Core.setCopy
  rw [Core.placedAt_setPlaced_same]

theorem Core.dropIters_off (c : Core) (pi : Nat) (oldest : Word) (f : Nat → Bool) : (c.dropIters pi oldest f).offCarillon = c.offCarillon := by
  unfold Core.dropIters
  extract_lets es stay chan p node c1
  have h1 : c1.offCarillon = c.offCarillon := Core.foldl_off (fun c e => c.setElem_off ..) es c
  exact h1

theorem Core.completeStores_off (c : Core) (pi : Nat) (it : Word) : (c.completeStores pi it).offCarillon = c.offCarillon :=
  Core.foldl_off (fun c _ => Core.foldl_off (fun c _ => c.setNode_off ..) _ c) _ c

theorem Core.squash_off (c : Core) (n : Nat) (q : Copy) (pc : Dword) : (c.squash n q pc).offCarillon = c.offCarillon :=
  (Core.setCopy_off ..).trans (c.dropIters_off ..)

theorem Core.squash_copy (c : Core) (n : Nat) (q : Copy) (pc : Dword) : ((c.squash n q pc).placedAt n).copy = some (q.squash pc) :=
  Core.setCopy_copy ..

theorem Core.dropPlaced_off (c : Core) (pi : Nat) : (c.dropPlaced pi).offCarillon = c.offCarillon := rfl

theorem Core.dropPlaced_placedAt (c : Core) (pi : Nat) : (c.dropPlaced pi).placedAt pi = {} := SMap.get_del_same ..

/-! ## One core of the state -/

theorem State.group_setCore_same (s : State) (core : Nat) (c : Core) (i : Nat) : (s.setCore core c).group core i = c.group i := by
  unfold State.group
  rw [State.core_setCore_same]

/-- Of the cores only one changes, and of it no group. -/
theorem State.setCore_groupsSame {s : State} {core : Nat} {c : Core} (h : c.offCarillon = (s.core core).offCarillon) :
    GroupsSame s (s.setCore core c) := by
  intro k i
  unfold State.group
  rw [State.setCore_core]
  split
  · subst_vars; exact Core.off_group h i
  · rfl

/-- Of the cores only one changes, and of it one group at most. -/
theorem State.setCore_groupsBut {s : State} {core slot : Nat} {c : Core} (h : ∀ i, slot ≠ i → c.group i = (s.core core).group i) :
    GroupsBut s (s.setCore core c) core slot := by
  intro k i hne
  unfold State.group
  rw [State.setCore_core]
  split
  · rename_i hk
    subst hk
    exact h i (fun q => hne (by rw [q]))
  · rfl

end Sys2Proof.Machine
end

section
/-!
SUPPORT. Registers by code: what the write-back of a captured loop leaves in its group (R37, R44, R46).
-/

namespace Sys2Proof.Machine

/-- Of a group, only v, w and p registers change. -/
def RegsOnly (g t : Group) : Prop :=
  t = { g with
    v := t.v
    w := t.w
    p := t.p }

theorem RegsOnly.refl (g : Group) : RegsOnly g g := rfl

theorem RegsOnly.trans {g t u : Group} (h : RegsOnly g t) (k : RegsOnly t u) : RegsOnly g u := by
  unfold RegsOnly at *
  rw [k, h]

theorem RegsOnly.foldl {α : Type} {f : Group → α → Group} (hf : ∀ g a, RegsOnly g (f g a)) (l : List α) (g : Group) : RegsOnly g (l.foldl f g) := by
  induction l generalizing g with
  | nil => exact .refl g
  | cons a r ih => exact (hf g a).trans (ih _)

theorem Group.setReg_regsOnly (g : Group) (code l : Nat) (x : Word) : RegsOnly g (g.setReg code l x) := by
  unfold Group.setReg
  split
  · rfl
  · split
    · rfl
    · unfold Group.setPred
      split <;> rfl

theorem Group.setRegs_regsOnly (g : Group) (codes : List Nat) (m : SMap Word) : RegsOnly g (g.setRegs codes m) :=
  RegsOnly.foldl (fun g _ => RegsOnly.foldl (fun g _ => g.setReg_regsOnly ..) _ g) _ g

/-- What the register with a code holds of a value that is written to it: a p register holds bit 0 (R53). -/
def codeHolds (code : Nat) (x : Word) : Word := if code < 0x110 then x else boolWord (x.getLsbD 0)

theorem boolWord_inj {a b : Bool} (h : boolWord a = boolWord b) : a = b := by
  revert h; revert a b; decide

/-- The mask of one lane. -/
theorem getLsbD_laneBit {l j : Nat} (hj : j < 32) : (1#32 <<< l).getLsbD j = decide (l = j) := by
  have h := getLsbD_maskOf [l] j hj
  simp only [maskOf, List.foldl_cons, List.foldl_nil] at h
  simpa [eq_comm] using h

/-- A register of a lane after a write by code: v, w and p0 to p6 (R53). -/
theorem Group.regAt_setReg (g : Group) (code l : Nat) (x : Word) {r j : Nat} (hl : l < 32) (hj : j < 32) (hr : r < 0x117) :
    (g.setReg code l x).regAt r j = if code = r ∧ l = j then codeHolds r x else g.regAt r j := by
  unfold Group.setReg
  by_cases hv : code < 0x100
  · rw [if_pos hv]
    unfold Group.regAt
    by_cases hrv : r < 0x100
    · have hrh : codeHolds r x = x := if_pos (by omega)
      simp only [if_pos hrv, SMap.get_set, vkey_inj hl hj, hrh]
    · have hne : ¬ (code = r ∧ l = j) := by omega
      simp only [if_neg hrv, if_neg hne]
  · rw [if_neg hv]
    by_cases hw : code < 0x110
    · rw [if_pos hw]
      unfold Group.regAt
      by_cases hrv : r < 0x100
      · have hne : ¬ (code = r ∧ l = j) := by omega
        simp only [if_pos hrv, if_neg hne]
      · by_cases hrw : r < 0x110
        · have hcode : code - 0x100 = r - 0x100 ↔ code = r := by omega
          have hrh : codeHolds r x = x := if_pos hrw
          simp only [if_neg hrv, if_pos hrw, SMap.get_set, vkey_inj hl hj, hcode, hrh]
        · have hne : ¬ (code = r ∧ l = j) := by omega
          simp only [if_neg hrv, if_neg hrw, if_neg hne]
    · rw [if_neg hw]
      unfold Group.setPred
      by_cases h7 : code - 0x110 = 7
      · have hne : ¬ (code = r ∧ l = j) := by omega
        rw [if_pos h7, if_neg hne]
      · rw [if_neg h7]
        unfold Group.regAt
        by_cases hrw : r < 0x110
        · have hne : ¬ (code = r ∧ l = j) := by omega
          simp only [if_neg hne, if_pos hrw]
        · have hrv : ¬ r < 0x100 := by omega
          have hcode : code - 0x110 = r - 0x110 ↔ code = r := by omega
          have hrh : codeHolds r x = boolWord (x.getLsbD 0) := if_neg hrw
          simp only [if_neg hrv, if_neg hrw, SMap.get_set, hcode, hrh]
          by_cases hc : code = r
          · rw [if_pos hc, getLsbD_mergeBits _ _ _ _ hj, getLsbD_laneBit hj]
            by_cases hlj : l = j <;> simp [hc, hlj]
          · simp [hc]

theorem Group.regAt_foldl_setReg (code : Nat) (f : Nat → Word) {r j : Nat} (hj : j < 32) (hr : r < 0x117) (L : List Nat) (hL : ∀ l ∈ L, l < 32)
    (g : Group) :
    (L.foldl (fun (g : Group) l => g.setReg code l (f l)) g).regAt r j = if code = r ∧ j ∈ L then codeHolds r (f j) else g.regAt r j := by
  induction L generalizing g with
  | nil => simp
  | cons a t ih =>
    rw [List.foldl_cons, ih (fun l hl => hL l (List.mem_cons_of_mem _ hl)), Group.regAt_setReg g code a (f a) (hL a (List.mem_cons_self ..)) hj hr]
    by_cases hc : code = r
    · by_cases haj : a = j
      · subst haj; simp [hc]
      · have hja : ¬ j = a := fun q => haj q.symm
        simp [hc, haj, hja]
    · simp [hc]

/-- A register of a lane after values of registers have been written into every lane. -/
theorem Group.regAt_setRegs (g : Group) (codes : List Nat) (m : SMap Word) {r j : Nat} (hj : j < 32) (hr : r < 0x117) :
    (g.setRegs codes m).regAt r j = if r ∈ codes then codeHolds r (SMap.get 0 m (32 * r + j)) else g.regAt r j := by
  unfold Group.setRegs
  induction codes generalizing g with
  | nil => simp
  | cons a t ih =>
    rw [List.foldl_cons, ih, Group.regAt_foldl_setReg a _ hj hr _ (fun l hl => List.mem_range.mp hl)]
    by_cases ht : r ∈ t
    · simp [ht]
    · by_cases ha : a = r
      · subst ha; simp [hj]
      · have hra : ¬ r = a := fun q => ha q.symm
        simp [ht, ha, hra]

/-- A v or w register of a lane after the write of values by code. -/
theorem Group.vw_setRegs (g : Group) (codes : List Nat) (m : SMap Word) {r j : Nat} (hj : j < 32) (hr : r < 0x110) :
    (g.setRegs codes m).regAt r j = if r ∈ codes then SMap.get 0 m (32 * r + j) else g.regAt r j := by
  rw [Group.regAt_setRegs g codes m hj (by omega), codeHolds, if_pos hr]

theorem Group.regAt_pred (g : Group) (r l : Nat) : g.regAt (0x110 + r) l = boolWord ((SMap.get 0 g.p r).getLsbD l) := by
  unfold Group.regAt
  rw [if_neg (by omega), if_neg (by omega), Nat.add_sub_cancel_left]

/-- A predicate of a lane after the write of values by code. -/
theorem Group.pred_setRegs (g : Group) (codes : List Nat) (m : SMap Word) {r j : Nat} (hj : j < 32) (hr : r < 7) :
    (SMap.get 0 (g.setRegs codes m).p r).getLsbD j =
      if 0x110 + r ∈ codes then (SMap.get 0 m (32 * (0x110 + r) + j)).getLsbD 0 else (SMap.get 0 g.p r).getLsbD j := by
  have hh : ∀ x, codeHolds (0x110 + r) x = boolWord (x.getLsbD 0) := fun x => if_neg (by omega)
  apply boolWord_inj
  rw [← Group.regAt_pred, Group.regAt_setRegs g codes m hj (by omega), hh, Group.regAt_pred]
  split <;> rfl

theorem and_not_of_and_eq_zero {w : Nat} {x y : BitVec w} (h : x &&& y = 0) : x &&& ~~~y = x := by
  apply BitVec.eq_of_getLsbD_eq
  intro i hi
  have hb : (x &&& y).getLsbD i = false := by rw [h]; simp
  rw [BitVec.getLsbD_and] at hb
  cases hx : x.getLsbD i <;> simp_all

/-- The group as it leaves a copy, with room on its stack for the lanes that have exited (R44, R46). -/
theorem Group.leaves_eq (g : Group) (q : Copy) (pc : Dword)
    (h : q.damp.isSome = true → q.entryMask &&& q.exited ≠ 0 → g.stack.length < 16) :
    g.leaves q pc = { g.setRegs q.outs q.committed with
      y0v := false
      y1v := false
      st := .running
      pc := pc
      loopCount := q.oldest
      armPoint := if q.damp.isSome then q.oldest else g.armPoint
      m := if q.damp.isSome then q.entryMask &&& ~~~q.exited else q.entryMask
      stack := if q.damp.isSome && q.entryMask &&& q.exited != 0 then
        { rcv := false, pc := q.exitPc, mask := q.entryMask &&& q.exited } :: g.stack else g.stack } := by
  have hr : g.setRegs q.outs q.committed = _ := g.setRegs_regsOnly q.outs q.committed
  have harm : (g.setRegs q.outs q.committed).armPoint = g.armPoint := by rw [hr]
  have hst : (g.setRegs q.outs q.committed).stack = g.stack := by rw [hr]
  unfold Group.leaves Group.yInvalid
  cases hd : q.damp with
  | none => simp [harm, hst]
  | some d =>
    extract_lets g1 g2 g3 out
    by_cases ho : q.entryMask &&& q.exited = 0
    · have hb : (q.entryMask &&& q.exited != 0) = false := by rw [ho]; rfl
      rw [Option.isNone_some, if_neg Bool.false_ne_true, if_pos (.inl ho)]
      simp only [g3, g2, g1, hb, and_not_of_and_eq_zero ho, hst, Option.isSome_some, if_true, Bool.and_false, Bool.false_eq_true, if_false]
      rfl
    · have hroom : ¬ 16 ≤ g.stack.length := Nat.not_le.mpr (h (by rw [hd]; rfl) ho)
      have hb : (q.entryMask &&& q.exited != 0) = true := bne_iff_ne.mpr ho
      rw [Option.isNone_some, if_neg Bool.false_ne_true, if_neg (not_or.mpr ⟨ho, hroom⟩)]
      simp only [g3, g2, g1, out, hb, hst, Option.isSome_some, if_true, Bool.and_true]
      rfl

end Sys2Proof.Machine
end

section
/-!
SUPPORT. Fills of windows change of a core its scratchpad and the marks of its windows alone (R267, R268, R274).
-/

namespace Sys2Proof.Machine

/-- A core but for its scratchpad and the marks of its windows. -/
def Core.unfilled (c : Core) : Core :=
  { c with
    scratch := []
    marks := [] }

/-- Of every core, only its scratchpad and the marks of its windows change. -/
structure FillStep (s t : State) : Prop where
  cores : ∀ k, (t.core k).unfilled = (s.core k).unfilled

theorem FillStep.refl (s : State) : FillStep s s := ⟨fun _ => rfl⟩
theorem FillStep.trans {s t u : State} (h : FillStep s t) (k : FillStep t u) : FillStep s u := ⟨fun i => (k.cores i).trans (h.cores i)⟩
theorem FillStep.of_cores {s t : State} (h : t.cores = s.cores) : FillStep s t := ⟨fun k => by unfold State.core; rw [h]⟩

theorem FillStep.foldl {α : Type} {f : State → α → State} (hf : ∀ s a, FillStep s (f s a)) (l : List α) (s : State) : FillStep s (l.foldl f s) := by
  induction l generalizing s with
  | nil => exact .refl s
  | cons a r ih => exact (hf s a).trans (ih _)

/-- What a write of the hub changes of a core is among what a fill may. -/
theorem HubStep.fillStep {s t : State} (h : HubStep s t) : FillStep s t :=
  ⟨h.core_part Core.unfilled (fun _ => rfl)⟩

theorem FillStep.core_part {α : Type} {s t : State} (h : FillStep s t) (f : Core → α) (hf : ∀ c, f c = f c.unfilled) (k : Nat) :
    f (t.core k) = f (s.core k) := by rw [hf, h.cores k, ← hf]

theorem FillStep.groupsSame {s t : State} (h : FillStep s t) : GroupsSame s t :=
  fun c i => h.core_part (fun x => x.group i) (fun _ => rfl) c

theorem FillStep.placedAt {s t : State} (h : FillStep s t) (k n : Nat) : (t.core k).placedAt n = (s.core k).placedAt n :=
  h.core_part (fun x => x.placedAt n) (fun _ => rfl) k

theorem State.spWrite_fillStep (s : State) (core blk off n v : Nat) : FillStep s (s.spWrite core blk off n v) := by
  refine FillStep.trans ⟨fun k => ?_⟩ (State.cleanse_hubStep ..).fillStep
  rw [State.setCore_core]
  split
  · subst_vars; rfl
  · rfl

theorem State.carryPoison_fillStep (s : State) (k : Nat) (bad whole : Bool) : FillStep s (s.carryPoison k bad whole) := by
  unfold State.carryPoison
  split
  · exact .of_cores rfl
  · split
    · exact (State.cleanse_hubStep ..).fillStep
    · exact .refl s

theorem State.fillWord_fillStep (s : State) (core blk off : Nat) (k : Option Nat) : FillStep s (s.fillWord core blk off k) := by
  unfold State.fillWord
  extract_lets m s1
  split
  · exact .refl s
  · have h1 : FillStep s s1 := FillStep.foldl (fun s i => by
      split
      · exact .refl s
      · exact State.spWrite_fillStep ..) _ s
    exact (h1.trans (State.carryPoison_fillStep ..)).trans (State.setMarks_hubStep ..).fillStep

theorem State.setDir_fillStep (s : State) (line : Nat) (d : DirEntry) : FillStep s (s.setDir line d) := .of_cores rfl

theorem State.evictSharer_fillStep (s : State) (line : Nat) : FillStep s (s.evictSharer line) := by
  unfold State.evictSharer
  extract_lets d
  split
  · split
    · exact (State.setDir_fillStep ..).trans (State.deliverNotice_hubStep ..).fillStep
    · exact .refl s
  · exact .refl s

theorem State.register_fillStep (s : State) (core wid k n : Nat) : FillStep s (s.register core wid k n) :=
  (State.setDir_fillStep ..).trans (State.evictSharer_fillStep ..)

theorem State.fill_fillStep (s : State) (core blk : Nat) (w : Window) (off : Nat) (k : Option Nat) : FillStep s (s.fill core blk w off k) := by
  unfold State.fill
  extract_lets sec s1
  have h1 : FillStep s s1 := FillStep.foldl (fun s i => State.fillWord_fillStep ..) _ s
  split
  · exact h1.trans (State.register_fillStep ..)
  · exact h1

/-- The fills that a trial leaves behind (R274). -/
theorem State.keepFills_fillStep (s t : State) (core blk : Nat) : FillStep s (s.keepFills t core blk) := by
  refine FillStep.foldl (fun s w => FillStep.foldl (fun s i => ?_) _ s) _ s
  extract_lets sec
  split
  · exact .refl s
  · exact State.fill_fillStep ..

end Sys2Proof.Machine
end

section
/-!
SUPPORT. Captured loops, event by event: the placer, the hand-over, iterations, exit, damp and write-back (R38 to R46).
-/

namespace Sys2Proof.Machine

/-! ## The placer (R38) -/

/-- The placer has nothing to place where no loaded object has the number of its oldest request. -/
theorem execPlacerComplete_noObject {s : State} {core : Nat} {r : PlaceReq} {rest : List PlaceReq} (hq : (s.core core).placerq = r :: rest)
    (ho : (s.part ((s.core core).block ((s.core core).group r.slot).blk).part).objects.find? (fun q => q.2.st == 2 && q.2.objid == r.objid) = none) :
    execPlacerComplete core s = .next (s.setCore core { (s.core core) with placerq := rest }) := by
  unfold execPlacerComplete
  simp only [hq, ho]

/-- The placer's answer to its oldest request enters the cache (R38, R406). -/
theorem execPlacerComplete_enters {s : State} {core : Nat} {r : PlaceReq} {rest : List PlaceReq} {q : Nat × CodeObj}
    (hq : (s.core core).placerq = r :: rest)
    (ho : (s.part ((s.core core).block ((s.core core).group r.slot).blk).part).objects.find? (fun q => q.2.st == 2 && q.2.objid == r.objid) = some q)
    (hh : s.bodyHeld core ((s.core core).block ((s.core core).group r.slot).blk) (q.2.base + BitVec.ofNat 64 r.headofs) 96 0 = false) :
    let k : PlaceKey := ⟨r.objid, r.headofs, r.layhash, r.k⟩
    execPlacerComplete core s = .next (s.setCore core (Core.enter { (s.core core) with placerq := rest } k
      (s.placerResult core ((s.core core).block ((s.core core).group r.slot).blk) (q.2.base + BitVec.ofNat 64 r.headofs) k))) := by
  unfold execPlacerComplete
  simp only [hq, ho, hh, Bool.false_eq_true, if_false]

/-- The placer's answer: what it leaves, and the entry that a lookup then finds (R38, R406). -/
theorem execPlacerComplete_outcome {s : State} {core : Nat} {r : PlaceReq} {rest : List PlaceReq} {q : Nat × CodeObj}
    (hq : (s.core core).placerq = r :: rest)
    (ho : (s.part ((s.core core).block ((s.core core).group r.slot).blk).part).objects.find? (fun q => q.2.st == 2 && q.2.objid == r.objid) = some q)
    (hh : s.bodyHeld core ((s.core core).block ((s.core core).group r.slot).blk) (q.2.base + BitVec.ofNat 64 r.headofs) 96 0 = false) :
    let k : PlaceKey := ⟨r.objid, r.headofs, r.layhash, r.k⟩
    let image := s.placerResult core ((s.core core).block ((s.core core).group r.slot).blk) (q.2.base + BitVec.ofNat 64 r.headofs) k
    ∃ t, execPlacerComplete core s = .next t ∧ MemorySame s t ∧ GroupsSame s t ∧ (t.core core).placerq = rest ∧
      ((s.core core).cache.any (·.has k) = true ∨ (s.core core).cache.length < 32 → ∃ e ∈ (t.core core).cache, e.has k = true ∧ e.image = image) := by
  intro k image
  have hf := Core.enter_frame { (s.core core) with placerq := rest } k image
  refine ⟨_, execPlacerComplete_enters hq ho hh, fun _ => rfl, State.setCore_groupsSame ?_, ?_, fun hc => ?_⟩
  · exact (congrArg Core.offCarillon hf).trans rfl
  · rw [State.core_setCore_same]
    exact congrArg Core.placerq hf
  · rw [State.core_setCore_same]
    exact Core.enter_has { (s.core core) with placerq := rest } k image hc

theorem State.placerResult_ineligible {s : State} {core : Nat} {b : Block} {h : Dword} (k : PlaceKey) (he : s.eligibleBody core b h = none) :
    s.placerResult core b h k = none := by
  unfold State.placerResult
  rw [he]

/-- A placement is a captured-loop image of its key that R397 accepts for the block's shares. -/
theorem State.placerResult_some {s : State} {core : Nat} {b : Block} {h : Dword} {k : PlaceKey} {i : List Byte}
    (hi : s.placerResult core b h k = some i) :
    imKind i = 0 ∧ imKey i = k ∧ imageReject i (min (s.core core).budget b.kd.shares) = none := by
  unfold State.placerResult at hi
  split at hi
  · contradiction
  · split at hi
    · contradiction
    · split at hi
      · rename_i hc
        cases hi
        obtain ⟨hkind, hkey, hacc, -⟩ := hc
        exact ⟨hkind, hkey, hacc⟩
      · contradiction

/-! ## Hand-over (R39, R40) -/

/-- The key under which the loop of a group is placed, in code object `o` (R406). -/
def State.loopKey (s : State) (core slot : Nat) (o : CodeObj) : PlaceKey :=
  let g := s.group core slot
  ⟨o.objid, g.loopH.toNat - o.base.toNat, ((s.core core).block g.blk).kd.layhash, g.kDepth⟩

/-- The copy that takes the loop of a group: the words of its body and their instructions, under a key. -/
def Core.copyFor (c : Core) (slot : Nat) (k : PlaceKey) (ws : List Dword) (l : List Instr) : Copy :=
  let g := c.group slot
  { slot, head := g.loopH, exitPc := g.loopH + BitVec.ofNat 64 (8 * ws.length), k := g.kDepth, oldest := g.loopCount, inflight := 0
    permits := g.kDepth, entryMask := g.m, cacheKey := (k.objid, k.headofs, k.layhash, k.k), body := ws, outs := liveOuts l
    ins := liveIns l, gidx := c.freeStream, committed := g.regs (liveIns l) }

/-- The core after a hand-over: the image is loaded, the live-ins are injected, and the group streams. -/
def Core.takesOver (c : Core) (slot : Nat) (k : PlaceKey) (i : List Byte) (x0 y0 : Nat) (q : Copy) : Core :=
  let g := c.group slot
  (((c.touch k).loadImage c.freePlaced g.blk 0 i x0 y0 none (some q)).injectLive c.freePlaced g q).setGroup slot { g with st := .streaming }

section
variable (c : Core) (slot : Nat) (k : PlaceKey) (i : List Byte) (x0 y0 : Nat) (q : Copy)

/-- But for its group, a hand-over leaves what lies off the carillon. -/
theorem Core.takesOver_eq : ∃ d : Core, c.takesOver slot k i x0 y0 q = d.setGroup slot { (c.group slot) with st := .streaming } ∧
    d.offCarillon = c.offCarillon ∧ (d.placedAt c.freePlaced).copy = some q := by
  refine ⟨_, rfl, ?_, ?_⟩
  · rw [Core.injectLive_off, Core.loadImage_off, Core.touch_off]
  · rw [Core.injectLive_copy, Core.loadImage_copy]

theorem Core.takesOver_group : (c.takesOver slot k i x0 y0 q).group slot = { (c.group slot) with st := .streaming } := Core.group_setGroup_same ..

theorem Core.takesOver_group_ne {j : Nat} (h : slot ≠ j) : (c.takesOver slot k i x0 y0 q).group j = c.group j := by
  obtain ⟨d, hd, hoff, -⟩ := c.takesOver_eq slot k i x0 y0 q
  rw [hd, Core.group_setGroup_ne _ _ h, Core.off_group hoff]

theorem Core.takesOver_copy : ((c.takesOver slot k i x0 y0 q).placedAt c.freePlaced).copy = some q := by
  obtain ⟨d, hd, -, hcopy⟩ := c.takesOver_eq slot k i x0 y0 q
  rw [hd]
  exact hcopy

/-- A limit that covers the carillon covers it with the new copy too (R13). -/
theorem Core.takesOver_overdrawn (h : 4 ≤ c.limit) : (c.takesOver slot k i x0 y0 q).overdrawn = false := by
  obtain ⟨d, hd, hoff, -⟩ := c.takesOver_eq slot k i x0 y0 q
  have hl : (c.takesOver slot k i x0 y0 q).limit = c.limit := by
    rw [hd]
    exact (Core.off_limit hoff :)
  unfold Core.overdrawn
  rw [hl, decide_eq_false (Nat.not_lt.mpr h), Bool.and_false]

end

/-- A candidate group stands at the head of its loop, the body `ws` of code object `o` is eligible, and image `i` for it, found in the cache,
fits at (x0, y0): nothing keeps the loop from its copy (R36, R38 to R40). -/
structure State.TakesLoop (s : State) (core slot : Nat) (o : CodeObj) (ws : List Dword) (l : List Instr) (i : List Byte) (x0 y0 : Nat) : Prop where
  running : (s.group core slot).st = .running
  candidate : (s.group core slot).candidate = true
  noHalt : (s.group core slot).haltReq = false
  noPreempt : ((s.core core).block (s.group core slot).blk).preempt = none
  atHead : (s.group core slot).pc = (s.group core slot).loopH
  copies : (s.core core).copies < 16
  service : s.devstate ≠ 1
  notHeld : (s.core core).carillonHeld = false
  limit : 4 ≤ (s.core core).limit
  object : ∃ oi, (s.part ((s.core core).block (s.group core slot).blk).part).objectAt ((s.core core).block (s.group core slot).blk).asid
    (s.group core slot).loopH.toNat = some (oi, o)
  body : s.eligibleBody core ((s.core core).block (s.group core slot).blk) (s.group core slot).loopH = some (ws, l)
  noBreak : s.breakIn ((s.core core).block (s.group core slot).blk).part (s.group core slot).loopH.toNat
    ((s.group core slot).loopH.toNat + 8 * (ws.length - 1)) = false
  cached : ∃ e, (s.core core).cache.find? (·.has (s.loopKey core slot o)) = some e ∧ e.image = some i
  fits : (s.core core).sharesFit ((s.core core).block (s.group core slot).blk) i = true
  origin : (s.core core).origin i = some (x0, y0)

theorem execHandOver_takes {s : State} {core slot : Nat} {o : CodeObj} {ws : List Dword} {l : List Instr} {i : List Byte} {x0 y0 : Nat}
    (h : s.TakesLoop core slot o ws l i x0 y0) :
    execHandOver core slot s = .next (s.setCore core ((s.core core).takesOver slot (s.loopKey core slot o) i x0 y0
      ((s.core core).copyFor slot (s.loopKey core slot o) ws l))) := by
  obtain ⟨hst, hcand, hhalt, hpre, hpc, hcopies, hdev, hheld, hlim, ⟨oi, hobj⟩, hbody, hbrk, ⟨e, hcache, himg⟩, hfit, horig⟩ := h
  have hdrawn := (s.core core).takesOver_overdrawn slot (s.loopKey core slot o) i x0 y0 ((s.core core).copyFor slot (s.loopKey core slot o) ws l) hlim
  obtain ⟨objid, headofs, layhash, kd, image, used⟩ := e
  subst himg
  unfold State.group at hst hcand hhalt hpre hpc hobj hbody hbrk hfit
  unfold State.loopKey State.group at hcache
  have hgo : (!((s.core core).group slot).st == .running || !((s.core core).group slot).candidate || ((s.core core).group slot).haltReq ||
      ((s.core core).block ((s.core core).group slot).blk).preempt.isSome ||
      decide (((s.core core).group slot).pc ≠ ((s.core core).group slot).loopH) || decide (16 ≤ (s.core core).copies) ||
      s.devstate == 1 || (s.core core).carillonHeld) = false := by
    simp [hst, hcand, hhalt, hpre, hpc, hcopies, hdev, hheld]
  unfold execHandOver
  simp only [hgo, hobj, hbody, hbrk, hcache, hfit, horig, Bool.false_eq_true, if_false]
  exact congrArg Host.Outcome.next (if_neg (Bool.eq_false_iff.mp hdrawn))

/-- A hand-over: one group changes, which streams, and a copy holds its loop (R39, R40). -/
theorem execHandOver_outcome {s : State} {core slot : Nat} {o : CodeObj} {ws : List Dword} {l : List Instr} {i : List Byte} {x0 y0 : Nat}
    (h : s.TakesLoop core slot o ws l i x0 y0) :
    ∃ t, execHandOver core slot s = .next t ∧ MemorySame s t ∧ GroupsBut s t core slot ∧
      t.group core slot = { (s.group core slot) with st := .streaming } ∧
      ((t.core core).placedAt (s.core core).freePlaced).copy = some ((s.core core).copyFor slot (s.loopKey core slot o) ws l) := by
  refine ⟨_, execHandOver_takes h, fun _ => rfl, State.setCore_groupsBut (fun j hj => Core.takesOver_group_ne _ _ _ _ _ _ _ hj), ?_, ?_⟩
  · rw [State.group_setCore_same, Core.takesOver_group]
    rfl
  · rw [State.core_setCore_same, Core.takesOver_copy]

/-! ## Admission (R41) -/

theorem execIterationAdmit_enters {s : State} {core n : Nat} {p : Placed} {q : Copy} (hc : (s.core core).copyAt n = some (p, q))
    (hp : q.permits ≠ 0) (hd : q.damp = none) (he : q.exitIter = none)
    (hs : ∀ d ∈ p.entries, (s.core core).spaceFor d q.octets.length = true) :
    execIterationAdmit core n s = .next (s.setCore core (((((s.core core).enterTokens p q).setCopy n { q with
      permits := q.permits - 1
      inflight := q.inflight + 1
      injected := true })).count 5 (if q.injected then 0 else 1))) := by
  have hroom : p.entries.any (fun d => !(s.core core).spaceFor d q.octets.length) = false :=
    List.any_eq_false.mpr (fun d hd => by rw [hs d hd]; decide)
  unfold execIterationAdmit
  simp only [hc, hroom, hd, he, hp, Option.isSome_none, Bool.false_eq_true, or_self, if_false]

/-- An admission: a permit is spent on an iteration in flight (R41). -/
theorem execIterationAdmit_outcome {s : State} {core n : Nat} {p : Placed} {q : Copy} (hc : (s.core core).copyAt n = some (p, q))
    (hp : q.permits ≠ 0) (hd : q.damp = none) (he : q.exitIter = none)
    (hs : ∀ d ∈ p.entries, (s.core core).spaceFor d q.octets.length = true) :
    ∃ t, execIterationAdmit core n s = .next t ∧ MemorySame s t ∧ GroupsSame s t ∧ ((t.core core).placedAt n).copy = some { q with
      permits := q.permits - 1
      inflight := q.inflight + 1
      injected := true } := by
  refine ⟨_, execIterationAdmit_enters hc hp hd he hs, fun _ => rfl, State.setCore_groupsSame ?_, ?_⟩
  · rw [Core.count_off, Core.setCopy_off, Core.enterTokens_off]
  · rw [State.core_setCore_same, Core.count_eq]
    exact Core.setCopy_copy ..

/-! ## Commit (R42 to R45) -/

/-- The trial of the oldest iteration of a copy. -/
def State.trialOf (s : State) (core : Nat) (p : Placed) (q : Copy) : Swept :=
  State.sweep core q.slot p.blk q.head ⟨q.oldest, q.early, q.body.length⟩ q.body 0 0 (s.trial core q) (q.entryMask &&& ~~~q.exited) [] {}

/-- The group of a copy after an iteration that ran to `s1` has committed: only its y slots are those of the iteration. -/
def State.committedGroup (s s1 : State) (core slot : Nat) : Group :=
  let g1 := s1.group core slot
  { (s.group core slot) with
    y0 := g1.y0
    y1 := g1.y1
    y0v := g1.y0v
    y1v := g1.y1v }

theorem Copy.damp_any_oldest {q : Copy} (hd : ∀ d, q.damp = some d → d.1 ≠ q.oldest) : q.damp.any (fun d => d.1 == q.oldest) = false := by
  cases h : q.damp with
  | none => rfl
  | some d => exact beq_eq_false_iff_ne.mpr (hd d h)

section
variable {s : State} {core n : Nat} {p : Placed} {q : Copy} (hc : (s.core core).copyAt n = some (p, q)) (hi : q.inflight ≠ 0)
  (he : q.exitIter = none) (hd : ∀ d, q.damp = some d → d.1 ≠ q.oldest)
include hc hi he hd

/-- An iteration whose words all execute commits (R42, R44). -/
theorem execIterationCommit_commits {s1 : State} {exits : Mask} {tr : Trace} (hran : s.trialOf core p q = .done s1 exits tr) :
    let s2 := s1.setGroup core q.slot (s.committedGroup s1 core q.slot)
    ∃ d : Core, execIterationCommit core n s = .next (s2.setCore core (d.setCopy n (q.commit ((s1.group core q.slot).regs q.ins) exits))) ∧
      d.offCarillon = (s2.core core).offCarillon := by
  unfold State.trialOf at hran
  unfold execIterationCommit
  simp only [hc, hi, he, Copy.damp_any_oldest hd, hran, Option.isSome_none, Bool.false_eq_true, or_self, if_false]
  refine ⟨_, rfl, ?_⟩
  rw [Core.dropIters_off, Core.completeStores_off, Core.count_off]
  rfl

/-- An iteration that meets a fault or a branch out of the body names itself as a damp boundary; of its trial the fills remain (R45, R274). -/
theorem execIterationCommit_damps {s1 : State} {out : Bool} (hran : s.trialOf core p q = .damp out s1) :
    execIterationCommit core n s = .next ((s.setCore core ((s.core core).setCopy n
      (q.dampTo q.oldest (if out then .branchOut q.oldest else .faulted q.oldest)))).keepFills s1 core p.blk) := by
  unfold State.trialOf at hran
  unfold execIterationCommit
  simp only [hc, hi, he, Copy.damp_any_oldest hd, hran, Option.isSome_none, Bool.false_eq_true, or_self, if_false]

/-- A commit: memory is the iteration's, the copy has moved on by an iteration, and its group has the iteration's y slots (R42, R44). -/
theorem execIterationCommit_commit_outcome {s1 : State} {exits : Mask} {tr : Trace} (hran : s.trialOf core p q = .done s1 exits tr) :
    ∃ t, execIterationCommit core n s = .next t ∧ MemorySame s1 t ∧
      ((t.core core).placedAt n).copy = some (q.commit ((s1.group core q.slot).regs q.ins) exits) ∧
      t.group core q.slot = s.committedGroup s1 core q.slot := by
  obtain ⟨d, hd1, hd2⟩ := execIterationCommit_commits hc hi he hd hran
  refine ⟨_, hd1, fun _ => rfl, ?_, ?_⟩
  · rw [State.core_setCore_same, Core.setCopy_copy]
  · rw [State.group_setCore_same, Core.off_group (Core.setCopy_off ..), Core.off_group hd2]
    exact State.group_setGroup_same ..

/-- A damp trigger in the oldest iteration: the copy has its boundary, and memory and groups are as before (R45). -/
theorem execIterationCommit_damp_outcome {s1 : State} {out : Bool} (hran : s.trialOf core p q = .damp out s1) :
    ∃ t, execIterationCommit core n s = .next t ∧ MemorySame s t ∧ GroupsSame s t ∧
      ((t.core core).placedAt n).copy = some (q.dampTo q.oldest (if out then .branchOut q.oldest else .faulted q.oldest)) := by
  have hk := State.keepFills_fillStep (s.setCore core ((s.core core).setCopy n
    (q.dampTo q.oldest (if out then .branchOut q.oldest else .faulted q.oldest)))) s1 core p.blk
  refine ⟨_, execIterationCommit_damps hc hi he hd hran, fun a => ?_, ?_, ?_⟩
  · rw [State.keepFills_mem]
    rfl
  · exact (State.setCore_groupsSame ((s.core core).setCopy_off ..)).trans hk.groupsSame
  · rw [hk.placedAt, State.core_setCore_same, Core.setCopy_copy]

end

/-! ## Exit and damp (R44, R46) -/

theorem execLoopExit_exits {s : State} {core n : Nat} {p : Placed} {q : Copy} (hc : (s.core core).copyAt n = some (p, q))
    (he : q.exitIter.isSome = true) : execLoopExit core n s = .next (s.setCore core ((s.core core).squash n q q.exitPc)) := by
  unfold execLoopExit
  simp only [hc, he, if_true]

theorem execLoopDamp_damps {s : State} {core n : Nat} {p : Placed} {q : Copy} {why : DampWhy} (hc : (s.core core).copyAt n = some (p, q))
    (he : q.exitIter = none) (hd : q.damp = some (q.oldest, why)) :
    execLoopDamp core n why s = .next (s.setCore core ((((s.core core).count 6 1).setGroup q.slot
      { ((s.core core).group q.slot) with dampRec := some (q.head, q.oldest, why) }).squash n q q.head)) := by
  unfold execLoopDamp
  simp only [hc, he, hd, Option.isNone_none, and_self, if_true]

/-- An exit: the copy leaves for the exit PC (R44). -/
theorem execLoopExit_outcome {s : State} {core n : Nat} {p : Placed} {q : Copy} (hc : (s.core core).copyAt n = some (p, q))
    (he : q.exitIter.isSome = true) :
    ∃ t, execLoopExit core n s = .next t ∧ MemorySame s t ∧ GroupsSame s t ∧ ((t.core core).placedAt n).copy = some (q.squash q.exitPc) := by
  refine ⟨_, execLoopExit_exits hc he, fun _ => rfl, State.setCore_groupsSame (Core.squash_off ..), ?_⟩
  rw [State.core_setCore_same, Core.squash_copy]

/-- A damp: the copy leaves for H, and of its group the damp record alone changes (R46). -/
theorem execLoopDamp_outcome {s : State} {core n : Nat} {p : Placed} {q : Copy} {why : DampWhy} (hc : (s.core core).copyAt n = some (p, q))
    (he : q.exitIter = none) (hd : q.damp = some (q.oldest, why)) :
    ∃ t, execLoopDamp core n why s = .next t ∧ MemorySame s t ∧ GroupsBut s t core q.slot ∧
      t.group core q.slot = { ((s.core core).group q.slot) with dampRec := some (q.head, q.oldest, why) } ∧
      ((t.core core).placedAt n).copy = some (q.squash q.head) := by
  refine ⟨_, execLoopDamp_damps hc he hd, fun _ => rfl, State.setCore_groupsBut fun i hi => ?_, ?_, ?_⟩
  · rw [Core.off_group (Core.squash_off ..), Core.group_setGroup_ne _ _ hi, Core.off_group (Core.count_off ..)]
  · rw [State.group_setCore_same, Core.off_group (Core.squash_off ..), Core.group_setGroup_same]
  · rw [State.core_setCore_same, Core.squash_copy]

/-! ## Write-back (R44, R46) -/

theorem execLiveoutWriteback_leaves {s : State} {core n : Nat} {q : Copy} {pc : Dword} (hf : ((s.core core).placedAt n).frozen = false)
    (hc : ((s.core core).placedAt n).copy = some q) (hl : q.leaving = some pc)
    (hroom : q.damp.isSome = true → q.entryMask &&& q.exited ≠ 0 → ((s.core core).group q.slot).stack.length < 16) :
    execLiveoutWriteback core n s = .next (s.setCore core
      (((s.core core).setGroup q.slot (((s.core core).group q.slot).leaves q pc)).dropPlaced n)) := by
  have hfull : (q.damp.isSome && (q.entryMask &&& q.exited) != 0 && decide (16 ≤ ((s.core core).group q.slot).stack.length)) = false := by
    by_cases hd : q.damp.isSome = true ∧ q.entryMask &&& q.exited ≠ 0
    · rw [decide_eq_false (Nat.not_le.mpr (hroom hd.1 hd.2)), Bool.and_false]
    · have hb : (q.damp.isSome && (q.entryMask &&& q.exited) != 0) = false := by
        rw [Bool.eq_false_iff, Ne, Bool.and_eq_true, bne_iff_ne]
        exact hd
      rw [hb, Bool.false_and]
  unfold execLiveoutWriteback
  simp only [hf, hc, hl, hfull, Bool.false_eq_true, if_false]

/-- A write-back: the copy is freed, and its group leaves it (R40, R44, R46). -/
theorem execLiveoutWriteback_outcome {s : State} {core n : Nat} {q : Copy} {pc : Dword} (hf : ((s.core core).placedAt n).frozen = false)
    (hc : ((s.core core).placedAt n).copy = some q) (hl : q.leaving = some pc)
    (hroom : q.damp.isSome = true → q.entryMask &&& q.exited ≠ 0 → ((s.core core).group q.slot).stack.length < 16) :
    ∃ t, execLiveoutWriteback core n s = .next t ∧ MemorySame s t ∧ GroupsBut s t core q.slot ∧ (t.core core).placedAt n = {} ∧
      t.group core q.slot = ((s.core core).group q.slot).leaves q pc := by
  refine ⟨_, execLiveoutWriteback_leaves hf hc hl hroom, fun _ => rfl, State.setCore_groupsBut fun i hi => ?_, ?_, ?_⟩
  · rw [Core.off_group (Core.dropPlaced_off ..), Core.group_setGroup_ne _ _ hi]
  · rw [State.core_setCore_same, Core.dropPlaced_placedAt]
  · rw [State.group_setCore_same, Core.off_group (Core.dropPlaced_off ..), Core.group_setGroup_same]

/-! ## The obligation -/

/-- Settles O40: each clause is the law of its event above. -/
theorem capturedLoops : Obligations.CapturedLoops := by
  intro s core n slot c g b held
  refine ⟨?_, ?_, ?_, ?_⟩
  · intro r rest hq b k o
    refine ⟨fun ho => execPlacerComplete_noObject hq ho, fun q ho hh => ?_⟩
    obtain ⟨t, ht, hmem, hgroups, hrest, hcache⟩ := execPlacerComplete_outcome hq ho hh
    exact ⟨t, ht, hmem, hgroups, hrest, hcache, State.placerResult_ineligible k, fun _ hi => State.placerResult_some hi⟩
  · intro oi o ws l e i x0 y0 k hst hcand hhalt hpre hpc hcopies hdev hheld hlim hobj hbody hbrk hcache himg hfit horig
    exact execHandOver_outcome ⟨hst, hcand, hhalt, hpre, hpc, hcopies, hdev, hheld, hlim, ⟨oi, hobj⟩, hbody, hbrk, ⟨e, hcache, himg⟩, hfit, horig⟩
  · intro p q hc
    refine ⟨execIterationAdmit_outcome hc, fun hi he hd => ⟨fun s1 exits tr hran => ?_, fun out s1 hran => ?_⟩, execLoopExit_outcome hc,
      fun why => execLoopDamp_outcome hc⟩
    · exact execIterationCommit_commit_outcome hc hi he hd hran
    · exact execIterationCommit_damp_outcome hc hi he hd hran
  · intro q pc hf hc hl g out hroom
    obtain ⟨t, ht, hmem, hgroups, hfree, hleft⟩ := execLiveoutWriteback_outcome hf hc hl hroom
    refine ⟨t, ht, hmem, hgroups, hfree, ?_⟩
    rw [hleft, Group.leaves_eq _ q pc hroom]
    exact ⟨rfl, rfl, rfl, rfl, rfl, rfl, rfl, rfl, fun r l hl hr => Group.vw_setRegs g q.outs q.committed hl hr,
      fun r l hl hr => Group.pred_setRegs g q.outs q.committed hl hr⟩

end Sys2Proof.Machine
end

section
/-!
SUPPORT. Encoding and decoding: the operand codes, the fields of each format, and the round trip (R50 to R65).
-/

namespace Sys2Proof

open Machine

/-! ## Operand codes (R53, R58) -/

/-- A code is the base of its range plus a number, and the width of the number keeps it within the range. -/
theorem handleOfCode_handleCode (h : Handle) : handleOfCode (handleCode h) = some h := by
  cases h with
  | bar n | ob n | cv n | acc n | tg n | win n | gb n =>
    have hn := n.isLt
    simp only [handleCode, handleOfCode, BitVec.lt_def, BitVec.ofNat_eq_ofNat, BitVec.toNat_add, BitVec.toNat_setWidth, BitVec.toNat_ofNat]
    simp (disch := omega) only [if_neg, if_pos]
    simp [BitVec.setWidth_add]

theorem extractLsb'_class (c : BitVec 2) (i : BitVec 8) : (c ++ i : BitVec 10).extractLsb' 8 2 = c := BitVec.extractLsb'_append_eq_left

theorem setWidth_index (c : BitVec 2) (i : BitVec 8) : (c ++ i : BitVec 10).setWidth 8 = i := by
  rw [BitVec.setWidth_append, dif_pos (by decide), BitVec.setWidth_eq]

theorem opndOfCode_opndCode (o : Opnd) : opndOfCode (opndCode o) = some o := by
  cases o with
  | v n | xl n => simp only [opndOfCode, opndCode, extractLsb'_class, setWidth_index]; rfl
  | hnd h => simp only [opndOfCode, opndCode, extractLsb'_class, setWidth_index, handleOfCode_handleCode]; rfl
  | y hi => cases hi <;> rfl
  | discard => rfl
  | w n | p n | k n | const n =>
    have hn := n.isLt
    simp only [opndOfCode, opndCode, extractLsb'_class, setWidth_index, BitVec.toNat_ofNat, Nat.reducePow, Nat.reduceMod]
    simp only [BitVec.lt_def, BitVec.ofNat_eq_ofNat, ← BitVec.toNat_inj, BitVec.toNat_add, BitVec.toNat_setWidth, BitVec.toNat_ofNat]
    simp (disch := omega) only [if_neg, if_pos]
    simp [BitVec.setWidth_add]

/-! ## What every front-end word has (R51, R52) -/

/-- OP, G and the two upper operand fields over the low half, which each format divides as it needs. -/
def frontWord (op : BitVec 8) (g : Guard) (d a : Opnd) (low : BitVec 32) : BitVec 64 := encHead op g ++ opndCode d ++ opndCode a ++ low

section
variable (op : BitVec 8) (g : Guard) (d a : Opnd) (low : BitVec 32)

@[simp] theorem opOf_frontWord : opOf (frontWord op g d a low) = op.toNat := by
  unfold opOf frontWord encHead
  iterate 3 rw [BitVec.extractLsb'_append_eq_of_le (by decide)]
  rw [BitVec.extractLsb'_append_eq_left]

@[simp] theorem guardOf_frontWord : guardOf (frontWord op g d a low) = g := by
  unfold guardOf frontWord encHead
  congr 1
  · iterate 3 rw [BitVec.getLsbD_append, if_neg (by decide)]
    rw [BitVec.getLsbD_append, if_pos (by decide), BitVec.getLsbD_append, if_neg (by decide)]
    exact BitVec.getLsbD_ofBool g.neg 0
  · iterate 3 rw [BitVec.extractLsb'_append_eq_of_le (by decide)]
    rw [BitVec.extractLsb'_append_eq_of_add_le (by decide), BitVec.extractLsb'_append_eq_right]

theorem extractLsb'_frontWord {lo n : Nat} (h : lo + n ≤ 32) : (frontWord op g d a low).extractLsb' lo n = low.extractLsb' lo n :=
  BitVec.extractLsb'_append_eq_of_add_le h

theorem fieldAt_frontWord {lo : Nat} (h : lo + 10 ≤ 32) : fieldAt (frontWord op g d a low) lo = opndOfCode (low.extractLsb' lo 10) := by
  rw [fieldAt, extractLsb'_frontWord op g d a low h]

@[simp] theorem fieldAt_frontWord_d : fieldAt (frontWord op g d a low) 42 = some d := by
  rw [fieldAt, frontWord, BitVec.extractLsb'_append_eq_of_le (by decide), BitVec.extractLsb'_append_eq_of_le (by decide),
    BitVec.extractLsb'_append_eq_right, opndOfCode_opndCode]

@[simp] theorem fieldAt_frontWord_a : fieldAt (frontWord op g d a low) 32 = some a := by
  rw [fieldAt, frontWord, BitVec.extractLsb'_append_eq_of_le (by decide), BitVec.extractLsb'_append_eq_right, opndOfCode_opndCode]

end

/-! ## The low half of each format (R52) -/

theorem toNat_append_append {u v w : Nat} (x : BitVec u) (y : BitVec v) (z : BitVec w) : (x ++ y ++ z).toNat = (x ++ (y ++ z)).toNat := by
  rw [BitVec.append_assoc, BitVec.toNat_cast]

theorem toNat_append_append_append {t u v w : Nat} (h : BitVec t) (x : BitVec u) (y : BitVec v) (z : BitVec w) :
    (h ++ x ++ y ++ z).toNat = (h ++ (x ++ y ++ z)).toNat := by
  simp only [BitVec.toNat_append, Nat.shiftLeft_or_distrib, ← Nat.shiftLeft_add, Nat.or_assoc, Nat.add_comm, Nat.add_left_comm]

section
variable (op : BitVec 8)

theorem encR_eq (x : FmtR) : encR op x = frontWord op x.g x.d x.a (opndCode x.b ++ x.c ++ x.m) :=
  BitVec.eq_of_toNat_eq (toNat_append_append_append ..)
theorem encR3_eq (x : FmtR3) : encR3 op x = frontWord op x.g x.d x.a (opndCode x.b ++ opndCode x.c ++ x.m) :=
  BitVec.eq_of_toNat_eq (toNat_append_append_append ..)
theorem encI_eq (x : FmtI) : encI op x = frontWord op x.g x.d x.a x.imm := rfl
theorem encM_eq (x : FmtM) : encM op x = frontWord op x.g x.d x.a (x.ofs ++ x.mm) := BitVec.eq_of_toNat_eq (toNat_append_append ..)
theorem encB_eq (x : FmtB) : encB op x = frontWord op x.g x.lnk x.a x.ofs := rfl
theorem encS_eq (x : FmtS) : encS op x = frontWord op x.g x.d x.a (x.srn ++ x.sub ++ x.m) :=
  BitVec.eq_of_toNat_eq (toNat_append_append_append ..)

@[simp] theorem opOf_encR (x : FmtR) : opOf (encR op x) = op.toNat := by rw [encR_eq, opOf_frontWord]
@[simp] theorem opOf_encR3 (x : FmtR3) : opOf (encR3 op x) = op.toNat := by rw [encR3_eq, opOf_frontWord]
@[simp] theorem opOf_encI (x : FmtI) : opOf (encI op x) = op.toNat := by rw [encI_eq, opOf_frontWord]
@[simp] theorem opOf_encM (x : FmtM) : opOf (encM op x) = op.toNat := by rw [encM_eq, opOf_frontWord]
@[simp] theorem opOf_encB (x : FmtB) : opOf (encB op x) = op.toNat := by rw [encB_eq, opOf_frontWord]
@[simp] theorem opOf_encS (x : FmtS) : opOf (encS op x) = op.toNat := by rw [encS_eq, opOf_frontWord]

@[simp] theorem extractLsb'_low_b (b c : BitVec 10) (m : BitVec 12) : (b ++ c ++ m : BitVec 32).extractLsb' 22 10 = b := by
  rw [BitVec.extractLsb'_append_eq_of_le (by decide), BitVec.extractLsb'_append_eq_left]
@[simp] theorem extractLsb'_low_c (b c : BitVec 10) (m : BitVec 12) : (b ++ c ++ m : BitVec 32).extractLsb' 12 10 = c := by
  rw [BitVec.extractLsb'_append_eq_of_le (by decide), BitVec.extractLsb'_append_eq_right]
@[simp] theorem extractLsb'_low_m (b c : BitVec 10) (m : BitVec 12) : (b ++ c ++ m : BitVec 32).extractLsb' 0 12 = m := BitVec.extractLsb'_append_eq_right

theorem decR_encR (x : FmtR) : decR (encR op x) = some x := by
  simp [decR, encR_eq, fieldAt_frontWord, opndOfCode_opndCode, extractLsb'_frontWord]

theorem decR3_encR3 (x : FmtR3) : decR3 (encR3 op x) = some x := by
  simp [decR3, encR3_eq, fieldAt_frontWord, opndOfCode_opndCode, extractLsb'_frontWord]

theorem decI_encI (x : FmtI) : decI (encI op x) = some x := by
  simp [decI, encI_eq, extractLsb'_frontWord]

theorem decM_encM (x : FmtM) : decM (encM op x) = some x := by
  have hofs : (x.ofs ++ x.mm : BitVec 32).extractLsb' 12 20 = x.ofs := BitVec.extractLsb'_append_eq_left
  have hmm : (x.ofs ++ x.mm : BitVec 32).extractLsb' 0 12 = x.mm := BitVec.extractLsb'_append_eq_right
  simp [decM, encM_eq, extractLsb'_frontWord, hofs, hmm]

theorem decB_encB (x : FmtB) : decB (encB op x) = some x := by
  simp [decB, encB_eq, extractLsb'_frontWord]

theorem decS_encS (x : FmtS) : decS (encS op x) = some x := by
  have hsrn : (x.srn ++ x.sub ++ x.m : BitVec 32).extractLsb' 20 12 = x.srn := by
    rw [BitVec.extractLsb'_append_eq_of_le (by decide), BitVec.extractLsb'_append_eq_left]
  have hsub : (x.srn ++ x.sub ++ x.m : BitVec 32).extractLsb' 12 8 = x.sub := by
    rw [BitVec.extractLsb'_append_eq_of_le (by decide), BitVec.extractLsb'_append_eq_right]
  have hm : (x.srn ++ x.sub ++ x.m : BitVec 32).extractLsb' 0 12 = x.m := BitVec.extractLsb'_append_eq_right
  simp [decS, encS_eq, extractLsb'_frontWord, hsrn, hsub, hm]

/-! ## The mode in M of the opcodes that have several forms (R61, R433) -/

theorem m_encR (x : FmtR) : (encR op x).extractLsb' 0 12 = x.m := BitVec.extractLsb'_append_eq_right

theorem getLsbD_zero_encR (x : FmtR) : (encR op x).getLsbD 0 = x.m.getLsbD 0 := by
  rw [encR, BitVec.getLsbD_append, if_pos (by decide)]

theorem getLsbD_zero_encR3 (x : FmtR3) : (encR3 op x).getLsbD 0 = x.m.getLsbD 0 := by
  rw [encR3, BitVec.getLsbD_append, if_pos (by decide)]

end

theorem mdrainS_mode {x : FmtR} (hl : legal (.mdrainS x) = true) : x.m.getLsbD 0 = false := by
  simp only [legal, form, only, Bool.and_eq_true, beq_iff_eq] at hl
  obtain ⟨⟨-, h⟩, -⟩ := hl
  have hbit : (x.m &&& ~~~0x006).getLsbD 0 = false := by
    rw [h]
    rfl
  simpa using hbit

theorem mdrainC_mode {x : FmtR} (hl : legal (.mdrainC x) = true) : x.m.getLsbD 0 = true := by
  simp only [legal, form, Bool.and_eq_true, beq_iff_eq] at hl
  obtain ⟨⟨-, h⟩, -⟩ := hl
  have hbit : x.m.extractLsb' 0 1 = 1#1 := BitVec.eq_of_toNat_eq h
  rw [BitVec.getLsbD_eq_extractLsb', hbit]
  rfl

/-! ## The opcode map (R61) -/

/-- An instruction comes back where the opcode's arm reads its format and the format's fields come back. -/
theorem decodeFields_of_arm {α : Type} {dec : BitVec 64 → Option α} {mk : α → Instr} {w : BitVec 64} {x : α} (hx : dec w = some x)
    (harm : decodeFields w = (dec w).map mk) : decodeFields w = some (mk x) := by
  rw [harm, hx, Option.map_some]

/-- The arms are told apart by OP, and by M where an opcode has several forms; legality fixes M there. -/
theorem decodeFields_encode {i : Instr} {w : BitVec 64} (hl : legal i = true) (he : encode i = .front w) : decodeFields w = some i := by
  cases i with
  | bra x | call x | rcv x =>
    cases he
    exact decodeFields_of_arm (decB_encB _ x) (by unfold decodeFields; rewrite [opOf_encB]; rfl)
  | loophint x | trap x | bkpt x | movi x | movk x =>
    cases he
    exact decodeFields_of_arm (decI_encI _ x) (by unfold decodeFields; rewrite [opOf_encI]; rfl)
  | calll x | ld x | st x | ldv x | stv x | ldk x | ldnf x | stz x | fence x | pref x | cctl x | lds x | sts x | ldsv x | stsv x | ldl x
  | stl x =>
    cases he
    exact decodeFields_of_arm (decM_encM _ x) (by unfold decodeFields; rewrite [opOf_encM]; rfl)
  | rdsr x | wrsr x =>
    cases he
    exact decodeFields_of_arm (decS_encS _ x) (by unfold decodeFields; rewrite [opOf_encS]; rfl)
  | imad x | imad64 x | isad x | iaddc x | fshl x | fshr x | bfi x | prmt x | isel x | pset x | ffma x | fsel x | hfma2 x | bfma2 x
  | ffmah x | ffmab x | dfma x | atcas x | atcas128 x | atscas x | cpy32 x | cpyb x | cpyfill x | cpyp x | gathbm x | tfetch x | mma x
  | mmas x =>
    cases he
    exact decodeFields_of_arm (decR3_encR3 _ x) (by unfold decodeFields; rewrite [opOf_encR3]; rfl)
  | brx x | callx x | ret x | exit x | join x | nop x | iadd x | isub x | imul x | imulh x | iadd64 x | isub64 x | idiv x | irem x
  | imin x | imax x | iabs x | ineg x | and x | or x | xor x | andn x | not x | shl x | shr x | sar x | rot x | shl64 x | shr64 x | popc x
  | clz x | ctz x | brev x | bfx x | icmp x | iset x | mov x | lea x | lea64 x | fadd x | fsub x | fmul x | fmin x | fmax x | fcmp x
  | fset x | fclass x | frnd x | frcp x | frsq x | fsqrt x | fexp2 x | flog2 x | fsin x | fcos x | ftanh x | fdiv x | fldexp x | ffrexp x
  | hadd2 x | hsub2 x | hmul2 x | hmin2 x | hmax2 x | hcmp2 x | badd2 x | bsub2 x | bmul2 x | bmin2 x | bmax2 x | bcmp2 x | dadd x
  | dmul x | dcmp x | dmin x | dmax x | cvt x | cvt64 x | qcvt x | dqcvt x | pack2 x | pack4 x | pack8 x | unpk2 x | unpk4 x | unpk8 x
  | scalex x | qblk x | blkmax x | srseed x | dot2h x | dot2b x | dot4i x | dot8i x | dot4e x | dot8e x | idp2 x | amaxclr x | shfli x
  | shfla x | shflb x | shflx x | qswap x | qbcast x | vote x | matchLanes x | redux x | reduxf x | scan x | scanf x | segred x
  | segscan x | elect x | actmask x | bcast x | kset x | rank x | sortg x | compact x | expand x | atadd x | atmin x | atmax x | atand x
  | ator x | atxor x | atexch x | atinc x | atdec x | atfadd x | atfmin x | atfmax x | redadd x | redmin x | redmax x | redfadd x
  | atsadd x | atsmin x | atsmax x | wmap x | wunmap x | wflush x | winv x | pgcommit x | pgrelease x | pgquery x | pgprot x | pgpool x
  | halloc x | hfree x | hsize x | cpyst x | cpywait x | cpycnt x | gath x | scat x | mtwait x | tfrel x | obrsv x | obrel x | cvdecl x
  | accrd x | mwait x | regroup x | regroupb x | fxload x | fxrun x | fxwait x | fxparam x | fxdrop x | damp x =>
    cases he
    exact decodeFields_of_arm (decR_encR _ x) (by unfold decodeFields; rewrite [opOf_encR]; rfl)
  | gresumeReplay x | gresumeSkip x | gresumeKill x =>
    cases he
    simp only [legal, form, Bool.and_eq_true, beq_iff_eq] at hl
    obtain ⟨⟨-, hm⟩, -⟩ := hl
    exact decodeFields_of_arm (decR_encR _ x) (by unfold decodeFields; rewrite [opOf_encR, m_encR, hm]; rfl)
  | obldS x | obldR x =>
    cases he
    simp only [legal, form, Bool.and_eq_true, beq_iff_eq] at hl
    obtain ⟨⟨-, hm⟩, -⟩ := hl
    exact decodeFields_of_arm (decR3_encR3 _ x) (by unfold decodeFields; rewrite [opOf_encR3, getLsbD_zero_encR3, hm]; rfl)
  | accinitZero x | accinitLd x | barSync x | barArrive x | gbarSync x | gbarArrive x =>
    cases he
    simp only [legal, form, formBar, Bool.and_eq_true, beq_iff_eq] at hl
    obtain ⟨⟨-, hm⟩, -⟩ := hl
    exact decodeFields_of_arm (decR_encR _ x) (by unfold decodeFields; rewrite [opOf_encR, getLsbD_zero_encR, hm]; rfl)
  | mdrainS x =>
    cases he
    exact decodeFields_of_arm (decR_encR _ x) (by unfold decodeFields; rewrite [opOf_encR, getLsbD_zero_encR, mdrainS_mode hl]; rfl)
  | mdrainC x =>
    cases he
    exact decodeFields_of_arm (decR_encR _ x) (by unfold decodeFields; rewrite [opOf_encR, getLsbD_zero_encR, mdrainC_mode hl]; rfl)
  | _ => cases he

/-- Every opcode of the encoder is assigned, so no word of an instruction is the zero word or an unassigned one. -/
theorem opAssigned_of_encode {i : Instr} {w : BitVec 64} (he : encode i = .front w) : opAssigned (opOf w) = true := by
  cases i <;> cases he
  all_goals
    simp only [opOf_encR, opOf_encR3, opOf_encI, opOf_encM, opOf_encB, opOf_encS]
    rfl

theorem decodeWord_encode {i : Instr} {w : BitVec 64} (hl : legal i = true) (he : encode i = .front w) : decodeWord w = .ok i := by
  have ha := opAssigned_of_encode he
  have h0 : w ≠ 0 := by
    rintro rfl
    exact absurd ha (by decide)
  rw [decodeWord, if_neg h0, ha, decodeFields_encode hl he]
  exact if_pos hl

/-! ## Element words (R63 to R65) -/

theorem extractLsb'_opcode_encE (op : BitVec 6) (x : ElemWord) : (encE op x).extractLsb' 26 6 = op := by
  unfold encE
  iterate 5 rw [BitVec.extractLsb'_append_eq_of_le (by decide)]
  rw [BitVec.extractLsb'_append_eq_left]

theorem elemFields_encE (op : BitVec 6) (x : ElemWord) : elemFields (encE op x) = x := by
  unfold elemFields encE
  congr 1
  · iterate 5 rw [BitVec.extractLsb'_append_eq_of_le (by decide)]
    rw [BitVec.extractLsb'_append_eq_right]
  · iterate 4 rw [BitVec.extractLsb'_append_eq_of_le (by decide)]
    rw [BitVec.extractLsb'_append_eq_right]
  · iterate 3 rw [BitVec.extractLsb'_append_eq_of_le (by decide)]
    rw [BitVec.extractLsb'_append_eq_right]
  · iterate 2 rw [BitVec.extractLsb'_append_eq_of_le (by decide)]
    rw [BitVec.extractLsb'_append_eq_right]
  · rw [BitVec.extractLsb'_append_eq_of_le (by decide), BitVec.extractLsb'_append_eq_right]
  · rw [BitVec.extractLsb'_append_eq_right]

theorem decodeElem_encode {i : Instr} {w : BitVec 32} (he : encode i = .elem w) : decodeElem w = some i := by
  cases i <;> cases he
  all_goals
    unfold decodeElem
    rewrite [extractLsb'_opcode_encE, elemFields_encE]
    rfl

/-! ## The obligations -/

/-- Settles O59: a front-end word by its format's fields, an element word by its own; an event has no word. -/
theorem decodeEncode : Obligations.DecodeEncode := by
  intro i hw hn
  cases he : encode i with
  | front w => exact decodeWord_encode hw he
  | elem w => rw [decode, decodeElem_encode he]
  | noWord => exact absurd he hn

/-- Settles O58, by running the decoder on each word. -/
theorem decodedWords : Obligations.DecodedWords := ⟨rfl, rfl, rfl, rfl, rfl⟩

end Sys2Proof
end

section
/-!
SUPPORT. The checks of a front-end word at issue (R60): every word stands behind them, and a word that is no instruction faults too.
-/

namespace Sys2Proof.Machine

/-! ## What the checks do -/

section
variable {i : Instr} {x : Guard} {s : State} {w : Dword} {eff : Fe → Host.Outcome State Fault Refusal}

/-- Check 1 of R60 as the block and the service state hold it: legal fields, v registers below `.regs`, a form that the service state has. -/
def State.passesFirst (s : State) (i : Instr) : Bool := legal i && !(form i).uses.any (aboveRegs s.curBlock.kd.regs) && !s.refuses i

/-- The front end tests check 1 by the negations of its parts. -/
theorem State.not_passesFirst (s : State) (i : Instr) :
    (!legal i || (form i).uses.any (aboveRegs s.curBlock.kd.regs) || s.refuses i) = !s.passesFirst i := by
  rw [State.passesFirst, Bool.not_and, Bool.not_and, Bool.not_not, Bool.not_not]

/-- The meaning of every front-end word is an effect behind the checks of R60. -/
theorem exec_eq_frontEnd (he : encode i = .front w) (s : State) : ∃ x eff, exec i s = frontEnd i x s eff := by
  unfold exec
  cases i <;> cases he <;> exact ⟨_, _, rfl⟩

theorem frontEnd_illegal (h : s.passesFirst i = false) : frontEnd i x s eff = .next (s.raise s.curCore s.curSlot { cause := 1 }) :=
  if_pos ((s.not_passesFirst i).trans (by rw [h, Bool.not_false]))

theorem frontEnd_invalidY {n : Nat} (h : s.passesFirst i = true) (hy : yFault s.cur (form i).uses = some n) :
    frontEnd i x s eff = .next (s.raise s.curCore s.curSlot { cause := 2, sub := n }) := by
  have hc := (s.not_passesFirst i).trans (by rw [h, Bool.not_true])
  have hy' : yFault (s.fe x).g (form i).uses = some n := hy
  exact (if_neg (Bool.eq_false_iff.mp hc)).trans (by rw [hy']; rfl)

theorem execUnassignedOp_faults {e : DecodeError} (hd : decodeWord w = .error e) (hf : s.fetchFor s.curCore s.curSlot = .word w)
    (hr : s.cur.st = .running) : execUnassignedOp w s = .next (s.raise s.curCore s.curSlot { cause := 1 }) := by
  have hf' : s.fetchFor (s.fe ⟨false, 7⟩).core (s.fe ⟨false, 7⟩).slot = .word w := hf
  rw [execUnassignedOp, hd, hf']
  exact if_pos ⟨rfl, hr⟩

end

/-! ## The obligation -/

/-- Settles O53: the two checks of the front end in order, and the word that does not decode. -/
theorem frontEndChecks : Obligations.FrontEndChecks := by
  intro s i w ok
  refine ⟨fun he hok => ?_, fun n he hok hy => ?_, fun e hd hf hr => execUnassignedOp_faults hd hf hr⟩
  · obtain ⟨x, eff, hexec⟩ := exec_eq_frontEnd he s
    rw [hexec, frontEnd_illegal hok]
  · obtain ⟨x, eff, hexec⟩ := exec_eq_frontEnd he s
    rw [hexec, frontEnd_invalidY hok hy]

end Sys2Proof.Machine
end

section
/-!
SUPPORT. Control transfers over a reconvergence stack that holds more than 16 entries (R79 to R82).
-/

namespace Sys2Proof.Machine

/-- BRX by the pair k2 in every lane. -/
def brxByK2 : FmtR := ⟨⟨false, 7⟩, .v 0, .k 2, .v 0, 0, 0⟩

/-- A group of one lane with its target in k2, above 17 entries of the stack. -/
def deepGroup : Group :=
  { st := .running
    pc := 0x40000
    m := 1
    k := [(2, 0x40080)]
    stack := List.replicate 17 { rcv := false, pc := 0x40100, mask := 0 } }

/-- The state in which that group issues. -/
def deepState : State := { State.reset with cores := [(0, { groups := [(0, deepGroup)] })] }

/-- The target is a multiple of 8 and the lane's own, so that BRX pushes nothing: it does not test the depth of the stack. -/
theorem execBrx_deepState :
    exec (.brx brxByK2) deepState = .next (deepState.setGroup 0 0 { deepGroup with pc := 0x40080 }) := by rfl

/-- Refutes O20: with 17 entries on the stack, a BRX of the whole group to one target meets the clause of the full stack, which counts the entries
that stand there, and goes on, since it pushes none (R81). No push of R80 to R83 and R87 makes such a stack: each tests for a free entry. -/
theorem not_controlTransfers : ¬ Obligations.ControlTransfers := by
  intro h
  obtain ⟨-, -, -, -, hfull, -⟩ := h ⟨brxByK2.g, .v 0, .v 0, 0⟩ brxByK2 ⟨brxByK2.g, .v 0, .v 0, 0, 0⟩ deepState
  have hraise := hfull (.brx brxByK2) (List.mem_cons_self ..) (by decide) (by decide) (by decide)
    (fun ⟨_, _, hroom⟩ => absurd hroom (by decide))
  have heq := Host.Outcome.next.inj (execBrx_deepState.symm.trans hraise)
  have hst : (deepState.setGroup 0 0 { deepGroup with pc := 0x40080 }).cur.st ≠ (deepState.raise 0 0 { cause := 7 }).cur.st := by decide
  exact hst (congrArg (fun t : State => t.cur.st) heq)

end Sys2Proof.Machine
end

section
/-!
SUPPORT. What the completion of barrier phases leaves of the groups: one that waits may depart, and nothing else of any group changes (R415, R418).
-/

namespace Sys2Proof.Machine

/-! ## Departures -/

/-- A group is as before, or it waited and has departed. -/
def Group.DepartsTo (g h : Group) : Prop := h = g ∨ g.st ≠ .running ∧ h = g.depart

theorem Group.DepartsTo.trans {g h k : Group} (hgh : g.DepartsTo h) (hhk : h.DepartsTo k) : g.DepartsTo k := by
  rcases hgh with rfl | ⟨hg, rfl⟩
  · exact hhk
  · rcases hhk with rfl | ⟨hrun, -⟩
    · exact .inr ⟨hg, rfl⟩
    · exact absurd rfl hrun

theorem Group.DepartsTo.running {g h : Group} (hd : g.DepartsTo h) (hr : g.st = .running) : h = g :=
  hd.resolve_right fun ⟨hn, _⟩ => hn hr

/-- A departure changes the state of the group and its PC alone. -/
theorem Group.DepartsTo.frame {g h : Group} (hd : g.DepartsTo h) :
    h = { g with
      st := h.st
      pc := h.pc } := by
  rcases hd with rfl | ⟨-, rfl⟩ <;> rfl

/-- Of the groups of a core some may depart, and nothing else of them changes. -/
structure Core.DepartsTo (c d : Core) : Prop where
  group : ∀ i, (c.group i).DepartsTo (d.group i)

theorem Core.DepartsTo.of_groups {c d : Core} (h : d.groups = c.groups) : c.DepartsTo d := by
  refine ⟨fun i => .inl ?_⟩
  unfold Core.group
  rw [h]

theorem Core.DepartsTo.trans {c d e : Core} (h : c.DepartsTo d) (k : d.DepartsTo e) : c.DepartsTo e :=
  ⟨fun i => (h.group i).trans (k.group i)⟩

theorem Core.DepartsTo.foldl {α : Type} {f : Core → α → Core} (hf : ∀ (c : Core) a, c.DepartsTo (f c a)) (l : List α) (c : Core) :
    c.DepartsTo (l.foldl f c) := by
  induction l generalizing c with
  | nil => exact .of_groups rfl
  | cons a r ih => exact (hf c a).trans (ih _)

/-- Of the groups of the state some may depart; nothing else of them, no byte of memory and no cursor changes. -/
structure Departures (s t : State) : Prop where
  mem : t.mem = s.mem
  curCore : t.curCore = s.curCore
  curSlot : t.curSlot = s.curSlot
  groups : ∀ k, (s.core k).DepartsTo (t.core k)

theorem Departures.of_cores {s t : State} (hm : t.mem = s.mem) (hk : t.curCore = s.curCore) (hi : t.curSlot = s.curSlot)
    (hc : t.cores = s.cores) : Departures s t := by
  refine ⟨hm, hk, hi, fun k => ?_⟩
  unfold State.core
  rw [hc]
  exact .of_groups rfl

theorem Departures.refl (s : State) : Departures s s := .of_cores rfl rfl rfl rfl

theorem Departures.trans {s t u : State} (h : Departures s t) (k : Departures t u) : Departures s u :=
  ⟨k.mem.trans h.mem, k.curCore.trans h.curCore, k.curSlot.trans h.curSlot, fun i => (h.groups i).trans (k.groups i)⟩

theorem Departures.foldl {α : Type} {f : State → α → State} (hf : ∀ s a, Departures s (f s a)) (l : List α) (s : State) :
    Departures s (l.foldl f s) := by
  induction l generalizing s with
  | nil => exact .refl s
  | cons a r ih => exact (hf s a).trans (ih _)

theorem Departures.setCore {s : State} {k : Nat} {c : Core} (h : (s.core k).DepartsTo c) : Departures s (s.setCore k c) := by
  refine ⟨rfl, rfl, rfl, fun j => ?_⟩
  rw [State.setCore_core]
  split
  · subst_vars; exact h
  · exact .of_groups rfl

theorem Departures.setBlock (s : State) (k i : Nat) (b : Block) : Departures s (s.setBlock k i b) := .setCore (.of_groups rfl)

/-- The issuing group, as its slot and the departures leave it. -/
theorem Departures.cur {s t : State} (h : Departures s t) : s.cur.DepartsTo t.cur := by
  have hd := (h.groups s.curCore).group s.curSlot
  unfold State.cur State.group
  rw [h.curCore, h.curSlot]
  exact hd

/-! ## Named barriers (R415) -/

theorem Core.departAll_departs (c : Core) (slots : List Nat) (why : WaitWhy) : c.DepartsTo (c.departAll slots why) := by
  unfold Core.departAll
  refine .foldl (fun c i => ?_) slots c
  split
  · rename_i hw
    refine ⟨fun j => ?_⟩
    by_cases hj : i = j
    · subst hj
      rw [Core.group_setGroup_same]
      exact .inr ⟨by rw [hw]; exact GState.noConfusion, rfl⟩
    · rw [Core.group_setGroup_ne _ _ hj]
      exact .inl rfl
  · exact .of_groups rfl

theorem Core.barComplete_departs (c : Core) (r : BarRec) : c.DepartsTo (c.barComplete r) :=
  (Core.DepartsTo.of_groups (c := c) (Core.setBlock_groups ..)).trans ((Core.departAll_departs ..).trans (.of_groups rfl))

theorem State.learn_departures (s : State) (core : Nat) (readers writers : List Nat) : Departures s (s.learn core readers writers) :=
  .of_cores rfl rfl rfl rfl

theorem State.meetBars_departures (s : State) (core blk : Nat) : Departures s (s.meetBars core blk) :=
  .foldl (fun _ _ => State.learn_departures ..) _ s

theorem State.checkBars_departures (s : State) (core blk : Nat) : Departures s (s.checkBars core blk) :=
  (s.meetBars_departures core blk).trans (.setCore (.foldl Core.barComplete_departs _ _))

/-! ## Gang barriers (R418, R419) -/

theorem Core.gbarDepart_departs (c : Core) (blk name : Nat) : c.DepartsTo (c.gbarDepart blk name) :=
  (Core.DepartsTo.of_groups (c := c) (Core.setBlock_groups ..)).trans (Core.departAll_departs ..)

theorem State.gangSetFree_departures (s : State) (core blk name : Nat) : Departures s (s.gangSetFree core blk name) := .setBlock ..

theorem State.gangBind_departures (s : State) (core blk name : Nat) : Departures s (s.gangBind core blk name) := by
  have hfree : ∀ l, Departures s { (s.gangSetFree core blk name) with gangs := l } := fun _ =>
    (s.gangSetFree_departures core blk name).trans (.of_cores rfl rfl rfl rfl)
  unfold State.gangBind
  extract_lets b s1 d l mine
  split
  · exact (s.gangSetFree_departures core blk name).trans (.setCore (Core.gbarDepart_departs ..))
  · split <;> split
    · exact .refl s
    · exact hfree _
    · exact .refl s
    · exact hfree _

theorem State.gangComplete_departures (s : State) (d : Nat) (r : GangRec) : Departures s (s.gangComplete d r) := by
  unfold State.gangComplete
  extract_lets ms s1
  split
  · exact (Departures.foldl (fun s _ => .setCore (Core.gbarDepart_departs ..)) ms s).trans (.of_cores rfl rfl rfl rfl)
  · exact .refl s

theorem State.gangSettle_departures (s : State) (d n : Nat) : Departures s (s.gangSettle d n) := by
  induction n generalizing s with
  | zero => exact .refl s
  | succ n ih =>
    exact ((Departures.foldl (fun s _ => s.gangBind_departures ..) _ s).trans
      (.foldl (fun s r => s.gangComplete_departures d r) _ _)).trans (ih _)

theorem State.gangCheck_departures (s : State) (core blk : Nat) : Departures s (s.gangCheck core blk) :=
  (Departures.setBlock ..).trans (State.gangSettle_departures ..)

end Sys2Proof.Machine
end

section
/-!
SUPPORT. Reconvergence, exit and traps, word by word (R83 to R89).
-/

namespace Sys2Proof.Machine

/-! ## Masks and the stack -/

/-- A guard leaves no lane of the active mask out exactly where ACT is the active mask (R51). -/
theorem Group.skip_eq_zero (g : Group) (x : Guard) : g.m &&& ~~~(g.act x) = 0 ↔ g.act x = g.m := by
  have key (m q : Mask) : m &&& ~~~(m &&& q) = 0 ↔ m &&& q = m := by
    refine ⟨fun h => ?_, fun h => by rw [h, BitVec.and_not_self]⟩
    have hm := and_not_of_and_eq_zero h
    rwa [BitVec.not_not, ← BitVec.and_assoc, BitVec.and_self] at hm
  unfold Group.act
  split <;> exact key ..

theorem Group.free_eq_zero (g : Group) : g.free = 0 ↔ 16 ≤ g.stack.length := Nat.sub_eq_zero_iff_le

theorem Group.push_eq (g : Group) (rcv : Bool) (pc : Dword) (m : Mask) :
    g.push rcv pc m = { g with stack := if m = 0 then g.stack else { rcv, pc, mask := m } :: g.stack } := by
  unfold Group.push
  split <;> rfl

/-- UNWIND gives the mask of an entry, and leaves entries of the stack alone (R85). -/
theorem unwind_some {l r : List StackEntry} {m : Mask} {pc : Dword} (h : unwind l = some (m, pc, r)) :
    (∃ e ∈ l, e.mask = m) ∧ ∀ e ∈ r, e ∈ l := by
  induction l with
  | nil => cases h
  | cons e l ih =>
    rw [unwind] at h
    split at h
    · obtain ⟨⟨q, hq, hm⟩, hr⟩ := ih h
      exact ⟨⟨q, List.mem_cons_of_mem _ hq, hm⟩, fun q hq => List.mem_cons_of_mem _ (hr q hq)⟩
    · cases h
      exact ⟨⟨e, List.mem_cons_self .., rfl⟩, fun q hq => List.mem_cons_of_mem _ hq⟩

/-! ## The lanes that exit (R85) -/

theorem State.group_setBlock (s : State) (core blk k i : Nat) (b : Block) : (s.setBlock core blk b).group k i = s.group k i := by
  unfold State.group State.setBlock
  rw [State.setCore_core]
  split
  · subst_vars; rfl
  · rfl

theorem State.endGroup_group_same (s : State) (core slot : Nat) (g : Group) :
    (s.endGroup core slot g).group core slot = { g with
      st := .ended
      m := 0
      stack := [] } :=
  (State.group_setBlock ..).trans (State.group_setGroup_same ..)

theorem State.endGroup_group_ne (s : State) {core slot k i : Nat} (g : Group) (h : (k, i) ≠ (core, slot)) :
    (s.endGroup core slot g).group k i = s.group k i := by
  refine (State.group_setBlock ..).trans (State.group_setGroup_ne _ _ ?_)
  by_contra hn
  obtain ⟨hk, hi⟩ := not_or.mp hn
  exact h (by rw [not_not.mp hk, not_not.mp hi])

/-- NGRP falls by one (R374). -/
theorem State.endGroup_ngrp (s : State) (core slot : Nat) (g : Group) :
    (((s.endGroup core slot g).core core).block g.blk).ngrp = ((s.core core).block g.blk).ngrp - 1 := by
  unfold State.endGroup State.setBlock
  rw [State.core_setCore_same, Core.block_setBlock_same, State.core_setGroup_same, Core.block_setGroup]

/-- A group after some of its lanes have exited: no mask of it holds them, and where lanes are left it goes on past the word (R85). -/
structure Group.Exited (g h : Group) (x : Mask) : Prop where
  exitm : h.exitm = g.exitm ||| x
  stack : ∀ e ∈ h.stack, e.mask &&& x = 0
  m : h.m &&& x = 0
  left : g.m &&& ~~~x ≠ 0 → h.m = g.m &&& ~~~x ∧ h.pc = g.pc + 8 ∧ h.st = g.st

theorem and_not_and_self {w : Nat} (m x : BitVec w) : m &&& ~~~x &&& x = 0 := by
  rw [BitVec.and_assoc, BitVec.and_comm (~~~x), BitVec.and_not_self]
  exact BitVec.and_zero

theorem State.exitLanes_exited (s : State) (core slot : Nat) (x : Mask) :
    (s.group core slot).Exited ((s.exitLanes core slot x).group core slot) x := by
  have hstack : ∀ e ∈ (s.group core slot).stack.map (fun t => { t with mask := t.mask &&& ~~~x }), e.mask &&& x = 0 := by
    intro e he
    obtain ⟨q, -, rfl⟩ := List.mem_map.mp he
    exact and_not_and_self ..
  unfold State.exitLanes
  extract_lets g g1
  split
  · rw [State.group_setGroup_same]
    split <;> exact ⟨rfl, hstack, and_not_and_self .., fun _ => ⟨rfl, rfl, rfl⟩⟩
  · rename_i hm
    split
    · rename_i m pc r hu
      obtain ⟨⟨e, he, hem⟩, hr⟩ := unwind_some hu
      rw [State.group_setGroup_same]
      exact ⟨rfl, fun q hq => hstack q (hr q hq), hem ▸ hstack e he, fun hl => absurd hl hm⟩
    · rw [State.endGroup_group_same]
      exact ⟨rfl, fun _ h => absurd h List.not_mem_nil, BitVec.zero_and, fun hl => absurd hl hm⟩

theorem State.exitLanes_rest (s : State) (core slot : Nat) (x : Mask) :
    (s.exitLanes core slot x).mem = s.mem ∧ (s.exitLanes core slot x).curCore = s.curCore ∧ (s.exitLanes core slot x).curSlot = s.curSlot := by
  unfold State.exitLanes
  extract_lets g g1
  split
  · exact ⟨rfl, rfl, rfl⟩
  · split <;> exact ⟨rfl, rfl, rfl⟩

/-- What a departure leaves of a group whose lanes have exited. -/
theorem Group.Exited.departs {g h k : Group} {x : Mask} (he : g.Exited h x) (hd : h.DepartsTo k) :
    k.exitm = g.exitm ||| x ∧ (∀ e ∈ k.stack, e.mask &&& x = 0) ∧ k.m &&& x = 0 ∧
      (g.st = .running → g.m &&& ~~~x ≠ 0 → k.m = g.m &&& ~~~x ∧ k.pc = g.pc + 8 ∧ k.st = .running) := by
  have hf : k = _ := hd.frame
  refine ⟨?_, ?_, ?_, fun hr hl => ?_⟩
  · rw [hf]; exact he.exitm
  · rw [hf]; exact he.stack
  · rw [hf]; exact he.m
  · obtain ⟨hm, hpc, hst⟩ := he.left hl
    rw [hd.running (hst.trans hr)]
    exact ⟨hm, hpc, hst.trans hr⟩

/-! ## The words, whole -/

section
variable {s : State} {x : FmtR} {xb : FmtB} {xi : FmtI}

theorem execRcv_passes (h : s.passes (.rcv xb) = true) : exec (.rcv xb) s =
    if s.cur.free = 0 then .next (s.raise s.curCore s.curSlot { cause := 7 })
    else .next (s.setGroup s.curCore s.curSlot { s.cur with
      pc := s.cur.pc + 8
      stack := { rcv := true, pc := s.cur.pc + 8 + (xb.ofs.signExtend 64 <<< 3), mask := s.cur.m } :: s.cur.stack }) := by
  show execRcv xb s = _
  exact frontEnd_passes h

theorem execJoin_passes (h : s.passes (.join x) = true) : exec (.join x) s =
    match joinStack s.cur.pc s.cur.stack with
    | .fault n => .next (s.raise s.curCore s.curSlot { cause := 7, sub := n })
    | .run m pc r => .next (s.setGroup s.curCore s.curSlot { s.cur with
        st := .waiting .join
        m := m
        pc := pc
        stack := r
        y0v := false
        y1v := false })
    | .ends => .next (s.endGroup s.curCore s.curSlot s.cur.yInvalid) := by
  show execJoin x s = _
  exact frontEnd_passes h

theorem execExit_passes (h : s.passes (.exit x) = true) : exec (.exit x) s =
    if s.actOf x.g = 0 then .next (s.setGroup s.curCore s.curSlot s.cur.next)
    else .next ((((s.setBlock s.curCore s.cur.blk (s.curBlock.exitThreads (s.cur.threadsIn (s.actOf x.g)))).exitLanes
      s.curCore s.curSlot (s.actOf x.g)).checkBars s.curCore s.cur.blk).gangCheck s.curCore s.cur.blk) := by
  show execExit x s = _
  exact frontEnd_passes h

theorem execLoophint_passes (h : s.passes (.loophint xi) = true) : exec (.loophint xi) s =
    .next (s.setGroup s.curCore s.curSlot (if s.actOf xi.g = 0 then s.cur.next else { s.cur with
      pc := s.cur.pc + 8
      hintT := xi.imm.setWidth 8
      hintValid := true
      hintHead := s.cur.pc + 8 })) := by
  rw [apply_ite (s.setGroup s.curCore s.curSlot), apply_ite Host.Outcome.next]
  show execLoophint xi s = _
  exact frontEnd_passes h

/-- TRAP tests for a free entry where a lane of the active mask does not trap (R87). -/
theorem execTrap_passes (h : s.passes (.trap xi) = true) : exec (.trap xi) s =
    if s.actOf xi.g = 0 then .next (s.setGroup s.curCore s.curSlot s.cur.next)
    else if s.cur.trapbase = 0 then .next (s.raise s.curCore s.curSlot { cause := 0xC, sub := xi.imm.toNat })
    else if s.cur.m &&& ~~~(s.actOf xi.g) ≠ 0 ∧ s.cur.free = 0 then .next (s.raise s.curCore s.curSlot { cause := 7 })
    else .next (s.setGroup s.curCore s.curSlot { (s.cur.push false (s.cur.pc + 8) (s.cur.m &&& ~~~(s.actOf xi.g))).yInvalid with
      trapN := xi.imm
      trapRet := s.cur.pc + 8
      m := s.actOf xi.g
      pc := s.cur.trapbase }) := by
  show execTrap xi s = _
  exact frontEnd_passes h

theorem execBkpt_passes (h : s.passes (.bkpt xi) = true) : exec (.bkpt xi) s =
    if (s.part s.curBlock.part).dbgctl.getLsbD 0 && s.actOf xi.g != 0 then
      .next (s.setGroup s.curCore s.curSlot { s.cur with haltReq := true })
    else .next (s.setGroup s.curCore s.curSlot s.cur.next) := by
  show execBkpt xi s = _
  exact frontEnd_passes h

theorem execNop_passes (h : s.passes (.nop x) = true) : exec (.nop x) s = .next (s.setGroup s.curCore s.curSlot s.cur.next) := by
  show execNop x s = _
  exact frontEnd_passes h

/-- A word that replaces the issuing group and nothing else. -/
theorem State.next_setCur {o : Host.Outcome State Fault Refusal} {g : Group} (h : o = .next (s.setGroup s.curCore s.curSlot g)) :
    ∃ t, o = .next t ∧ CurStep s t ∧ t.cur = g := ⟨_, h, s.curStep_setCur g, s.cur_setCur g⟩

/-- JOIN by which the last lane of the group has gone (R84). -/
theorem execJoin_ends (h : s.passes (.join x) = true) (hj : joinStack s.cur.pc s.cur.stack = .ends) :
    ∃ t, exec (.join x) s = .next t ∧ MemorySame s t ∧ OthersSame s t ∧ t.cur.st = .ended ∧ t.cur.m = 0 ∧
      t.curBlock.ngrp = s.curBlock.ngrp - 1 := by
  have hcur : (s.endGroup s.curCore s.curSlot s.cur.yInvalid).cur = _ := s.endGroup_group_same s.curCore s.curSlot s.cur.yInvalid
  refine ⟨s.endGroup s.curCore s.curSlot s.cur.yInvalid, (execJoin_passes h).trans (by rw [hj]), fun _ => rfl,
    fun c i hne => s.endGroup_group_ne _ hne, ?_, ?_, ?_⟩
  · rw [hcur]
  · rw [hcur]
  · unfold State.curBlock
    rw [hcur]
    exact s.endGroup_ngrp s.curCore s.curSlot s.cur.yInvalid

/-- EXIT of some lanes (R85). -/
theorem execExit_lanes (h : s.passes (.exit x) = true) (ha : s.actOf x.g ≠ 0) :
    ∃ t, exec (.exit x) s = .next t ∧ MemorySame s t ∧ t.cur.exitm = s.cur.exitm ||| s.actOf x.g ∧
      (∀ e ∈ t.cur.stack, e.mask &&& s.actOf x.g = 0) ∧ t.cur.m &&& s.actOf x.g = 0 ∧
      (s.cur.st = .running → s.cur.m &&& ~~~(s.actOf x.g) ≠ 0 →
        t.cur.m = s.cur.m &&& ~~~(s.actOf x.g) ∧ t.cur.pc = s.cur.pc + 8 ∧ t.cur.st = .running) := by
  refine ⟨_, (execExit_passes h).trans (if_neg ha), ?_⟩
  set s1 := s.setBlock s.curCore s.cur.blk (s.curBlock.exitThreads (s.cur.threadsIn (s.actOf x.g)))
  have h1 : s1.cur = s.cur := State.group_setBlock ..
  obtain ⟨hmem, hcore, hslot⟩ := s1.exitLanes_rest s.curCore s.curSlot (s.actOf x.g)
  have hexit : s.cur.Exited (s1.exitLanes s.curCore s.curSlot (s.actOf x.g)).cur (s.actOf x.g) := by
    have he := s1.exitLanes_exited s1.curCore s1.curSlot (s.actOf x.g)
    unfold State.cur at h1 ⊢
    rw [hcore, hslot, ← h1]
    exact he
  have hdep := (State.checkBars_departures (s1.exitLanes s.curCore s.curSlot (s.actOf x.g)) s.curCore s.cur.blk).trans
    (State.gangCheck_departures _ s.curCore s.cur.blk)
  exact ⟨fun _ => by rw [hdep.mem, hmem]; rfl, hexit.departs hdep.cur⟩

end

/-! ## The obligation -/

/-- Settles O21: each clause is a branch of its word's equation above; EXIT by the masks that its lanes leave. -/
theorem reconvergenceAndTraps : Obligations.ReconvergenceAndTraps := by
  intro xb x xi s pc act acti next left stop
  refine ⟨?_, fun h hf => ?_, fun n h hj => ?_, fun h ha ht => ?_, fun h ha ht hl hf => ?_, fun h hf => ?_, fun m q r h hj => ?_,
    execJoin_ends, fun h ha => ?_, execExit_lanes, fun h => ?_, fun h ha => ?_, fun h ha ht hroom => ?_, fun h hd => ?_, fun h hd ha => ?_,
    ?_, execNop_passes⟩
  · simp only [legal, form, resv, guardAlways, List.all_nil, Bool.and_true, Bool.and_eq_true, beq_iff_eq, Bool.not_eq_true']
    rintro ⟨⟨hl, ha⟩, hn, hp⟩
    have hg : xb.g = ⟨xb.g.neg, xb.g.pred⟩ := rfl
    exact ⟨hl, ha, by rw [hg, hn, hp]⟩
  · exact (execRcv_passes h).trans (if_pos (s.cur.free_eq_zero.mpr hf))
  · exact (execJoin_passes h).trans (by rw [hj])
  · exact (execTrap_passes h).trans ((if_neg ha).trans (if_pos ht))
  · exact (execTrap_passes h).trans ((if_neg ha).trans ((if_neg ht).trans (if_pos ⟨hl, s.cur.free_eq_zero.mpr hf⟩)))
  · exact State.next_setCur ((execRcv_passes h).trans (if_neg fun h0 => Nat.not_le.mpr hf (s.cur.free_eq_zero.mp h0)))
  · exact State.next_setCur ((execJoin_passes h).trans (by rw [hj]))
  · exact (execExit_passes h).trans (if_pos ha)
  · exact State.next_setCur (execLoophint_passes h)
  · exact (execTrap_passes h).trans (if_pos ha)
  · have hskip : s.cur.m &&& ~~~acti = 0 ↔ acti = s.cur.m := s.cur.skip_eq_zero xi.g
    have hfree : ¬ (s.cur.m &&& ~~~acti ≠ 0 ∧ s.cur.free = 0) := fun ⟨hl, hf⟩ =>
      hroom.elim (fun hm => hl (hskip.mpr hm)) (fun hr => Nat.not_le.mpr hr (s.cur.free_eq_zero.mp hf))
    refine State.next_setCur ((execTrap_passes h).trans ((if_neg ha).trans ((if_neg ht).trans ((if_neg hfree).trans ?_))))
    rw [Group.push_eq, if_congr hskip rfl rfl]
    rfl
  · refine (execBkpt_passes h).trans (if_neg ?_)
    rcases hd with hd | ha
    · rw [hd, Bool.false_and]
      exact Bool.false_ne_true
    · rw [bne_eq_false_iff_eq.mpr ha, Bool.and_false]
      exact Bool.false_ne_true
  · refine State.next_setCur ((execBkpt_passes h).trans (if_pos ?_))
    rw [hd, Bool.true_and]
    exact bne_iff_ne.mpr ha
  · simp only [legal, form, allResv, resv, List.all_nil, Bool.and_true, Bool.and_eq_true, beq_iff_eq, and_assoc]
    exact id

end Sys2Proof.Machine
end

section
/-!
SUPPORT. Integer, bit and address forms with a 32-bit result: each is one of the register forms' shapes, whose end is known (R92 to R115).
-/

namespace Sys2Proof.Machine

/-- A word that passes is legal. -/
theorem State.legal_of_passes {s : State} {i : Instr} (h : s.passes i = true) : legal i = true := by
  simp only [State.passes, Bool.and_eq_true] at h
  obtain ⟨⟨⟨hlegal, -⟩, -⟩, -⟩ := h
  exact Bool.and_eq_true_iff.mpr hlegal

/-! ## The shapes of the 32-bit forms (R94, R95) -/

section
variable {i : Instr} {s : State} {x : FmtR} {x3 : FmtR3} {xi : FmtI}

/-- A two-source form, whole. -/
theorem frontEnd_lanes2 {f : Word → Word → Word} (h : s.passes i = true) : ∃ t, frontEnd i x.g s (lanes2 x f) = .next t ∧
    Result32 s t x.g x.d (fun l => f (s.srcX x.c x.a l) (s.srcX x.c x.b l)) := frontEnd_result h

/-- A one-source form, whole. -/
theorem frontEnd_lanes1 {f : Word → Word} (h : s.passes i = true) : ∃ t, frontEnd i x.g s (lanes1 x f) = .next t ∧
    Result32 s t x.g x.d (fun l => f (s.src x.a l)) := frontEnd_result h

/-- A three-source form, whole. -/
theorem frontEnd_lanes3 {f : Word → Word → Word → Word} (h : s.passes i = true) : ∃ t, frontEnd i x3.g s (lanes3 x3 f) = .next t ∧
    Result32 s t x3.g x3.d (fun l => f (s.src x3.a l) (s.src x3.b l) (s.src x3.c l)) := frontEnd_result h

/-- ICMP, whole: the condition of A and B, combined with bit 0 of field C under COMB (R110). -/
theorem execIcmp_result (h : s.passes (.icmp x) = true) : ∃ t, execIcmp x s = .next t ∧
    Result32 s t x.g x.d (fun l => boolWord (combine (fldM x.m 5 2)
      (intCond (fldM x.m 7 3) (mS x.m) (s.srcX x.c x.a l) (s.srcX x.c x.b l))
      (fldM x.m 5 2 != 0 && (s.src (opndC x.c) l).getLsbD 0))) := frontEnd_result h

/-- MOVI, whole: the immediate in every lane (R114). -/
theorem execMovi_result (h : s.passes (.movi xi) = true) : ∃ t, execMovi xi s = .next t ∧ Result32 s t xi.g xi.d (fun _ => xi.imm) :=
  frontEnd_result (f := fun _ _ => xi.imm) h

end

/-! ## The obligation -/

/-- Settles O1: each form is a shape above with its rule's function of the sources, listed here in the statement's order. -/
theorem integerResults : Obligations.IntegerResults := by
  intro x x3 xi s a b u a3 b3 c3 two three
  refine ⟨?_, ?_, execMovi_result⟩
  · simp only [two, List.forall_mem_cons]
    exact ⟨
      -- IADD to IMAX, IABS and INEG (R98 to R101)
      frontEnd_lanes2, frontEnd_lanes2, frontEnd_lanes2, frontEnd_lanes2, frontEnd_lanes2, frontEnd_lanes2, frontEnd_lanes2, frontEnd_lanes2,
      frontEnd_lanes1, frontEnd_lanes1,
      -- AND to ANDN, NOT, the shifts and ROT, the counts and BREV (R103, R104, R107)
      frontEnd_lanes2, frontEnd_lanes2, frontEnd_lanes2, frontEnd_lanes2, frontEnd_lanes1,
      frontEnd_lanes2, frontEnd_lanes2, frontEnd_lanes2, frontEnd_lanes2,
      frontEnd_lanes1, frontEnd_lanes1, frontEnd_lanes1, frontEnd_lanes1,
      -- BFX, ICMP, ISET, MOV and LEA (R108, R110, R113, R115)
      frontEnd_lanes2, execIcmp_result, frontEnd_lanes2, frontEnd_lanes1, frontEnd_lanes2, List.forall_mem_nil _⟩
  · simp only [three, List.forall_mem_cons]
    exact ⟨frontEnd_lanes3, frontEnd_lanes3, frontEnd_lanes3, frontEnd_lanes3, frontEnd_lanes3, frontEnd_lanes3, frontEnd_lanes3,
      frontEnd_lanes3, List.forall_mem_nil _⟩

end Sys2Proof.Machine
end

section
/-!
SUPPORT. Integer forms with a 64-bit result in a register pair (R98, R99, R106, R115).
-/

namespace Sys2Proof.Machine

/-- A form with a pair as its destination, whole: its operand table says that the destination is no predicate. -/
theorem frontEnd_pair {i : Instr} {x : Guard} {d : Opnd} {f : Fe → Nat → Dword} {s : State} (hd : dst64 d ∈ (form i).uses)
    (h : s.passes i = true) : ∃ t, frontEnd i x s (fun e => e.result64 d (f e)) = .next t ∧ Result64 s t x d (f (s.fe x)) :=
  frontEnd_result64 h (dst64_notP h hd)

/-- Settles O2: each form, in the statement's order, ends with the rule's function of its sources in a pair. -/
theorem integerPairResults : Obligations.IntegerPairResults := by
  intro x x3 s a b n two
  have hd {r : List Use} : dst64 x.d ∈ dst64 x.d :: r := List.mem_cons_self ..
  refine ⟨?_, frontEnd_pair (List.mem_cons_self ..)
    (f := fun e l => mulAdd64 (mS x3.m) (e.g.rd x3.a l) (e.g.rd x3.b l) (e.g.rd64 x3.c l))⟩
  simp only [two, List.forall_mem_cons]
  exact ⟨frontEnd_pair hd (f := fun e l => addSub 64 (mS x.m) (mSat x.m) false (e.g.rd64 x.a l) (e.g.rd64 x.b l)),
    frontEnd_pair hd (f := fun e l => addSub 64 (mS x.m) (mSat x.m) true (e.g.rd64 x.a l) (e.g.rd64 x.b l)),
    frontEnd_pair hd (f := fun e l => shl64 (x.m.getLsbD 9) (e.g.rd64 x.a l) (e.g.rd x.b l)),
    frontEnd_pair hd (f := fun e l => shr64 (mS x.m) (x.m.getLsbD 9) (e.g.rd64 x.a l) (e.g.rd x.b l)),
    frontEnd_pair hd (f := fun e l =>
      e.g.rd64 x.a l + ((if mS x.m then (e.g.rd x.b l).signExtend 64 else (e.g.rd x.b l).setWidth 64) <<< fldM x.m 8 2)),
    List.forall_mem_nil _⟩

end Sys2Proof.Machine
end

section
/-!
SUPPORT. IADDC: the predicate that holds the carry is written after D (R102).
-/

namespace Sys2Proof.Machine

/-- Writing a predicate leaves the rest of the group. -/
theorem Group.setPred_frame (g : Group) (n : Nat) (act : Mask) (f : Nat → Word) : g.setPred n act f = { g with p := (g.setPred n act f).p } := by
  unfold Group.setPred
  split <;> rfl

/-- A stored register after a predicate has been written: p7 takes no write (R53). -/
theorem Group.stored_setPred (g : Group) (n : Nat) (act : Mask) (f : Nat → Word) (file r l : Nat) (hl : l < 32) :
    (g.setPred n act f).stored file r l =
      if 2 ≤ file ∧ r = n ∧ r ≠ 7 ∧ act.getLsbD l = true then boolWord ((f l).getLsbD 0) else g.stored file r l := by
  by_cases h7 : n = 7
  · rw [Group.setPred, if_pos h7, if_neg (fun ⟨_, hrn, hr7, _⟩ => hr7 (hrn.trans h7))]
  match file with
  | 0 | 1 => rw [if_neg (by omega), Group.setPred, if_neg h7]; rfl
  | k + 2 =>
    simp only [Group.setPred, if_neg h7, Group.stored, SMap.get_set]
    by_cases hr : r = n
    · subst hr
      by_cases ha : act.getLsbD l = true <;> simp [getLsbD_mergeBits _ _ _ _ hl, ha, h7]
    · simp [hr, Ne.symm hr]

theorem getLsbD_boolWord (b : Bool) : (boolWord b).getLsbD 0 = b := by cases b <;> rfl

/-- A word whose modifiers may be set in some places only has them clear in every other place. -/
theorem getLsbD_of_only {m allowed : BitVec 12} (h : only m allowed = true) {i : Nat} (hi : allowed.getLsbD i = false) : m.getLsbD i = false := by
  have hz : m &&& ~~~allowed = 0 := by simpa [only] using h
  by_cases hlt : i < 12
  · have hb : (m &&& ~~~allowed).getLsbD i = false := by rw [hz]; exact BitVec.getLsbD_zero
    rwa [BitVec.getLsbD_and, BitVec.getLsbD_not, hi, decide_eq_true hlt, Bool.not_false, Bool.and_true, Bool.and_true] at hb
  · exact BitVec.getLsbD_of_ge _ _ (Nat.le_of_not_lt hlt)

/-- A change of the issuing group that leaves what a register form leaves is the step of a register form. -/
theorem State.registerStep_setCur {s : State} {g : Group} (hg : GroupRegs s.cur g) : RegisterStep s (s.setGroup s.curCore s.curSlot g) := by
  obtain ⟨ht, hm⟩ := s.curStep_setCur g
  refine ⟨ht, hm, ?_⟩
  rw [State.cur_setCur]
  exact hg

/-- The issuing group after IADDC's two writes: D, then the predicate that M names (R102). -/
def Group.writeSum (g : Group) (x : FmtR3) (r : Nat → Word) (cp : Nat → Bool) : Group :=
  (g.write x.d (g.act x.g) r).setPred (fldM x.m 7 3) (g.act x.g) (fun l => boolWord (cp l))

theorem Group.writeSum_frame (g : Group) (x : FmtR3) (r : Nat → Word) (cp : Nat → Bool) : g.writeSum x r cp = { g with
    v := (g.writeSum x r cp).v
    w := (g.writeSum x r cp).w
    p := (g.writeSum x r cp).p } := by
  unfold Group.writeSum
  rw [Group.setPred_frame, Group.write_holdsFrame]

theorem Group.writeSum_stored (g : Group) (x : FmtR3) (r : Nat → Word) (cp : Nat → Bool) (file q l : Nat) (hl : l < 32) :
    (g.writeSum x r cp).stored file q l =
      if 2 ≤ file ∧ q = fldM x.m 7 3 ∧ q ≠ 7 ∧ (g.act x.g).getLsbD l = true then boolWord (cp l)
      else if spanHas x.d 1 file q = true ∧ (g.act x.g).getLsbD l = true then storedOf x.d (r l) else g.stored file q l := by
  unfold Group.writeSum
  rw [Group.stored_setPred _ _ _ _ _ _ _ hl, getLsbD_boolWord, Group.write_regsAfter g x.d (g.act x.g) r file q l hl]

/-- Settles O3: the two writes in their order, the push over the group that holds both, and the table of IADDC's modifiers. -/
theorem carryAddition : Obligations.CarryAddition := by
  intro x s cin r cp h
  have hexec : exec (.iaddc x) s =
      .next (s.setGroup s.curCore s.curSlot ((s.cur.writeSum x r cp).push32 x.g x.d (s.actOf x.g) r).next) := by
    show execIaddc x s = _
    exact frontEnd_passes h
  have hframe := s.cur.writeSum_frame x r cp
  have hnext := Group.push32_next_frame (s.cur.writeSum x r cp) x.g x.d (s.actOf x.g) r
  have hy : YSame s.cur (s.cur.writeSum x r cp) := by rw [hframe]; exact ⟨rfl, rfl, rfl, rfl⟩
  have hm : only x.m 0xB80 = true := (Bool.and_eq_true_iff.mp (State.legal_of_passes h)).1
  refine ⟨_, hexec, State.registerStep_setCur ?_, fun file q l hl => ?_, ?_, getLsbD_of_only hm rfl, fun i hi => getLsbD_of_only hm ?_⟩
  · unfold GroupRegs
    rw [hnext, hframe]
  · rw [State.cur_setCur, hnext]
    exact s.cur.writeSum_stored x r cp file q l hl
  · rw [State.cur_setCur]
    exact Group.push32_pushed hy x.g x.d (s.actOf x.g) r
  · interval_cases i <;> rfl

end Sys2Proof.Machine
end

section
/-!
SUPPORT. Group registers: what the forms that write one k register, or a pair, leave in the group (R90, R114, R178).
-/

namespace Sys2Proof.Machine

/-! ## A k pair -/

theorem Group.kreg_writeK (g : Group) (n r : Nat) (w : Word) : (g.writeK n w).kreg r = if n = r then w else g.kreg r := SMap.get_set ..

/-- The group with a k pair written where ACT holds a lane. -/
def Group.putK64 (g : Group) (act : Mask) (n : Nat) (x : Dword) : Group :=
  if act = 0 then g else (g.writeK n (x.setWidth 32)).writeK (n + 1) (x.extractLsb' 32 32)

theorem Group.putK64_frame (g : Group) (act : Mask) (n : Nat) (x : Dword) : g.putK64 act n x = { g with k := (g.putK64 act n x).k } := by
  unfold Group.putK64
  split <;> rfl

theorem Group.putK64_kAfter (g : Group) (act : Mask) (n : Nat) (x : Dword) : KAfter g (g.putK64 act n x) (act != 0) n 2 (wordOf x) := by
  intro r
  by_cases ha : act = 0
  · simp [Group.putK64, ha]
  simp only [Group.putK64, if_neg ha, Group.kreg_writeK, bne_iff_ne.mpr ha, true_and]
  by_cases h0 : n = r
  · subst h0
    simp [wordOf]
  by_cases h1 : n + 1 = r
  · subst h1
    simp [wordOf]
  · rw [if_neg h1, if_neg h0, if_neg (by omega)]

/-! ## The push of a 64-bit result -/

/-- A 64-bit push makes the y slots what R75 says, over a group whose y slots are those before the word. -/
theorem Group.push64_pushed {g h : Group} (hy : YSame g h) (x : Guard) (d : Opnd) (act : Mask) (f : Nat → Dword) :
    Pushed64 g (h.push64 x d act f).next x act d f := by
  unfold Pushed64 Group.push64
  split
  · exact hy
  · refine ⟨rfl, rfl, fun l hl => ⟨?_, ?_⟩⟩
    · refine (get_ySlot (fun l => if act.getLsbD l then (f l).setWidth 32 else h.holdsWord d 0 l) l hl).trans ?_
      cases d <;> rfl
    · refine (get_ySlot (fun l => if act.getLsbD l then (f l).extractLsb' 32 32 else h.holdsWord d 1 l) l hl).trans ?_
      cases d <;> rfl

theorem Group.push64_next_frame (h : Group) (x : Guard) (d : Opnd) (act : Mask) (f : Nat → Dword) :
    (h.push64 x d act f).next = { h with
      y0 := (h.push64 x d act f).y0
      y1 := (h.push64 x d act f).y1
      y0v := (h.push64 x d act f).y0v
      y1v := (h.push64 x d act f).y1v
      pc := h.pc + 8 } := by
  unfold Group.push64
  split <;> rfl

/-! ## The ends of the forms -/

/-- A change of the issuing group that touches its k registers, y slots and PC only is the step of a form with a k result. -/
theorem State.kStep_setCur {s : State} {g : Group} (hg : g = { s.cur with
    k := g.k
    y0 := g.y0
    y1 := g.y1
    y0v := g.y0v
    y1v := g.y1v
    pc := s.cur.pc + 8 }) : KStep s (s.setGroup s.curCore s.curSlot g) := by
  obtain ⟨ht, hm⟩ := s.curStep_setCur g
  refine ⟨ht, hm, ?_⟩
  rw [State.cur_setCur]
  exact hg

/-- The end of a form with one k register as its result. -/
theorem Fe.resultK_spec (s : State) (x : Guard) (n : BitVec 6) (w : Word) :
    ∃ t, (s.fe x).resultK n.toNat w = .next t ∧ KStep s t ∧ KAfter s.cur t.cur (s.actOf x != 0) n.toNat 1 (fun _ => w) ∧
      Pushed32 s.cur t.cur x (s.actOf x) (.k n) (fun _ => w) := by
  obtain ⟨-, hk, hpush, -⟩ := s.cur.writeK_push_next x n (s.actOf x) w
  have he : (s.fe x).resultK n.toNat w = .next (s.setGroup s.curCore s.curSlot
      ((if s.actOf x = 0 then s.cur else s.cur.writeK n.toNat w).push32 x (.k n) (s.actOf x) (fun _ => w)).next) := by
    unfold Fe.resultK
    rw [BitVec.ofNat_toNat, BitVec.setWidth_eq]
    rfl
  refine ⟨_, he, State.kStep_setCur ?_, ?_⟩
  · rw [Group.push32_next_frame]
    split <;> rfl
  · rw [State.cur_setCur]
    exact ⟨hk, hpush⟩

/-- The end of a form with a k pair as its result. -/
theorem Fe.resultK64_spec (s : State) (x : Guard) (n : BitVec 6) (w : Dword) :
    ∃ t, (s.fe x).resultK64 n.toNat w = .next t ∧ KStep s t ∧ KAfter s.cur t.cur (s.actOf x != 0) n.toNat 2 (wordOf w) ∧
      Pushed64 s.cur t.cur x (s.actOf x) (.k n) (fun _ => w) := by
  have hf := s.cur.putK64_frame (s.actOf x) n.toNat w
  have hp := Group.push64_next_frame (s.cur.putK64 (s.actOf x) n.toNat w) x (.k n) (s.actOf x) (fun _ => w)
  have he : (s.fe x).resultK64 n.toNat w = .next (s.setGroup s.curCore s.curSlot
      ((s.cur.putK64 (s.actOf x) n.toNat w).push64 x (.k n) (s.actOf x) (fun _ => w)).next) := by
    unfold Fe.resultK64
    rw [BitVec.ofNat_toNat, BitVec.setWidth_eq]
    rfl
  refine ⟨_, he, State.kStep_setCur (by rw [hp, hf]), ?_, ?_⟩ <;> rw [State.cur_setCur]
  · rw [hp]
    exact s.cur.putK64_kAfter (s.actOf x) n.toNat w
  · exact Group.push64_pushed (by rw [hf]; exact ⟨rfl, rfl, rfl, rfl⟩) x (.k n) (s.actOf x) _

/-! ## MOVK and KSET -/

/-- MOVK, whole: nothing but the PC changes where ACT is empty (R114). -/
theorem execMovk_passes {x : FmtI} {s : State} {n : BitVec 6} (hd : x.d = .k n) (h : s.passes (.movk x) = true) :
    exec (.movk x) s = if s.actOf x.g = 0 then .next (s.setGroup s.curCore s.curSlot s.cur.next) else (s.fe x.g).resultK n.toNat x.imm := by
  show execMovk x s = _
  unfold execMovk
  rw [frontEnd_passes h, hd]
  rfl

/-- KSET, whole: the value of its source lane, in a pair or in one register (R178). -/
theorem execKset_passes {x : FmtR} {s : State} {n : BitVec 6} (hd : x.d = .k n) (h : s.passes (.kset x) = true) :
    exec (.kset x) s =
      if fldC x.c 6 1 = 1 then (s.fe x.g).resultK64 n.toNat (s.cur.rd64At x.a ((s.fe x.g).bcastLane x.c))
      else (s.fe x.g).resultK n.toNat (s.cur.rdAt x.a ((s.fe x.g).bcastLane x.c)) := by
  show execKset x s = _
  unfold execKset
  rw [frontEnd_passes h, hd]
  rfl

theorem eq_k_of_isK {m : Nat} {o : Opnd} (h : isK m o = true) : ∃ q, o = .k q := by
  cases o with
  | k q => exact ⟨q, rfl⟩
  | _ => exact absurd h Bool.false_ne_true

/-- MOVK's destination is a k register (R114). -/
theorem dst_of_legal_movk {x : FmtI} (h : legal (.movk x) = true) : ∃ q, x.d = .k q := by
  simp only [legal, form, dstOf, List.all_cons, Bool.and_eq_true] at h
  obtain ⟨-, hk, -⟩ := h
  exact eq_k_of_isK hk

/-- KSET's destination is a k register, or with W64 a pair (R178). -/
theorem dst_of_legal_kset {x : FmtR} (h : legal (.kset x) = true) : ∃ q, x.d = .k q := by
  simp only [legal, form, dstOf] at h
  split at h
  all_goals
    simp only [List.all_cons, Bool.and_eq_true] at h
    obtain ⟨-, hk, -⟩ := h
    exact eq_k_of_isK hk

/-- Settles O9: where ACT holds a lane, the ends of the forms with a k result; where it holds none, MOVK moves the PC only. -/
theorem groupRegisterResults : Obligations.GroupRegisterResults := by
  intro xi x n s act v from_
  refine ⟨fun hd h => ?_, fun hd h => ?_, fun h => dst_of_legal_movk (State.legal_of_passes h),
    fun h => dst_of_legal_kset (State.legal_of_passes h)⟩
  · rw [execMovk_passes hd h]
    by_cases ha : s.actOf xi.g = 0
    · rw [if_pos ha]
      refine ⟨_, rfl, State.kStep_setCur rfl, ?_⟩
      rw [State.cur_setCur, if_pos ha]
      exact ⟨fun r => by simp [ha]; rfl, rfl, rfl, rfl, rfl⟩
    · simp only [if_neg ha, hd]
      exact Fe.resultK_spec s xi.g n xi.imm
  · rw [execKset_passes hd h, hd]
    by_cases hw : fldC x.c 6 1 = 1
    · simp only [if_pos hw]
      exact Fe.resultK64_spec s x.g n (s.cur.rd64At x.a from_)
    · simp only [if_neg hw]
      exact Fe.resultK_spec s x.g n (s.cur.rdAt x.a from_)

end Sys2Proof.Machine
end

section
/-!
SUPPORT. The integer rules in exact integers: sums and differences, quotients and remainders, shifts and rotations (R98, R100, R104).
-/

namespace Sys2Proof.Machine

/-! ## Sums and differences (R98) -/

theorem clampInt_eq {lo hi : Int} (h : lo ≤ hi) (v : Int) : clampInt lo hi v = max lo (min v hi) := by
  unfold clampInt
  split_ifs <;> omega

/-- The clamp to the range of an integer type of `w` bits. -/
theorem clampInt_intRange (sg : Bool) (w : Nat) (v : Int) : clampInt (intRange sg w).1 (intRange sg w).2 v =
    if sg then max (-(2 : Int) ^ (w - 1)) (min v ((2 : Int) ^ (w - 1) - 1)) else max 0 (min v ((2 : Int) ^ w - 1)) := by
  have hpos (n : Nat) : 0 < (2 : Int) ^ n := by positivity
  cases sg
  · rw [clampInt_eq]
    · simp [intRange]
    · have := hpos w
      simp only [intRange, Bool.false_eq_true, if_false]
      push_cast
      omega
  · rw [clampInt_eq]
    · simp [intRange]
    · have := hpos (w - 1)
      simp only [intRange, if_true]
      push_cast
      omega

/-- The exact sum or difference, clamped under SAT to the range that S gives, and truncated. -/
theorem addSub_eq (w : Nat) (sg sat sub : Bool) (a b : BitVec w) : addSub w sg sat sub a b = BitVec.ofInt w (
    let v := if sub then extInt sg a - extInt sg b else extInt sg a + extInt sg b
    if sat = false then v
    else if sg then max (-(2 : Int) ^ (w - 1)) (min v ((2 : Int) ^ (w - 1) - 1)) else max 0 (min v ((2 : Int) ^ w - 1))) := by
  unfold addSub
  cases sat
  · rfl
  · simp only [clampInt_intRange, if_true, Bool.true_eq_false, if_false]

/-! ## Quotients and remainders (R100) -/

/-- The shape of R100's cases over an operation on exact integers: `z` for a zero divisor, `o` for the one signed quotient that does not fit, which
is what the operation gives there, and otherwise the operation's result, which without S is that on naturals. -/
theorem quotient_cases {sg : Bool} {a b z o m : Word} {q : Int → Int → Int} (hm : m = BitVec.ofInt 32 (q a.toNat b.toNat))
    (ho : BitVec.ofInt 32 (q (0x80000000 : Word).toInt (0xFFFFFFFF : Word).toInt) = o) :
    (if b = 0 then z else if sg then BitVec.ofInt 32 (q a.toInt b.toInt) else m) =
      if b = 0 then z else if sg = true ∧ a = 0x80000000 ∧ b = 0xFFFFFFFF then o else BitVec.ofInt 32 (q (extInt sg a) (extInt sg b)) := by
  refine if_congr Iff.rfl rfl ?_
  cases sg
  · exact hm.trans (if_neg (fun h => Bool.false_ne_true h.1)).symm
  · rw [if_pos rfl]
    split_ifs with h
    · rw [← ho, h.2.1, h.2.2]
    · rfl

/-- IDIV: the quotient truncated toward zero, with its two defined cases. -/
theorem divWord_eq (sg : Bool) (a b : Word) : divWord sg a b =
    if b = 0 then 0xFFFFFFFF else if sg = true ∧ a = 0x80000000 ∧ b = 0xFFFFFFFF then 0x80000000
    else BitVec.ofInt 32 ((extInt sg a).tdiv (extInt sg b)) :=
  quotient_cases (q := Int.tdiv) (BitVec.ofInt_natCast ..).symm rfl

/-- IREM: what the quotient leaves of the dividend, with its two defined cases. -/
theorem remWord_eq (sg : Bool) (a b : Word) : remWord sg a b =
    if b = 0 then a else if sg = true ∧ a = 0x80000000 ∧ b = 0xFFFFFFFF then 0
    else BitVec.ofInt 32 (extInt sg a - extInt sg b * (extInt sg a).tdiv (extInt sg b)) := by
  rw [← Int.tmod_def]
  exact quotient_cases (q := Int.tmod) (BitVec.ofInt_natCast ..).symm rfl

/-! ## Shifts and rotations (R104) -/

/-- The amount of a shift: B, or B mod 32 under MOD. -/
def shiftAmount (mod : Bool) (b : Word) : Nat := if mod then b.toNat % 32 else b.toNat

theorem shlWord_eq (mod : Bool) (a b : Word) : shlWord mod a b =
    if 32 ≤ shiftAmount mod b then 0 else BitVec.ofNat 32 (a.toNat * 2 ^ shiftAmount mod b) := by
  have hs (n : Nat) : a <<< n = BitVec.ofNat 32 (a.toNat * 2 ^ n) := by
    apply BitVec.eq_of_toNat_eq
    rw [BitVec.toNat_shiftLeft, BitVec.toNat_ofNat, Nat.shiftLeft_eq]
  rw [← hs]
  rfl

theorem shrWord_eq (mod : Bool) (a b : Word) : shrWord mod a b =
    if 32 ≤ shiftAmount mod b then 0 else BitVec.ofNat 32 (a.toNat / 2 ^ shiftAmount mod b) := by
  have hs (n : Nat) : a >>> n = BitVec.ofNat 32 (a.toNat / 2 ^ n) := by
    apply BitVec.eq_of_toNat_eq
    rw [BitVec.toNat_ushiftRight, BitVec.toNat_ofNat, Nat.shiftRight_eq_div_pow, Nat.mod_eq_of_lt]
    exact Nat.lt_of_le_of_lt (Nat.div_le_self ..) a.isLt
  rw [← hs]
  rfl

/-- Shifting a word right by 31 with sign fill leaves 32 copies of its sign. -/
theorem sshiftRight_31_eq (a : Word) : a.sshiftRight 31 = if a.getLsbD 31 then 0xFFFFFFFF else 0 := by
  apply BitVec.eq_of_getLsbD_eq
  intro i hi
  have hbit : (a.sshiftRight 31).getLsbD i = a.getLsbD 31 := by
    rw [BitVec.getLsbD_sshiftRight, decide_eq_false (Nat.not_le.mpr hi), Bool.not_false, Bool.true_and]
    split_ifs with h
    · rw [show i = 0 by omega]
    · rfl
  rw [hbit]
  cases a.getLsbD 31
  · exact BitVec.getLsbD_zero.symm
  · exact ((BitVec.getLsbD_allOnes (v := 32)).trans (decide_eq_true hi)).symm

theorem sarWord_eq (mod : Bool) (a b : Word) : sarWord mod a b =
    if 32 ≤ shiftAmount mod b then (if a.getLsbD 31 then 0xFFFFFFFF else 0)
    else BitVec.ofInt 32 (a.toInt / 2 ^ shiftAmount mod b) := by
  show a.sshiftRight (min (shiftAmount mod b) 31) = _
  by_cases h : 32 ≤ shiftAmount mod b
  · rw [if_pos h, Nat.min_eq_right (Nat.le_of_succ_le h), sshiftRight_31_eq]
  · rw [if_neg h, Nat.min_eq_left (Nat.le_of_lt_succ (Nat.lt_of_not_le h)), BitVec.sshiftRight, Int.shiftRight_eq_div_pow]
    norm_cast

theorem rotWord_eq (a b : Word) : rotWord a b = (a <<< (b.toNat % 32)) ||| (a >>> (32 - b.toNat % 32)) :=
  BitVec.rotateLeft_eq_rotateLeftAux_of_lt (Nat.mod_lt _ (by decide))

/-! ## The obligation -/

theorem frontEnd_lanes2_eq {i : Instr} {s : State} {x : FmtR} {f : Word → Word → Word} {r : Nat → Word}
    (hr : ∀ l, f (s.srcX x.c x.a l) (s.srcX x.c x.b l) = r l) (h : s.passes i = true) :
    ∃ t, frontEnd i x.g s (lanes2 x f) = .next t ∧ Result32 s t x.g x.d r := by
  rw [← funext hr]
  exact frontEnd_lanes2 h

theorem frontEnd_pair_eq {i : Instr} {x : Guard} {d : Opnd} {f : Fe → Nat → Dword} {s : State} {r : Nat → Dword} (hd : dst64 d ∈ (form i).uses)
    (hr : ∀ l, f (s.fe x) l = r l) (h : s.passes i = true) :
    ∃ t, frontEnd i x s (fun e => e.result64 d (f e)) = .next t ∧ Result64 s t x d r := by
  rw [← funext hr]
  exact frontEnd_pair hd h

/-- A legal word of a two-source form sets no modifiers but those of its table (R97). -/
theorem only_of_legal_formXL {x : FmtR} {m : BitVec 12} {i : Instr} (hi : form i = formXL x m) (h : legal i = true) : only x.m m = true := by
  simp only [legal, hi, formXL, Bool.and_eq_true] at h
  obtain ⟨⟨-, hm⟩, -⟩ := h
  exact hm

/-- Settles O55: each form by the equation of its rule above. -/
theorem integerRules : Obligations.IntegerRules := by
  intro x s sg sat ext clamp a b a2 b2 n single double
  have hd {r : List Use} : dst64 x.d ∈ dst64 x.d :: r := List.mem_cons_self ..
  have hclear {i : Instr} {m : BitVec 12} (hi : form i = formXL x m) (hS : m.getLsbD 11 = false) (hSat : m.getLsbD 10 = false)
      (h : legal i = true) : sg = false ∧ sat = false :=
    ⟨getLsbD_of_only (only_of_legal_formXL hi h) hS, getLsbD_of_only (only_of_legal_formXL hi h) hSat⟩
  refine ⟨?_, fun h => getLsbD_of_only (only_of_legal_formXL (m := 0) rfl h) rfl, ?_, ?_⟩
  · simp only [List.forall_mem_cons]
    exact ⟨hclear rfl rfl rfl, hclear rfl rfl rfl, hclear rfl rfl rfl, hclear rfl rfl rfl, List.forall_mem_nil _⟩
  · simp only [single, List.forall_mem_cons]
    exact ⟨frontEnd_lanes2_eq fun l => addSub_eq 32 sg sat false (a l) (b l), frontEnd_lanes2_eq fun l => addSub_eq 32 sg sat true (a l) (b l),
      frontEnd_lanes2_eq fun l => divWord_eq sg (a l) (b l), frontEnd_lanes2_eq fun l => remWord_eq sg (a l) (b l),
      frontEnd_lanes2_eq fun l => shlWord_eq (x.m.getLsbD 9) (a l) (b l), frontEnd_lanes2_eq fun l => shrWord_eq (x.m.getLsbD 9) (a l) (b l),
      frontEnd_lanes2_eq fun l => sarWord_eq (x.m.getLsbD 9) (a l) (b l), frontEnd_lanes2_eq fun l => rotWord_eq (a l) (b l),
      List.forall_mem_nil _⟩
  · simp only [double, List.forall_mem_cons]
    exact ⟨
      frontEnd_pair_eq hd (f := fun e l => addSub 64 (mS x.m) (mSat x.m) false (e.g.rd64 x.a l) (e.g.rd64 x.b l))
        fun l => addSub_eq 64 sg sat false (a2 l) (b2 l),
      frontEnd_pair_eq hd (f := fun e l => addSub 64 (mS x.m) (mSat x.m) true (e.g.rd64 x.a l) (e.g.rd64 x.b l))
        fun l => addSub_eq 64 sg sat true (a2 l) (b2 l),
      List.forall_mem_nil _⟩

end Sys2Proof.Machine
end

section
/-!
SUPPORT. Conversions: what a form that steps the stochastic-rounding states, changes AMAX or gives count tokens leaves beside its result
(R125, R128, R152 to R161, R423).
-/

namespace Sys2Proof.Machine

/-! ## The destinations of the forms (R53, R92, R149) -/

/-- A word that passes uses its operand fields as its table allows (R60). -/
theorem use_ok_of_passes {s : State} {i : Instr} {u : Use} (h : s.passes i = true) (hu : u ∈ (form i).uses) : u.ok = true := by
  simp only [State.passes, Bool.and_eq_true] at h
  obtain ⟨⟨⟨⟨-, huses⟩, -⟩, -⟩, -⟩ := h
  exact List.all_eq_true.mp huses u hu

/-- A span of more than one register is no predicate (R53, R149). -/
theorem not_p_of_spanDst {s : State} {i : Instr} {n : Nat} {d : Opnd} (h : s.passes i = true) (hu : spanDst n d ∈ (form i).uses)
    (hn : n ≠ 1) : ∀ q, d ≠ .p q := by
  rintro q rfl
  refine absurd (use_ok_of_passes h hu) (ne_true_of_eq_false ?_)
  unfold spanDst
  split
  · exact absurd rfl hn
  · rfl
  · rfl

/-! ## Results of a pair and of a quad, as the group sees them -/

/-- The end of a form with a 64-bit result (R92, R122). -/
theorem Group.write64_push_next (g : Group) (x : Guard) {d : Opnd} (act : Mask) (f : Nat → Dword) (hp : ∀ n, d ≠ .p n) :
    GroupRegs g ((g.write64 d act f).push64 x d act f).next ∧ Wrote64 g ((g.write64 d act f).push64 x d act f).next x act d f := by
  have hw : g.write64 d act f = { g with
      v := (g.write64 d act f).v
      w := (g.write64 d act f).w } := by cases d <;> rfl
  have hn := Group.push64_next_frame (g.write64 d act f) x d act f
  have hy : YSame g (g.write64 d act f) := by rw [hw]; exact ⟨rfl, rfl, rfl, rfl⟩
  refine ⟨?_, fun file r l hl => ?_, Group.push64_pushed hy x d act f⟩
  · unfold GroupRegs
    rw [hn, hw]
  · rw [← Group.write64_regsAfter g d act f hp file r l hl, hn]
    rfl

/-- Writing a quad leaves the rest of the group. -/
theorem Group.write128_frame (g : Group) (d : Opnd) (act : Mask) (f : Nat → Nat → Word) : g.write128 d act f = { g with
    v := (g.write128 d act f).v
    w := (g.write128 d act f).w } := by
  cases d <;> simp only [Group.write128, Group.writeWord]

/-- The end of a form with a quad result, which pushes nothing (R75). -/
theorem Group.write128_next (g : Group) {d : Opnd} (act : Mask) (f : Nat → Nat → Word) (hp : ∀ n, d ≠ .p n) :
    GroupRegs g (g.write128 d act f).next ∧ Wrote128 g (g.write128 d act f).next act d f := by
  have hregs := Group.write128_regsAfter g d act f hp
  have hw := Group.write128_frame g d act f
  generalize g.write128 d act f = h at hregs hw ⊢
  refine ⟨?_, hregs, ?_⟩
  · unfold GroupRegs
    rw [hw]
    rfl
  · rw [hw]
    exact ⟨rfl, rfl, rfl, rfl⟩

/-- A span of `n` registers written and pushed, as DQCVT ends: one register, a pair, or a quad (R155, R157). -/
def Group.writeSpan (g : Group) (x : Guard) (d : Opnd) (act : Mask) (f : Nat → Nat → Word) (n : Nat) : Group :=
  match n with
  | 1 => (g.write d act (f 0)).push32 x d act (f 0)
  | 2 => (g.write64 d act (fun l => f 1 l ++ f 0 l)).push64 x d act (fun l => f 1 l ++ f 0 l)
  | _ => g.write128 d act f

/-- What a group holds after a span has been written and pushed. -/
def WroteSpan (g t : Group) (x : Guard) (act : Mask) (d : Opnd) (f : Nat → Nat → Word) (n : Nat) : Prop :=
  match n with
  | 1 => Wrote32 g t x act d (f 0)
  | 2 => Wrote64 g t x act d (fun l => f 1 l ++ f 0 l)
  | _ => Wrote128 g t act d f

theorem Group.writeSpan_next (g : Group) (x : Guard) {d : Opnd} (act : Mask) (f : Nat → Nat → Word) {n : Nat}
    (hp : n ≠ 1 → ∀ q, d ≠ .p q) :
    GroupRegs g (g.writeSpan x d act f n).next ∧ WroteSpan g (g.writeSpan x d act f n).next x act d f n := by
  match n, hp with
  | 1, _ => exact g.write_push_next x d act (f 0)
  | 2, hp => exact g.write64_push_next x act _ (hp (by decide))
  | 0, hp => exact g.write128_next act f (hp (by decide))
  | k + 3, hp => exact g.write128_next act f (hp (by omega))

/-! ## AMAX and the stochastic-rounding states (R125, R128) -/

/-- A group after its result, with AMAX replaced and the states of the lanes of `act` stepped, at the next word. -/
def Group.quantEnd (h : Group) (amax : SMap Word) (m : BitVec 12) (act : Mask) (n : Nat) : Group :=
  ({ h with amax := amax }.stepSeeds m act n).next

theorem GroupRegs.amax_eq {g h : Group} (hr : GroupRegs g h.next) : h.amax = g.amax := by
  unfold GroupRegs at hr
  rw [← h.next_amax, hr]

theorem GroupRegs.srseed_eq {g h : Group} (hr : GroupRegs g h.next) : h.srseed = g.srseed := by
  unfold GroupRegs at hr
  rw [← h.next_srseed, hr]

section
variable {g h : Group} {amax : SMap Word} {m : BitVec 12} {act : Mask} {n : Nat}

theorem Group.quantEnd_frame : h.quantEnd amax m act n = { h.next with
    amax := amax
    srseed := (h.quantEnd amax m act n).srseed } := by
  unfold Group.quantEnd Group.stepSeeds
  split <;> rfl

theorem Group.quantEnd_quantStep (hr : GroupRegs g h.next) : QuantStep g (h.quantEnd amax m act n) := by
  unfold QuantStep
  unfold GroupRegs at hr
  rw [Group.quantEnd_frame, hr]

/-- The states step in mode .sr, in the lanes of the mask only. -/
theorem Group.quantEnd_seeds (hr : GroupRegs g h.next) : SeedsAfter g (h.quantEnd amax m act n) m act n := by
  intro l hl
  have hs : h.srseed = g.srseed := GroupRegs.srseed_eq hr
  unfold Group.quantEnd Group.stepSeeds
  by_cases hm : fldM m 9 3 = 5
  · simp only [hm, true_and, Group.seed, Group.next, hs]
    exact SMap.get_foldl_lanes 0 act g.srseed _ l hl
  · simp only [hm, false_and, if_false, Group.seed, Group.next, hs]

theorem Group.quantEnd_amaxSame (hr : GroupRegs g h.next) : AmaxSame g (h.quantEnd h.amax m act n) := by
  intro l _
  have ha : h.amax = g.amax := GroupRegs.amax_eq hr
  rw [Group.quantEnd_frame, Group.amaxOf, ha]
  rfl

/-- AMAX written in the lanes of the mask. -/
theorem Group.quantEnd_amaxOf (hr : GroupRegs g h.next) (f : Nat → Word) (l : Nat) (hl : l < 32) :
    (h.quantEnd ((lanesOf act).foldl (fun t l => SMap.set 0 t l (f l)) h.amax) m act n).amaxOf l =
      if act.getLsbD l then f l else g.amaxOf l := by
  have ha : h.amax = g.amax := GroupRegs.amax_eq hr
  rw [Group.quantEnd_frame, Group.amaxOf, ha]
  exact SMap.get_foldl_lanes 0 act g.amax f l hl

/-! What the result wrote is kept. -/

theorem Wrote32.quantEnd {x : Guard} {a : Mask} {d : Opnd} {f : Nat → Word} (hw : Wrote32 g h.next x a d f) :
    Wrote32 g (h.quantEnd amax m act n) x a d f := by
  rw [Group.quantEnd_frame]
  exact hw

theorem Wrote64.quantEnd {x : Guard} {a : Mask} {d : Opnd} {f : Nat → Dword} (hw : Wrote64 g h.next x a d f) :
    Wrote64 g (h.quantEnd amax m act n) x a d f := by
  rw [Group.quantEnd_frame]
  exact hw

theorem WroteSpan.quantEnd {x : Guard} {a : Mask} {d : Opnd} {f : Nat → Nat → Word} {k : Nat} (hw : WroteSpan g h.next x a d f k) :
    WroteSpan g (h.quantEnd amax m act n) x a d f k := by
  unfold WroteSpan at hw ⊢
  split at hw
  · exact Wrote32.quantEnd hw
  · exact Wrote64.quantEnd hw
  · rw [Group.quantEnd_frame]
    exact hw

end

/-! ## The state after a conversion -/

/-- Nothing changes but the issuing group, and of it what a conversion changes. -/
def State.QuantTurn (s t : State) : Prop := t = s.setGroup s.curCore s.curSlot t.cur ∧ MemorySame s t ∧ QuantStep s.cur t.cur

/-- The same, and its block gets the tokens of two counts (R423). -/
def State.TokenTurn (s t : State) (sat nan : Nat) : Prop :=
  t = (s.setGroup s.curCore s.curSlot t.cur).setBlock s.curCore s.cur.blk t.curBlock ∧ MemorySame s t ∧ QuantStep s.cur t.cur ∧
  t.curBlock = { s.curBlock with tokens := s.curBlock.tokens ++ countTokens sat nan }

section
variable {s : State} {x : Guard} {g : Group} {o : Out}

/-- The end of a conversion without tokens. -/
theorem State.next_quantTurn (ho : o = (s.fe x).done g) (hq : QuantStep s.cur g.next) :
    ∃ t, o = .next t ∧ s.QuantTurn t ∧ t.cur = g.next := by
  obtain ⟨ht, hm⟩ := s.curStep_setCur g.next
  have hc := s.cur_setCur g.next
  exact ⟨s.setGroup s.curCore s.curSlot g.next, ho, ⟨ht, hm, by rwa [hc]⟩, hc⟩

/-- The end of a conversion that leaves AMAX. -/
theorem State.next_stepSeeds {h : Group} {m : BitVec 12} {act : Mask} {n : Nat} (hr : GroupRegs s.cur h.next)
    (ho : o = (s.fe x).done (h.stepSeeds m act n)) :
    ∃ t, o = .next t ∧ s.QuantTurn t ∧ AmaxSame s.cur t.cur ∧ SeedsAfter s.cur t.cur m act n ∧ t.cur = h.quantEnd h.amax m act n := by
  obtain ⟨t, ht, hturn, hcur⟩ := State.next_quantTurn ho (Group.quantEnd_quantStep hr)
  exact ⟨t, ht, hturn, hcur ▸ Group.quantEnd_amaxSame hr, hcur ▸ Group.quantEnd_seeds hr, hcur⟩

/-- The tokens of two counts, SATN's before NANN's. -/
theorem Block.tokenAdd_counts (b : Block) (sat nan : Nat) :
    (b.tokenAdd 0 sat).tokenAdd 1 nan = { b with tokens := b.tokens ++ countTokens sat nan } := by
  by_cases hs : sat = 0 <;> by_cases hn : nan = 0 <;> simp [Block.tokenAdd, countTokens, hs, hn]

/-- The issuing group and its block, once both have been replaced. -/
theorem State.cur_setCur_setBlock {b : Block} (hb : g.blk = s.cur.blk) :
    ((s.setGroup s.curCore s.curSlot g).setBlock s.curCore s.cur.blk b).cur = g ∧
    ((s.setGroup s.curCore s.curSlot g).setBlock s.curCore s.cur.blk b).curBlock = b := by
  have hc : ((s.setGroup s.curCore s.curSlot g).setBlock s.curCore s.cur.blk b).cur = g :=
    (State.group_setBlock ..).trans (s.cur_setCur g)
  refine ⟨hc, ?_⟩
  unfold State.curBlock
  rw [hc, hb]
  exact (congrArg (Core.block · s.cur.blk) (State.core_setCore_same ..)).trans (Core.block_setBlock_same ..)

theorem State.doneCount_fe (s : State) (x : Guard) (g : Group) (sat nan : Nat) : (s.fe x).doneCount g sat nan =
    .next ((s.setGroup s.curCore s.curSlot g.next).setBlock s.curCore s.cur.blk ((s.curBlock.tokenAdd 0 sat).tokenAdd 1 nan)) := rfl

/-- The end of a conversion that gives count tokens. -/
theorem State.next_tokenTurn {sat nan : Nat} (ho : o = (s.fe x).doneCount g sat nan) (hq : QuantStep s.cur g.next) :
    ∃ t, o = .next t ∧ s.TokenTurn t sat nan ∧ t.cur = g.next := by
  have hblk : g.next.blk = s.cur.blk := by rw [hq]
  obtain ⟨hc, hb⟩ := State.cur_setCur_setBlock (b := (s.curBlock.tokenAdd 0 sat).tokenAdd 1 nan) hblk
  exact ⟨_, ho.trans (s.doneCount_fe ..), ⟨by rw [hc, hb], fun _ => rfl, by rwa [hc], hb.trans (Block.tokenAdd_counts ..)⟩, hc⟩

end

/-! ## The forms -/

theorem xor_ite_zero {w : Nat} (c : Prop) [Decidable c] (a b : BitVec w) : (a ^^^ if c then b else 0) = if c then a ^^^ b else a :=
  (apply_ite (a ^^^ ·) c b 0).trans (congrArg (ite c (a ^^^ b)) BitVec.xor_zero)

section
variable {x : FmtR} {s : State}

/-- The group after CVT's or CVT64's result: a pair where the destination type is wide (R152). -/
def Group.writeCvt (g : Group) (x : FmtR) (act : Mask) : Group :=
  if wideType (fldC x.c 5 5) then (g.write64 x.d act (fun l => w64 (cvtLane g x l))).push64 x.g x.d act (fun l => w64 (cvtLane g x l))
  else (g.write x.d act (fun l => w32 (cvtLane g x l))).push32 x.g x.d act (fun l => w32 (cvtLane g x l))

theorem Group.writeCvt_next (g : Group) (act : Mask) (hp : wideType (fldC x.c 5 5) = true → ∀ n, x.d ≠ .p n) :
    GroupRegs g (g.writeCvt x act).next ∧
    if wideType (fldC x.c 5 5) then Wrote64 g (g.writeCvt x act).next x.g act x.d (fun l => w64 (cvtLane g x l))
    else Wrote32 g (g.writeCvt x act).next x.g act x.d (fun l => w32 (cvtLane g x l)) := by
  unfold Group.writeCvt
  by_cases hwide : wideType (fldC x.c 5 5) = true
  · simp only [if_pos hwide]
    exact g.write64_push_next x.g act _ (hp hwide)
  · simp only [if_neg hwide]
    exact g.write_push_next x.g x.d act _

/-- CVT and CVT64, whole (R152). -/
theorem cvtEffect_spec (hp : wideType (fldC x.c 5 5) = true → ∀ n, x.d ≠ .p n) :
    ∃ t, cvtEffect x (s.fe x.g) = .next t ∧ s.QuantTurn t ∧ AmaxSame s.cur t.cur ∧ SeedsAfter s.cur t.cur x.m (s.actOf x.g) 1 ∧
      if wideType (fldC x.c 5 5) then Wrote64 s.cur t.cur x.g (s.actOf x.g) x.d (fun l => w64 (cvtLane s.cur x l))
      else Wrote32 s.cur t.cur x.g (s.actOf x.g) x.d (fun l => w32 (cvtLane s.cur x l)) := by
  have ho : cvtEffect x (s.fe x.g) = (s.fe x.g).done ((s.cur.writeCvt x (s.actOf x.g)).stepSeeds x.m (s.actOf x.g) 1) := rfl
  obtain ⟨hr, hw⟩ := s.cur.writeCvt_next (s.actOf x.g) hp
  obtain ⟨t, ht, hturn, ha, hs, hcur⟩ := State.next_stepSeeds hr ho
  refine ⟨t, ht, hturn, ha, hs, ?_⟩
  rw [hcur]
  split_ifs at hw ⊢
  · exact hw.quantEnd
  · exact hw.quantEnd

/-- CVT, whole. -/
theorem execCvt_passes (h : s.passes (.cvt x) = true) : exec (.cvt x) s = cvtEffect x (s.fe x.g) := by
  show execCvt x s = _
  exact frontEnd_passes h

/-- CVT64, whole. -/
theorem execCvt64_passes (h : s.passes (.cvt64 x) = true) : exec (.cvt64 x) s = cvtEffect x (s.fe x.g) := by
  show execCvt64 x s = _
  exact frontEnd_passes h

/-- Where the destination type is wide, D is a pair (R152). -/
theorem not_p_of_formCvt {i : Instr} {wide : Bool} (hi : form i = formCvt wide x) (h : s.passes i = true)
    (hwide : wideType (fldC x.c 5 5) = true) : ∀ n, x.d ≠ .p n := by
  refine dst64_notP h ?_
  rw [hi, formCvt, if_pos hwide]
  exact List.mem_cons_self ..

end

/-! ## The obligation -/

/-- Settles O7: beside its result each form leaves AMAX and the rounding states as `quantEnd` says, and QCVT and QBLK give their tokens. -/
theorem conversionResults : Obligations.ConversionResults := by
  intro x s act v dt f only tokens raw old quant all deq inp top sc q
  refine ⟨?_, fun h => ?_, fun h => ?_, fun h => ?_, fun h => ?_, fun h => ?_⟩
  · simp only [List.forall_mem_cons]
    refine ⟨fun h => ?_, fun h => ?_, List.forall_mem_nil _⟩
    · rw [execCvt_passes h]
      exact cvtEffect_spec (not_p_of_formCvt rfl h)
    · rw [execCvt64_passes h]
      exact cvtEffect_spec (not_p_of_formCvt rfl h)
  · -- QCVT
    obtain ⟨hr, hw⟩ := s.cur.write_push_next x.g x.d act quant
    have ho : execQcvt x s = _ := frontEnd_passes h
    obtain ⟨t, ht, hturn, hcur⟩ := State.next_tokenTurn ho (Group.quantEnd_quantStep hr)
    refine ⟨t, ht, hturn, ?_⟩
    rw [hcur]
    exact ⟨hw.quantEnd, Group.quantEnd_seeds hr, Group.quantEnd_amaxOf hr _⟩
  · -- DQCVT
    have hd : spanDst (spanRegs dt (fldC x.c 3 2)) x.d ∈ (form (.dqcvt x)).uses := List.mem_cons_self ..
    obtain ⟨hr, hw⟩ := s.cur.writeSpan_next x.g act deq (not_p_of_spanDst h hd)
    have ho : execDqcvt x s = _ := frontEnd_passes h
    obtain ⟨t, ht, hturn, ha, hs, hcur⟩ := State.next_stepSeeds hr ho
    refine ⟨t, ht, hturn, ha, hs, ?_⟩
    rw [hcur]
    exact hw.quantEnd
  · -- QBLK
    obtain ⟨hr, hw⟩ := s.cur.write_push_next x.g x.d act (fun l => w32 (sc * 256 + q l))
    have ho : execQblk x s = _ := frontEnd_passes h
    obtain ⟨t, ht, hturn, hcur⟩ := State.next_tokenTurn ho (Group.quantEnd_quantStep hr)
    refine ⟨t, ht, hturn, ?_⟩
    rw [hcur]
    exact ⟨Group.quantEnd_amaxSame hr, Group.quantEnd_seeds hr, hw.quantEnd⟩
  · -- AMAXCLR
    obtain ⟨hr, hw⟩ := s.cur.write_push_next x.g x.d act s.cur.amaxOf
    have ho : execAmaxclr x s = _ := frontEnd_passes h
    have hzero {h : Group} {a : SMap Word} : h.quantEnd a 0 act 0 = { h with amax := a }.next := rfl
    obtain ⟨t, ht, hturn, hcur⟩ := State.next_quantTurn ho (hzero ▸ Group.quantEnd_quantStep hr)
    refine ⟨t, ht, hturn, ?_⟩
    rw [hcur, ← hzero]
    exact ⟨hw.quantEnd, Group.quantEnd_seeds hr, Group.quantEnd_amaxOf hr _⟩
  · -- SRSEED
    have ho : execSrseed x s = _ := frontEnd_passes h
    obtain ⟨t, ht, hturn, hcur⟩ := State.next_quantTurn ho rfl
    refine ⟨t, ht, hturn, ?_⟩
    rw [hcur]
    refine ⟨fun _ _ => rfl, ⟨rfl, rfl, rfl, rfl⟩, fun _ _ _ _ => rfl, fun l hl => ?_⟩
    intro a
    have ha : a = _ := xor_ite_zero ..
    rw [ha]
    exact SMap.get_foldl_lanes 0 act s.cur.srseed _ l hl

end Sys2Proof.Machine
end

section
/-!
SUPPORT. Floating forms with a 32-bit result: each is one of the register forms' shapes, whose end is known (R129 to R147).
-/

namespace Sys2Proof.Machine

/-- The result of HCMP2 and BCMP2 in a lane: in each half, whether its compare holds, as a mask (R138). -/
def halfMasks (fm : FFmt) (x : FmtR) (g : Group) (l : Nat) : Word :=
  w32 (packElems 16 ((List.range 2).map (fun n =>
    if cmpCodes fm x (elemAt 16 n (g.rdH fm 0 x.a l).toNat) (elemAt 16 n (g.rdH fm 0 x.b l).toNat) then 0xFFFF else 0)))

/-! ## The shapes of the 32-bit forms (R135, R143, R146, R147) -/

section
variable {i : Instr} {s : State} {x : FmtR} {x3 : FmtR3}

/-- A two-source f32 form, whole. -/
theorem frontEnd_float2 {f : Nat → Nat → Nat} (h : s.passes i = true) : ∃ t, frontEnd i x.g s (float2 x f) = .next t ∧
    Result32 s t x.g x.d (fun l =>
      w32 (f (modIn f32 x.m 0 (s.srcX x.c x.a l).toNat) (modIn f32 x.m 1 (s.srcX x.c x.b l).toNat))) := frontEnd_result h

/-- A one-source f32 form, whole. -/
theorem frontEnd_float1 {f : Nat → Nat} (h : s.passes i = true) : ∃ t, frontEnd i x.g s (float1 x f) = .next t ∧
    Result32 s t x.g x.d (fun l => w32 (f (modIn f32 x.m 0 (s.src x.a l).toNat))) := frontEnd_result h

/-- A packed two-source form, whole: each half on its own (R146). -/
theorem frontEnd_half2 {fm : FFmt} {f : Nat → Nat → Nat} (h : s.passes i = true) : ∃ t, frontEnd i x.g s (half2 fm x f) = .next t ∧
    Result32 s t x.g x.d (fun l => w32 (packElems 16 ((List.range 2).map (fun n =>
      f (modIn fm x.m 0 (elemAt 16 n (s.cur.rdH fm x.c x.a l).toNat)) (modIn fm x.m 1 (elemAt 16 n (s.cur.rdH fm x.c x.b l).toNat)))))) :=
  frontEnd_result h

/-- A packed fused multiply-add, whole: each half on its own (R146). -/
theorem frontEnd_half3 {fm : FFmt} (h : s.passes i = true) : ∃ t, frontEnd i x3.g s (half3 fm x3) = .next t ∧
    Result32 s t x3.g x3.d (fun l => w32 (packElems 16 ((List.range 2).map (fun n => fm.fmaC (arithOf x3.m)
      (modIn fm x3.m 0 (elemAt 16 n (s.cur.rdH fm 0 x3.a l).toNat)) (modIn fm x3.m 1 (elemAt 16 n (s.cur.rdH fm 0 x3.b l).toNat))
      (modIn fm x3.m 2 (elemAt 16 n (s.cur.rdH fm 0 x3.c l).toNat)))))) := frontEnd_result h

/-- An f32 multiply-add of low halves, whole (R147). -/
theorem frontEnd_halfFma {fm : FFmt} (h : s.passes i = true) : ∃ t, frontEnd i x3.g s (halfFma fm x3) = .next t ∧
    Result32 s t x3.g x3.d (fun l => w32 (f32.finish (arithOf x3.m) (Num.add ((arithOf x3.m).rnd == .rdn)
      (Num.mul (fm.inp (arithOf x3.m) (modIn fm x3.m 0 ((s.cur.rdH fm 0 x3.a l).toNat % 65536)))
        (fm.inp (arithOf x3.m) (modIn fm x3.m 1 ((s.cur.rdH fm 0 x3.b l).toNat % 65536))))
      (f32.inp (arithOf x3.m) (modIn f32 x3.m 2 (s.src x3.c l).toNat))))) := frontEnd_result h

/-- HCMP2, whole. -/
theorem execHcmp2_result (h : s.passes (.hcmp2 x) = true) :
    ∃ t, execHcmp2 x s = .next t ∧ Result32 s t x.g x.d (halfMasks h16 x s.cur) := frontEnd_result h

/-- BCMP2, whole. -/
theorem execBcmp2_result (h : s.passes (.bcmp2 x) = true) :
    ∃ t, execBcmp2 x s = .next t ∧ Result32 s t x.g x.d (halfMasks bf16 x s.cur) := frontEnd_result h

end

/-! ## The obligation -/

/-- Settles O4: each form, in the statement's order, is a shape above with its rule's function of the sources; the compares, FLDEXP, FFMA and
FSEL have no shape in common, and their function of the group's sources is given. -/
theorem floatResults : Obligations.FloatResults := by
  intro x x3 s k k3 ax bx u fused pair masks triple mixed two three
  refine ⟨?_, ?_⟩
  · simp only [two, List.forall_mem_cons]
    exact ⟨
      -- FADD, FSUB, FMUL, FDIV, FMIN and FMAX (R135, R137, R145)
      frontEnd_float2, frontEnd_float2, frontEnd_float2, frontEnd_float2, frontEnd_float2, frontEnd_float2,
      -- FCMP and FSET (R138)
      frontEnd_result (f := fun e l => cmpResult e.g x (cmpCodes f32 x (e.g.rd x.a l).toNat (e.g.rd x.b l).toNat) l),
      frontEnd_result (f := fun e l => maskWord (cmpCodes f32 x (e.g.rd x.a l).toNat (e.g.rd x.b l).toNat)),
      -- FCLASS and FRND, FLDEXP, FSQRT (R140 to R143)
      frontEnd_float1, frontEnd_float1,
      frontEnd_result (f := fun e l => w32 (ldexpCode k (modIn f32 x.m 0 (e.g.rdX x.c x.a l).toNat) (e.g.rdX x.c x.b l).toInt)),
      frontEnd_float1,
      -- FRCP, FRSQ, FEXP2, FLOG2, FSIN, FCOS and FTANH (R143, R144)
      frontEnd_float1, frontEnd_float1, frontEnd_float1, frontEnd_float1, frontEnd_float1, frontEnd_float1, frontEnd_float1,
      -- the forms of h16 pairs: HADD2 to HMAX2, HCMP2 (R138, R146)
      frontEnd_half2, frontEnd_half2, frontEnd_half2, frontEnd_half2, frontEnd_half2, execHcmp2_result,
      -- the same of bf16 pairs
      frontEnd_half2, frontEnd_half2, frontEnd_half2, frontEnd_half2, frontEnd_half2, execBcmp2_result, List.forall_mem_nil _⟩
  · simp only [three, List.forall_mem_cons]
    -- FFMA, FSEL, HFMA2, BFMA2, FFMAH and FFMAB (R135, R139, R146, R147)
    exact ⟨
      frontEnd_result (f := fun e l => w32 (f32.fmaC k3 (modIn f32 x3.m 0 (e.g.rd x3.a l).toNat) (modIn f32 x3.m 1 (e.g.rd x3.b l).toNat)
        (modIn f32 x3.m 2 (e.g.rd x3.c l).toNat))),
      frontEnd_result (f := fun e l => w32 (if floatCond 5 (f32.value (e.g.rd x3.c l).toNat) (.fin false 0 0)
        then modIn f32 x3.m 0 (e.g.rd x3.a l).toNat else modIn f32 x3.m 1 (e.g.rd x3.b l).toNat)),
      frontEnd_half3, frontEnd_half3, frontEnd_halfFma, frontEnd_halfFma, List.forall_mem_nil _⟩

end Sys2Proof.Machine
end

section
/-!
SUPPORT. Double-precision forms and FFREXP, whose result is a register pair, and DCMP, whose result is a bit (R138, R142, R148).
-/

namespace Sys2Proof.Machine

section
variable {i : Instr} {s : State} {x : FmtR}

/-- A two-source f64 form, whole. -/
theorem frontEnd_double2 {f : Nat → Nat → Nat} (hd : dst64 x.d ∈ (form i).uses) (h : s.passes i = true) :
    ∃ t, frontEnd i x.g s (double2 x f) = .next t ∧ Result64 s t x.g x.d (fun l =>
      w64 (f (modIn f64 x.m 0 (s.src64 x.a l).toNat) (modIn f64 x.m 1 (s.src64 x.b l).toNat))) := frontEnd_pair hd h

/-- FFREXP, whole: the mantissa in the low word of the pair, the exponent in the high word (R142). -/
theorem execFfrexp_result (h : s.passes (.ffrexp x) = true) : ∃ t, execFfrexp x s = .next t ∧ Result64 s t x.g x.d (fun l =>
    (BitVec.ofInt 32 (frexpCode (x.m.getLsbD 8) (modIn f32 x.m 0 (s.src x.a l).toNat)).2 : Word) ++
      w32 (frexpCode (x.m.getLsbD 8) (modIn f32 x.m 0 (s.src x.a l).toNat)).1) := frontEnd_pair (List.mem_cons_self ..) h

end

/-- Settles O5: the f64 forms of two sources by their shape, FFREXP and DFMA by the end of a form with a pair, DCMP by that of a form
with a 32-bit result. -/
theorem doubleResults : Obligations.DoubleResults := by
  intro x x3 s k a b two
  have hd {d : Opnd} {r : List Use} : dst64 d ∈ dst64 d :: r := List.mem_cons_self ..
  refine ⟨?_,
    frontEnd_pair hd (f := fun e l => w64 (f64.fmaC (arithOf x3.m) (modIn f64 x3.m 0 (e.g.rd64 x3.a l).toNat)
      (modIn f64 x3.m 1 (e.g.rd64 x3.b l).toNat) (modIn f64 x3.m 2 (e.g.rd64 x3.c l).toNat))),
    frontEnd_result (f := fun e l => cmpResult e.g x (cmpCodes f64 x (e.g.rd64 x.a l).toNat (e.g.rd64 x.b l).toNat) l)⟩
  simp only [two, List.forall_mem_cons]
  exact ⟨frontEnd_double2 hd, frontEnd_double2 hd, frontEnd_double2 hd, frontEnd_double2 hd, execFfrexp_result, List.forall_mem_nil _⟩

end Sys2Proof.Machine
end

section
/-!
SUPPORT. Packing, scale and dot forms: the ends of forms with one register, a pair or a quad, each with its rule's function of the sources
(R154, R159, R162 to R166).
-/

namespace Sys2Proof.Machine

/-! ## The values of the rules in a lane -/

/-- The dot product of floating elements, `w` bits apart, with D as its addend: every product exact, and one rounding (R165). -/
def dotFloatLane (x : FmtR) (w : Nat) (fa fb : FFmt) (g : Group) (l : Nat) : Word :=
  w32 (f32.finish (arithOf x.m) (exactSum ((arithOf x.m).rnd == .rdn)
    (f32.inp (arithOf x.m) (g.rd x.d l).toNat :: (List.range (32 / w)).map (fun i => Num.mul
      (fa.inp (arithOf x.m) (modIn fa x.m 0 (dotElem g fa w x.a i l)))
      (fb.inp (arithOf x.m) (modIn fb x.m 1 (dotElem g fb w x.b i l)))))))

/-- An element of an integer dot form, read under its type (R166). -/
def dotIntElem (w t : Nat) (g : Group) (o : Opnd) (l i : Nat) : Int :=
  intOfBits (intOfType t).1 w (match o with
    | .const n => constElem none w n
    | o => elemAt w i (g.rd o l).toNat)

/-- The exact dot product of integer elements, with D as its addend (R166). -/
def dotIntSum (x : FmtR) (w : Nat) (g : Group) (l : Nat) : Int :=
  (List.range (32 / w)).foldl (fun a i => a + dotIntElem w (fldC x.c 5 5) g x.a l i * dotIntElem w (fldC x.c 0 5) g x.b l i)
    (g.rd x.d l).toInt

/-- The dot product of integer elements: clamped under SAT, otherwise truncated (R166). -/
def dotIntLane (x : FmtR) (w : Nat) (g : Group) (l : Nat) : Word :=
  BitVec.ofInt 32 (if x.m.getLsbD 7 then clampInt (-(2 ^ 31)) (2 ^ 31 - 1) (dotIntSum x w g l) else dotIntSum x w g l)

/-- The scale that the magnitude in A needs (R154). -/
def scalexLane (x : FmtR) (g : Group) (l : Nat) : Word :=
  w32 (scaleOf (if x.c.getLsbD 3 then decide (2 ^ 31 ≤ (g.rd x.a l).toNat) else f32.isNaN (g.rd x.a l).toNat)
    (f32.value (f32.flush (x.m.getLsbD 8) ((g.rd x.a l).toNat % 2 ^ 31))) (fldC x.c 5 5) (x.c.getLsbD 4))

/-- The lanes of a segment of BLKMAX (R159). -/
def blkSegment (c : BitVec 10) : Nat :=
  match fldC c 7 2 with
  | 0 => 32
  | 1 => 16
  | 2 => 8
  | _ => 4

/-- What a lane gives to BLKMAX, in the layout of AMAX: its AMAX register, or A with bit 31 for a NaN (R159). -/
def blkMagnitude (x : FmtR) (g : Group) (l : Nat) : Nat :=
  if x.c.getLsbD 9 then (g.amaxOf l).toNat
  else if f32.isNaN (f32.flush (x.m.getLsbD 8) (g.rd x.a l).toNat) then 2 ^ 31
  else f32.flush (x.m.getLsbD 8) (g.rd x.a l).toNat % 2 ^ 31

/-- The largest magnitude among the lanes of `v` in a lane's segment, with bit 31 where one of them gives a NaN (R159). -/
def blkmaxLane (x : FmtR) (g : Group) (v : Mask) (l : Nat) : Word :=
  let ls := (lanesOf v).filter (fun j => j / blkSegment x.c == l / blkSegment x.c)
  w32 (ls.foldl (fun a j => max a (blkMagnitude x g j % 2 ^ 31)) 0 +
    if ls.any (fun j => decide (2 ^ 31 ≤ blkMagnitude x g j)) then 2 ^ 31 else 0)

/-! ## The shapes -/

section
variable {i : Instr} {s : State} {x : FmtR}

/-- A form with a quad as its destination, whole: its operand table says that the destination is no predicate. -/
theorem frontEnd_quad {d : Opnd} {f : Fe → Nat → Nat → Word} {k : Guard} (hd : spanDst 4 d ∈ (form i).uses) (h : s.passes i = true) :
    ∃ t, frontEnd i k s (fun e => e.done (e.g.write128 d e.act (f e))) = .next t ∧ Result128 s t k d (f (s.fe k)) := by
  rw [frontEnd_passes h]
  exact Fe.done128_spec s k d _ (not_p_of_spanDst h hd (by decide))

/-- A floating dot form, whole. -/
theorem frontEnd_dotFloat {w : Nat} {fa fb : FFmt} (h : s.passes i = true) : ∃ t, frontEnd i x.g s (dotFloat x w fa fb) = .next t ∧
    Result32 s t x.g x.d (dotFloatLane x w fa fb s.cur) := frontEnd_result h

/-- An integer dot form, whole. -/
theorem frontEnd_dotInt {w : Nat} (h : s.passes i = true) : ∃ t, frontEnd i x.g s (dotInt x w) = .next t ∧
    Result32 s t x.g x.d (dotIntLane x w s.cur) := frontEnd_result (f := fun e => dotIntLane x w e.g) h

/-- SCALEX, whole. -/
theorem execScalex_result (h : s.passes (.scalex x) = true) : ∃ t, execScalex x s = .next t ∧
    Result32 s t x.g x.d (scalexLane x s.cur) := frontEnd_result h

/-- BLKMAX, whole: the lanes of V are those of ACT but for the helpers (R158, R159). -/
theorem execBlkmax_result (h : s.passes (.blkmax x) = true) : ∃ t, execBlkmax x s = .next t ∧
    Result32 s t x.g x.d (blkmaxLane x s.cur (s.actOf x.g &&& ~~~(s.cur.helpers s.curBlock))) :=
  frontEnd_result (f := fun e => blkmaxLane x e.g e.v) h

end

/-! ## The obligation -/

/-- Settles O6: each form, in the statement's order, is a shape above with its rule's function of the sources; PACK4 and PACK8 have none in
common, and their function of the group's sources is given. -/
theorem packAndDotResults : Obligations.PackAndDotResults := by
  intro x s span seg v mag same fdot ielem isum idot one
  refine ⟨?_, frontEnd_pair (List.mem_cons_self ..) (f := fun e l => unpkElem e.g x 16 1 l ++ unpkElem e.g x 16 0 l),
    frontEnd_quad (List.mem_cons_self ..) (f := fun e i l => unpkElem e.g x 8 i l),
    frontEnd_quad (List.mem_cons_self ..) (f := fun e i l => unpkElem e.g x 4 (4 * fldC x.c 1 1 + i) l)⟩
  simp only [one, List.forall_mem_cons]
  exact ⟨
    -- PACK2, PACK4 and PACK8 (R162)
    frontEnd_lanes2,
    frontEnd_result (f := fun e l => w32 (packElems 8 ((List.range 4).map (fun i => (e.g.rdSpan x.a i l).toNat)))),
    frontEnd_result (f := fun e l => w32 (packElems 4 ((List.range 4).map (fun i => (e.g.rdSpan x.a i l).toNat) ++
      (List.range 4).map (fun i => (e.g.rdSpan x.b i l).toNat)))),
    -- SCALEX and BLKMAX (R154, R159)
    execScalex_result, execBlkmax_result,
    -- DOT2H, DOT2B, DOT8E and DOT4E (R165)
    frontEnd_dotFloat, frontEnd_dotFloat, frontEnd_dotFloat, frontEnd_dotFloat,
    -- DOT4I, DOT8I and IDP2 (R166)
    frontEnd_dotInt, frontEnd_dotInt, frontEnd_dotInt, List.forall_mem_nil _⟩

end Sys2Proof.Machine
end

section
/-!
SUPPORT. Cross-lane and group-collective forms with a 32-bit result: each ends with a value over the sources of its lanes, over V and over ACT
(R167 to R181).
-/

namespace Sys2Proof.Machine

/-! ## The values of the rules in a lane -/

/-- The combination of A over some lanes under OP of REDUX and SCAN; the identity where there is none (R173). -/
def intOver (x : FmtR) (g : Group) (ls : List Nat) : Word :=
  ls.foldl (fun r j => intOp (fldC x.c 0 3) (x.c.getLsbD 3) r (g.rd x.a j)) (intIdentity (fldC x.c 0 3) (x.c.getLsbD 3))

/-- A float combination as a word: the identity of FOP where no lane contributes, and NaN in its canonical form (R174). -/
def floatWord (x : FmtR) (r : Option Nat) : Word := w32 (canonNaN (r.getD (floatIdentity (fldC x.c 0 2))))

/-- The combination of A, read as f32, over the tree of the 32 lanes (R174). -/
def floatTree (x : FmtR) (g : Group) (v : Mask) : Word :=
  floatWord x (treeRoot (floatOp (fldC x.c 0 2) (redArith x.m))
    ((List.range 32).map (fun l => if v.getLsbD l then some (redInput x.m (g.rd x.a l)) else none)))

/-- The combination of A, read as f32, over some lanes in list order (R175). -/
def floatOver (x : FmtR) (g : Group) (ls : List Nat) : Word :=
  floatWord x (foldOpt (floatOp (fldC x.c 0 2) (redArith x.m)) (ls.map (fun j => redInput x.m (g.rd x.a j))))

/-- What MATCH compares in a lane: a pair with W64, otherwise a word (R172). -/
def matchKey (x : FmtR) (g : Group) (l : Nat) : Dword := if fldC x.c 1 1 = 1 then g.rd64 x.a l else (g.rd x.a l).setWidth 64

/-- The mask that MATCH gives a lane: the lanes of V with its value, or V where all hold one value (R172). -/
def matchMask (x : FmtR) (g : Group) (v : Mask) (l : Nat) : Mask :=
  if fldC x.c 0 1 = 0 then maskOf ((lanesOf v).filter (fun j => matchKey x g j == matchKey x g l))
  else if (lanesOf v).all (fun j => matchKey x g j == matchKey x g (lowest v)) then v else 0

/-- The lanes of V that RANK counts for a lane: those with its value, with CNT all of them, otherwise the lower ones (R179). -/
def rankLanes (x : FmtR) (g : Group) (v : Mask) (l : Nat) : List Nat :=
  (lanesOf v).filter (fun j => g.rd x.a j == g.rd x.a l && (x.c.getLsbD 0 || j < l))

/-- The lanes of V in the order of SORTG's keys, equal keys in lane order (R180). -/
def sortedLanes (x : FmtR) (g : Group) (v : Mask) : List Nat :=
  sortLanes (fun i j => sortLe (x.c.getLsbD 0) (x.c.getLsbD 1) (g.rd x.a i) (g.rd x.a j)) (lanesOf v)

/-- EXPAND's value in a lane: A of the lane of ACT that stands where it stands among the selected lanes; 0 in a lane not selected (R181). -/
def expandLane (x : FmtR) (g : Group) (act : Mask) (sel : List Nat) (l : Nat) : Word :=
  if sel.contains l then g.rdAt x.a ((lanesOf act).getD (sel.filter (fun j => j < l)).length 0) else 0

/-- A shuffle, whole: A of the lane that its form and BND give, or 0 (R169). -/
theorem frontEnd_shfl {i : Instr} {s : State} {x : FmtR} {n : Nat} (h : s.passes i = true) : ∃ t, frontEnd i x.g s (shfl n x) = .next t ∧
    Result32 s t x.g x.d (fun l => match shflLane n x.c l (s.src x.b l) with
      | some j => s.cur.rdAt x.a j
      | none => 0) := frontEnd_result h

/-! ## The obligation -/

/-- Settles O8: each form, in the statement's order, ends with its rule's function of the group's sources, of V and of ACT. -/
theorem crossLaneResults : Obligations.CrossLaneResults := by
  intro x s act v a op sg ex val from_ sel shuffle forms
  simp only [forms, List.forall_mem_cons]
  exact ⟨
    -- SHFLI, SHFLA, SHFLB and SHFLX (R169)
    frontEnd_shfl, frontEnd_shfl, frontEnd_shfl, frontEnd_shfl,
    -- QSWAP and QBCAST (R170)
    frontEnd_result (f := fun e l => e.g.rdAt x.a (l ^^^ (fldC x.c 0 2 + 1))),
    frontEnd_result (f := fun e l => e.g.rdAt x.a (4 * (l / 4) + fldC x.c 0 2)),
    -- VOTE and MATCH (R171, R172)
    frontEnd_result (f := fun e _ => voteWord (fldC x.c 0 2) e.v (maskOf ((lanesOf e.v).filter (fun j => e.g.rd x.a j != 0)))),
    frontEnd_result (f := fun e => matchMask x e.g e.v),
    -- REDUX and SCAN (R173)
    frontEnd_result (f := fun e _ => intOver x e.g (lanesOf e.v)),
    frontEnd_result (f := fun e l => intOver x e.g (scanLanes e.v ex l)),
    -- REDUXF and SCANF (R174, R175)
    frontEnd_result (f := fun e _ => floatTree x e.g e.v),
    frontEnd_result (f := fun e l => floatOver x e.g (scanLanes e.v ex l)),
    -- SEGRED and SEGSCAN (R176)
    frontEnd_result (f := fun e l => segValue x e.g (segLanes e.g x.b e.v l)),
    frontEnd_result (f := fun e l => segValue x e.g ((segLanes e.g x.b e.v l).filter (fun j => if ex then j < l else j ≤ l))),
    -- ELECT and ACTMASK (R177)
    frontEnd_result (f := fun e l => boolWord (e.v != 0 && l == lowest e.v)),
    frontEnd_result (f := fun e _ => if x.c.getLsbD 0 then e.v else e.act),
    -- BCAST (R178)
    frontEnd_result (f := fun e _ => e.g.rdAt x.a (e.bcastLane x.c)),
    -- RANK and SORTG (R179, R180)
    frontEnd_result (f := fun e l => w32 (rankLanes x e.g e.v l).length),
    frontEnd_result (f := fun e l => ((sortedLanes x e.g e.v).map (e.g.rd x.b)).getD (lanePos e.act l) 0),
    -- COMPACT and EXPAND (R181)
    frontEnd_result (f := fun e l => ((e.selected x.b).map (e.g.rd x.a)).getD (lanePos e.act l) 0),
    frontEnd_result (f := fun e => expandLane x e.g e.act (e.selected x.b)), List.forall_mem_nil _⟩

end Sys2Proof.Machine
end

section
/-!
SUPPORT. Element words: what a firing leaves of its effect, what the core-level fault of a placed image leaves, and the writes of a trigger
context in the lanes of X (R182, R190, R197, R208, R435).
-/

namespace Sys2Proof.Machine

/-! ## Readiness and firing (R186, R190) -/

/-- A ready slot has its inputs, and will do its form's effect in its executed lanes under its header. -/
theorem ElemForm.ready_some {m : ElemForm} {f : Firing} {r : Effect} (h : m.ready f = some r) :
    m.inputs f = true ∧ ∃ xs, m.lanes f = some xs ∧ r = m.eff f xs (m.header f) := by
  unfold ElemForm.ready at h
  split at h
  · contradiction
  · split at h
    · contradiction
    · next hin =>
      simp only [Bool.not_eq_true', Bool.not_eq_false, Bool.and_eq_true] at hin
      split at h
      · contradiction
      · next xs hxs =>
        extract_lets e at h
        split at h
        · exact ⟨hin.1, xs, hxs, (Option.some.inj h).symm⟩
        · contradiction

/-- The effect of a firing, by its executed lanes. -/
theorem ElemForm.goes.effect {m : ElemForm} {f : Firing} {r : Effect} {xs : Byte} (h : m.goes f r) (hl : m.lanes f = some xs) :
    r = m.eff f xs (m.header f) := by
  obtain ⟨-, ys, hys, hr⟩ := ElemForm.ready_some h.1
  rw [hr, Option.some.inj (hl.symm.trans hys)]

theorem ElemForm.goes.inputs {m : ElemForm} {f : Firing} {r : Effect} (h : m.goes f r) : m.inputs f = true := (ElemForm.ready_some h.1).1

theorem Firing.fired_ctx (f : Firing) (m : ElemForm) (r : Effect) (chs : SMap Channel) (k : Nat) :
    (f.fired m r chs).ctx k = if f.k = k then { r.t with hdr := m.header f } else f.e.ctx k := SMap.get_set ..

/-- A firing, by its executed lanes: the context and the tokens of its effect. -/
theorem State.fire_effect {s : State} {m : ElemForm} {x : ElemWord} {r : Effect} {xs : Byte} {f : Firing}
    (hf : f = s.firing s.curCore s.curElem s.curElemSlot x) (h : m.goes f r) (hl : m.lanes f = some xs) :
    ∃ t, s.fire m x = .next t ∧ MemorySame s t ∧ GroupsSame s t ∧ ElemsSame s t s.curCore s.curElem ∧
      ((t.core s.curCore).elem s.curElem).ctx f.k = { (m.eff f xs (m.header f)).t with hdr := m.header f } ∧
      (t.core s.curCore).hops = f.c.hops ++ f.sent (m.eff f xs (m.header f)).sends := by
  obtain ⟨t, chs, ht, hmem, hgroups, helems, he, -, hhops⟩ := State.fire_goes hf h
  rw [h.effect hl] at he hhops
  refine ⟨t, ht, hmem, hgroups, helems, ?_, hhops⟩
  rw [he, Firing.fired_ctx, if_pos rfl]

/-- A head of the wrong type or a sticky count that disagrees ends in a fault of the element (R185, R192). -/
theorem ElemForm.apply_fault {m : ElemForm} {f : Firing} {r : Effect} {s : State}
    (h : ((m.typeFault f).isSome || (m.stickyFault f r.deqs).isSome) = true) : ∃ cause sub n, m.apply f r s = f.fault s cause sub n := by
  unfold ElemForm.apply
  cases ht : m.typeFault f with
  | some n => exact ⟨_, _, _, rfl⟩
  | none =>
    rw [ht] at h
    obtain ⟨p, hp⟩ := Option.isSome_iff_exists.mp (h : (m.stickyFault f r.deqs).isSome = true)
    simp only [hp]
    exact ⟨_, _, _, rfl⟩

/-! ## The core-level fault of a placed image (R338, R435) -/

/-- A core but for what the post of a fault record touches: its fault count, the records it keeps, its copy queue and the marks of its
windows. -/
def Core.unposted (c : Core) : Core :=
  { c with
    coreFaults := 0
    heldFaults := []
    copyq := []
    marks := [] }

theorem State.setCore_unposted {s : State} {k : Nat} {x : Core} (h : x.unposted = (s.core k).unposted) (j : Nat) :
    ((s.setCore k x).core j).unposted = (s.core j).unposted := by
  rw [State.setCore_core]
  split
  · subst_vars; exact h
  · rfl

theorem State.giveSeq_unposted (s : State) (r : FaultRec) (seq : Dword) (j : Nat) :
    ((s.giveSeq r seq).core j).unposted = (s.core j).unposted := by
  unfold State.giveSeq
  extract_lets k c mine give
  split
  · exact State.setCore_unposted (by rfl) j
  · rfl

theorem State.ringWrite_unposted (s : State) (part : Nat) (r : FaultRec) (j : Nat) :
    ((s.ringWrite part r).core j).unposted = (s.core j).unposted :=
  (State.giveSeq_unposted ..).trans ((State.hubWrite_hubStep ..).core_part Core.unposted (fun _ => rfl) j)

theorem State.postFault_unposted (s : State) (part core : Nat) (r : FaultRec) (j : Nat) :
    ((s.postFault part core r).core j).unposted = (s.core j).unposted := by
  unfold State.postFault
  extract_lets p o c
  split
  · exact State.ringWrite_unposted ..
  · split
    · rfl
    · split
      · rfl
      · exact State.setCore_unposted (by rfl) j

theorem State.coreFault_unposted (s : State) (core blk cause sub addr detail j : Nat) :
    ((s.coreFault core blk cause sub addr detail).core j).unposted = (s.core j).unposted :=
  (State.postFault_unposted ..).trans (State.setCore_unposted (by rfl) j)

/-- A region that stops wakes groups; it changes nothing else of its core. -/
theorem Core.wakeFx_eq (c : Core) (blk rgn status : Nat) : c.wakeFx blk rgn status = { c with groups := (c.wakeFx blk rgn status).groups } := by
  unfold Core.wakeFx
  generalize (c.block blk).slots = l
  induction l generalizing c with
  | nil => rfl
  | cons i r ih =>
    rw [List.foldl_cons, ih]
    split <;> rfl

/-- The core-level fault of a region makes it FAULTED; tokens and elements stay. -/
theorem State.placedFault_region {s : State} {core pi : Nat} (cause sub addr detail : Nat) (h : ((s.core core).placedAt pi).copy = none) :
    let c := (s.placedFault core pi cause sub addr detail).core core
    (c.placedAt pi).region = some .faulted ∧ c.hops = (s.core core).hops ∧ c.elems = (s.core core).elems := by
  unfold State.placedFault
  extract_lets p s1 c d
  have hpost : c.unposted = (s.core core).unposted := State.coreFault_unposted ..
  have hd : d = (c.setPlaced pi { p with region := some .faulted }).wakeFx p.blk p.rgn 1 := by
    unfold d
    rw [show p.copy = none from h]
    exact State.core_setCore_same ..
  rw [hd, Core.wakeFx_eq]
  exact ⟨congrArg Placed.region (Core.placedAt_setPlaced_same ..), (congrArg Core.hops hpost :), (congrArg Core.elems hpost :)⟩

/-- A fault of an element of a region makes the region FAULTED; tokens and elements stay. -/
theorem Firing.fault_region {f : Firing} {s : State} (cause sub chan : Nat) (h : ((s.core f.core).placedAt f.pi).copy = none) :
    let c := (f.fault s cause sub chan).core f.core
    (c.placedAt f.pi).region = some .faulted ∧ c.hops = (s.core f.core).hops ∧ c.elems = (s.core f.core).elems :=
  State.placedFault_region _ _ _ _ h

/-! ## The context's writes (R190, R208) -/

/-- Changing keys of a sparse map once each, every one from what it held. -/
theorem SMap.get_foldl_update {α : Type} [DecidableEq α] (d : α) (L : List Nat) (hL : L.Nodup) (m : SMap α) (g : Nat → α → α) (j : Nat) :
    SMap.get d (L.foldl (fun m l => SMap.set d m l (g l (SMap.get d m l))) m) j = if j ∈ L then g j (SMap.get d m j) else SMap.get d m j := by
  induction L generalizing m with
  | nil => rfl
  | cons i r ih =>
    obtain ⟨hi, hr⟩ := List.nodup_cons.mp hL
    rw [List.foldl_cons, ih hr, SMap.get_set]
    by_cases hij : i = j
    · subst hij
      simp [hi]
    · simp [hij, Ne.symm hij]

/-- The bits that a byte gains, one lane after the other. -/
theorem getLsbD_foldl_lane (p : Nat → Bool) (L : List Nat) (b : Byte) {l : Nat} (hl : l < 8) :
    (L.foldl (fun (b : Byte) l => if p l then b ||| (1#8 <<< l) else b) b).getLsbD l = (b.getLsbD l || (L.contains l && p l)) := by
  induction L generalizing b with
  | nil => simp
  | cons i r ih =>
    rw [List.foldl_cons, ih]
    by_cases hi : l = i
    · subst hi
      cases p l <;> simp [hl]
    · have hbit : (1#8 <<< i).getLsbD l = false := by
        rw [BitVec.getLsbD_shiftLeft, BitVec.getLsbD_one]
        grind
      cases p i <;> simp [hi, hbit]

/-- The lanes of X, of eight. -/
def lanesOfByte (xs : Byte) : List Nat := (List.range 8).filter (fun l => xs.getLsbD l)

theorem mem_lanesOfByte {xs : Byte} {l : Nat} : l ∈ lanesOfByte xs ↔ l < 8 ∧ xs.getLsbD l = true := by
  simp [lanesOfByte]

section
variable (t : Ctx) (n : Nat) (xs : Byte) (h : Word)

theorem Ctx.setD_dreg (v : Nat → Word) {k l : Nat} (hl : l < 8) :
    (t.setD n xs v).dreg k l = if n = k ∧ xs.getLsbD l = true then v l else t.dreg k l := by
  have hset := SMap.get_foldl_set 0 ((lanesOfByte xs).map (8 * n + ·)) t.d (fun j => v (j - 8 * n)) (8 * k + l)
  simp only [List.foldl_map, Nat.add_sub_cancel_left] at hset
  have hmem : 8 * k + l ∈ (lanesOfByte xs).map (8 * n + ·) ↔ n = k ∧ xs.getLsbD l = true := by
    simp only [List.mem_map, mem_lanesOfByte]
    constructor
    · rintro ⟨i, ⟨hi, hx⟩, he⟩
      obtain ⟨rfl, rfl⟩ : n = k ∧ i = l := by omega
      exact ⟨rfl, hx⟩
    · rintro ⟨rfl, hx⟩
      exact ⟨l, ⟨hl, hx⟩, rfl⟩
  refine hset.trans ?_
  simp only [hmem]
  split
  · next hk => rw [← hk.1, Nat.add_sub_cancel_left]
  · rfl

@[simp] theorem Ctx.setPred_d (v : Nat → Bool) : (t.setPred n xs v).d = t.d := by
  unfold Ctx.setPred
  split <;> rfl

theorem Ctx.setPred_pred (v : Nat → Bool) {l : Nat} (hl : l < 8) :
    ((t.setPred n xs v).pred n).getLsbD l = if n ≠ 7 ∧ xs.getLsbD l = true then v l else (t.pred n).getLsbD l := by
  unfold Ctx.setPred
  by_cases hn : n = 7
  · simp [hn]
  · rw [if_neg hn]
    unfold Ctx.pred
    simp only [if_neg hn, SMap.get_set_same, BitVec.getLsbD_or, BitVec.getLsbD_and, BitVec.getLsbD_not, getLsbD_foldl_lane _ _ _ hl]
    cases xs.getLsbD l <;> simp [hn, hl]

/-- The accumulator of a lane of X takes its word by OPACC (R208). -/
theorem Ctx.accumulate_accv (v : Nat → Word) {l : Nat} (hl : l < 8) : SMap.get 0 (t.accumulate xs h v).accv l =
    if xs.getLsbD l = true then opAcc (accOp t.accmode) (SMap.get 0 t.accv l) (v l) else SMap.get 0 t.accv l := by
  have hfold := SMap.get_foldl_update 0 (lanesOfByte xs) (List.nodup_range.filter _) t.accv (fun l a => opAcc (accOp t.accmode) a (v l)) l
  simp only [mem_lanesOfByte, hl, true_and] at hfold
  unfold Ctx.accumulate
  extract_lets
  split
  · split <;> exact hfold
  · exact hfold

theorem Ctx.accumulate_ecnt (v : Nat → Word) :
    (t.accumulate xs h v).ecnt = if hdrEnd h (accLvl t.accmode) = true then (t.ecnt + 1) % 256 else t.ecnt := by
  unfold Ctx.accumulate
  extract_lets
  split
  · split <;> rfl
  · rfl

/-- The accumulator is ready after the count of END that ACCMODE names (R208). -/
theorem Ctx.accumulate_ardy (v : Nat → Word) :
    (t.accumulate xs h v).ardy = (hdrEnd h (accLvl t.accmode) && (t.ecnt + 1) % 256 == accN t.accmode || t.ardy) := by
  unfold Ctx.accumulate
  extract_lets v t1 n
  split
  · next he =>
    split
    · next hn => rw [he, beq_iff_eq.mpr hn]; rfl
    · next hn => rw [he, beq_eq_false_iff_ne.mpr hn]; rfl
  · next he => rw [Bool.eq_false_iff.mpr he]; rfl

@[simp] theorem Ctx.accumulate_d (v : Nat → Word) : (t.accumulate xs h v).d = t.d := by
  unfold Ctx.accumulate
  extract_lets
  split
  · split <;> rfl
  · rfl

end

end Sys2Proof.Machine
end

section
/-!
SUPPORT. Readiness, firing and faults of every element form (R186, R190, R193, R198).
-/

namespace Sys2Proof.Machine

/-- NOP is never ready (R198). -/
theorem formElemNop_ready (f : Firing) : formElemNop.ready f = none := by
  cases h : formElemNop.ready f with
  | none => rfl
  | some r => exact absurd (ElemForm.ready_some h).1 Bool.false_ne_true

/-- A ready slot that meets a fault of R185 or R192 makes its region FAULTED, and sends nothing. -/
theorem State.fire_faults {s : State} {m : ElemForm} {x : ElemWord} {r : Effect} {f : Firing}
    (hf : f = s.firing s.curCore s.curElem s.curElemSlot x) (hr : m.ready f = some r) (hp : f.p.copy = none)
    (hbad : ((m.typeFault f).isSome || (m.stickyFault f r.deqs).isSome) = true) :
    ∃ t, s.fire m x = .next t ∧ ((t.core s.curCore).placedAt f.pi).region = some .faulted ∧ (t.core s.curCore).hops = f.c.hops := by
  obtain ⟨cause, sub, n, ha⟩ := ElemForm.apply_fault (s := s) hbad
  subst hf
  obtain ⟨hregion, hhops, -⟩ := Firing.fault_region (f := s.firing s.curCore s.curElem s.curElemSlot x) cause sub n hp
  refine ⟨_, ?_, hregion, hhops⟩
  simp only [State.fire, hr, ha]

/-- A starved slot makes its region FAULTED, and its count starts again (R193). -/
theorem execCarillonStarve_faults {s : State} {core elem slot : Nat} (hown : ((s.core core).elem elem).owner ≠ 0)
    (hdog : 8 ≤ ((s.core core).elem elem).wdog)
    (hcount : 2 ^ ((s.core core).elem elem).wdog ≤ SMap.get 0 ((s.core core).elem elem).wcount slot)
    (hcopy : ((s.core core).placedAt (((s.core core).elem elem).owner - 1)).copy = none) :
    ∃ t, execCarillonStarve core elem slot s = .next t ∧
      ((t.core core).placedAt (((s.core core).elem elem).owner - 1)).region = some .faulted ∧
      SMap.get 0 ((t.core core).elem elem).wcount slot = 0 := by
  unfold execCarillonStarve
  extract_lets e f e1
  rw [if_pos ⟨hown, hdog, hcount⟩]
  set u := s.setCore core ((s.core core).setElem elem e1)
  have hu : u.core core = (s.core core).setElem elem e1 := State.core_setCore_same ..
  have hp : ((u.core f.core).placedAt f.pi).copy = none := by
    rw [show f.core = core from rfl, hu]
    exact hcopy
  obtain ⟨hregion, -, helems⟩ := Firing.fault_region 0x20 0 0xFF hp
  refine ⟨_, rfl, hregion, ?_⟩
  have he : ((f.fault u 0x20 0 0xFF).core core).elem elem = e1 := by
    unfold Core.elem
    rw [show ((f.fault u 0x20 0 0xFF).core core).elems = (u.core core).elems from helems, hu]
    exact SMap.get_set_same ..
  rw [he]
  exact SMap.get_set_same 0 e.wcount slot 0

/-- Settles O36: the meaning of each word is the firing of its form, and each clause is a law of firings. -/
theorem elementFirings : Obligations.ElementFirings := by
  intro x s f forms
  have runs : ∀ q ∈ forms, exec q.1 s = s.fire q.2 x := by
    simp only [forms, List.forall_mem_cons, List.not_mem_nil, false_implies, implies_true, and_true]
    and_intros <;> rfl
  refine ⟨State.fire_idle (formElemNop_ready f), fun q hq hr => ?_, fun q hq r hg => ?_, fun q hq r hr hp hbad => ?_,
    fun core elem slot => execCarillonStarve_faults⟩
  · rw [runs q hq]
    exact State.fire_idle hr
  · obtain ⟨t, chs, ht, hmem, hgroups, helems, he, hchs, hhops⟩ := State.fire_goes (f := f) rfl hg
    rw [runs q hq]
    refine ⟨t, ht, hmem, hgroups, helems, ?_⟩
    rw [he]
    refine ⟨?_, fun k hk => ?_, rfl, hchs, hhops⟩
    · rw [Firing.fired_ctx, if_pos rfl]
    · rw [Firing.fired_ctx, if_neg hk.symm]
  · rw [runs q hq]
    exact State.fire_faults rfl hr hp hbad

end Sys2Proof.Machine
end

section
/-!
SUPPORT. The element forms that compute one word in each executed lane: their rules, and what the common effect leaves (R190, R195, R196, R204).
-/

namespace Sys2Proof.Machine

/-! ## The rules of R195 in words -/

theorem mulHigh_unsigned (a b : Word) : mulHigh false a b = ((a.setWidth 64 * b.setWidth 64 : Dword)).extractLsb' 32 32 := by
  have hprod : (BitVec.ofInt 64 ((a.toNat : Int) * b.toNat) : Dword) = a.setWidth 64 * b.setWidth 64 := by
    rw [← Nat.cast_mul, BitVec.ofInt_natCast, BitVec.ofNat_mul, BitVec.ofNat_toNat, BitVec.ofNat_toNat]
  exact congrArg (BitVec.extractLsb' 32 32) hprod

theorem minWord_signed (a b : Word) : minWord true a b = if b.slt a then b else a := by
  simp [minWord, extInt, BitVec.slt]

theorem maxWord_signed (a b : Word) : maxWord true a b = if a.slt b then b else a := by
  simp [maxWord, extInt, BitVec.slt]

theorem intCond_le_signed (a b : Word) : intCond 3 true a b = a.sle b :=
  (BitVec.sle_eq_slt_or_eq (x := a) (y := b)).symm

theorem intCond_le_unsigned (a b : Word) : intCond 3 false a b = a.ule b := by
  rw [Bool.eq_iff_iff]
  simp only [intCond, Bool.false_eq_true, if_false, Bool.or_eq_true, BitVec.ult_iff_lt, BitVec.ule_iff_le, beq_iff_eq]
  bv_omega

/-- A form of two sources computes a rule that its function equals. -/
theorem elem2_eff_congr {g g' : Word → Word → Word} (h : ∀ a b, g a b = g' a b) (f : Firing) :
    (elem2 g).eff f = fun xs h => f.result xs h (fun l => g' (f.src f.x.sa l) (f.src f.x.sb l)) := by
  rw [show g = g' from funext fun a => funext (h a)]
  rfl

/-! ## The common effect (R190) -/

/-- The d registers after a result: those that DA and DB name hold it in the lanes of X. -/
theorem Firing.written_dreg (f : Firing) (xs : Byte) (h : Word) (g : Nat → Word) {k l : Nat} (hk : k < 8) (hl : l < 8) :
    (f.written xs h g).dreg k l = if (f.x.da.toNat = 4 + k ∨ (f.x.da ≠ 12 ∧ f.x.db.toNat = 5 + k)) ∧ xs.getLsbD l = true then g l
      else f.t.dreg k l := by
  have h12 : f.x.da = 12 ↔ f.x.da.toNat = 12 := BitVec.toNat_inj.symm
  unfold Firing.written
  extract_lets a b t
  have ht : t.dreg k l = if a = 4 + k ∧ xs.getLsbD l = true then g l else f.t.dreg k l := by
    unfold t
    split
    · next ha =>
      have hreg : a - 4 = k ↔ a = 4 + k := by omega
      simp only [Ctx.setD_dreg _ _ _ _ hl, hreg]
    · next ha =>
      have hreg : a ≠ 4 + k := by omega
      simp only [hreg, false_and, if_false]
      split
      · exact congrArg (SMap.get 0 · (8 * k + l)) (Ctx.setPred_d ..)
      · split
        · exact congrArg (SMap.get 0 · (8 * k + l)) (Ctx.accumulate_d ..)
        · rfl
  simp only [ne_eq, h12]
  split
  · next hb =>
    have hreg : b - 5 = k ↔ b = 5 + k := by omega
    rw [Ctx.setD_dreg _ _ _ _ hl, ht]
    grind
  · next hb =>
    have hreg : ¬ (a ≠ 12 ∧ b = 5 + k) := by omega
    exact ht.trans (if_congr (and_congr_left' (or_iff_left hreg).symm) rfl rfl)

/-- A form whose effect is the common one: the context and the tokens of its rule. -/
theorem State.fire_result {s : State} {m : ElemForm} {x : ElemWord} {r : Effect} {xs : Byte} {f : Firing} {g : Nat → Word}
    (hf : f = s.firing s.curCore s.curElem s.curElemSlot x) (hm : m.eff f = fun xs h => f.result xs h g) (h : m.goes f r)
    (hl : m.lanes f = some xs) : ∃ t, s.fire m x = .next t ∧ MemorySame s t ∧ GroupsSame s t ∧
      ElemsSame s t s.curCore s.curElem ∧
      (∀ k l, k < 8 → l < 8 → (((t.core s.curCore).elem s.curElem).ctx f.k).dreg k l =
        if (f.x.da.toNat = 4 + k ∨ (f.x.da ≠ 12 ∧ f.x.db.toNat = 5 + k)) ∧ xs.getLsbD l = true then g l else f.t.dreg k l) ∧
      (t.core s.curCore).hops = f.c.hops ++ f.sent (f.outPorts.map (fun n =>
        (n, tokenOf (hdrTyped (m.header f) false) (fun l => if xs.getLsbD l then g l else 0)))) := by
  obtain ⟨t, ht, hmem, hgroups, helems, hctx, hhops⟩ := State.fire_effect hf h hl
  rw [hm] at hctx hhops
  refine ⟨t, ht, hmem, hgroups, helems, fun k l hk hl8 => ?_, hhops⟩
  rw [hctx]
  exact f.written_dreg xs _ g hk hl8

/-- Settles O35: each word's meaning is the firing of its form, whose effect is the common one with the rule that the statement gives. -/
theorem elementResults : Obligations.ElementResults := by
  intro x s f a b e cmp fl fc forms
  have runs : ∀ q ∈ forms, exec q.1 s = s.fire q.2.1 x := by
    simp only [forms, List.forall_mem_cons, List.not_mem_nil, false_implies, implies_true, and_true]
    and_intros <;> rfl
  have computes : ∀ q ∈ forms, q.2.1.eff f = fun xs h => f.result xs h q.2.2 := by
    simp only [forms, List.forall_mem_cons]
    exact ⟨
      -- ADD, SUB, MUL, MULH, MAD, MIN and MAX
      rfl, rfl, rfl, elem2_eff_congr mulHigh_unsigned f, rfl, elem2_eff_congr minWord_signed f, elem2_eff_congr maxWord_signed f,
      -- AND to NOT, the shifts, the counts, SEL and LSEL
      rfl, rfl, rfl, rfl, rfl, rfl, rfl, rfl, rfl, rfl, rfl, rfl,
      -- FADD to FMAX, FTOI and ITOF
      rfl, rfl, rfl, rfl, rfl, rfl, rfl, rfl,
      -- CEQ, CNE, CLT, CLE, CLTN and CLEN
      rfl, rfl, rfl, elem2_eff_congr (fun a b => congrArg maskWord (intCond_le_signed a b)) f, rfl,
      elem2_eff_congr (fun a b => congrArg maskWord (intCond_le_unsigned a b)) f,
      -- the compares of floats, and SCLATCH
      rfl, rfl, rfl, rfl, rfl, List.forall_mem_nil _⟩
  intro q hq r xs hg hl
  rw [runs q hq]
  exact State.fire_result rfl (computes q hq) hg hl

end Sys2Proof.Machine
end

section
/-!
SUPPORT. What the transport, predicate, quantization and accumulating element forms do, form by form (R197 to R209).
-/

namespace Sys2Proof.Machine

/-! ## The forms -/

/-- STEER, by the lowest lane of its token (R201). -/
theorem formElemSteer_sends {f : Firing} {xs : Byte} {h : Word} {l0 : Nat}
    (hl0 : (List.range 8).find? (fun l => (hdrMask h).getLsbD l) = some l0) :
    let b := (f.src f.x.sb l0).getLsbD 0
    let a := fun l => f.src f.x.sa l
    (formElemSteer.eff f xs h).sends = (if b = true ∧ f.x.db ≠ 0 then [(f.x.db.toNat - 1, tokenOf h a)]
      else if b = false ∧ f.x.da.toNat < 4 then [(f.x.da.toNat, tokenOf h a)] else []) ++
      (if f.lit.getLsbD 2 then [(f.lit.toNat % 4, tokenOf (hdrTyped h false) (fun _ => if b then 1 else 0))] else []) := by
  intro b a
  simp only [formElemSteer, hl0, Option.getD_some, b, a]
  refine congrArg₂ (· ++ ·) ?_ rfl
  cases (f.src f.x.sb l0).getLsbD 0
  · by_cases hda : f.x.da.toNat < 4 <;> simp [hda]
  · by_cases hdb : f.x.db = 0#3 <;> simp [hdb]

/-- MERGE takes the arm that lane 0 of its control head names (R202). -/
theorem Firing.mergeArm_some {f : Firing} {n : Nat} (h : f.mergeArm = some n) :
    n = if (f.headLane (f.lit.toNat % 4) 0).getLsbD 0 then f.x.sb.toNat else f.x.sa.toNat := by
  unfold Firing.mergeArm at h
  split at h
  · contradiction
  · next t ht =>
    extract_lets m at h
    split at h
    · rw [← Option.some.inj h, Firing.headLane, ht]; rfl
    · contradiction

/-- MERGE, which takes its arm (R202). -/
theorem formElemMerge_eff {f : Firing} {xs : Byte} {h : Word} {n : Nat} (hn : f.mergeArm = some n) :
    formElemMerge.eff f xs h = { sends := f.forward h (f.headLane n), t := f.written xs h (f.headLane n), deqs := [f.lit.toNat % 4, n] } := by
  simp only [formElemMerge, hn]

/-- A MERGE with its inputs has an arm. -/
theorem formElemMerge_inputs {f : Firing} (h : formElemMerge.inputs f = true) : ∃ n, f.mergeArm = some n := by
  refine Option.isSome_iff_exists.mp ?_
  rwa [← Option.isSome_map (f := some)]

/-- MERGEU, which takes its arm (R203). -/
theorem formElemMergeu_eff {f : Firing} {xs : Byte} {h : Word} {n : Nat} (hn : f.mergeuArm = some n) :
    formElemMergeu.eff f xs h = { sends := f.forward h (f.headLane n), t := f.written xs h (f.headLane n), deqs := [n]
                                  mlast := some (n != f.x.sa.toNat) } := by
  simp only [formElemMergeu, hn]

/-- The bit of a slot in MLAST after it has been replaced. -/
theorem getLsbD_replaced (m : BitVec 16) (b : Bool) {n : Nat} (h : n < 16) :
    ((m &&& ~~~(1#16 <<< n)) ||| (if b then 1#16 <<< n else 0)).getLsbD n = b := by
  cases b <;> simp [h]

/-- CNT: a count that has not ended stays in the context; one that ends is sent, and starts again (R207). -/
theorem formElemCnt_eff (f : Firing) (xs : Byte) (h : Word) :
    let n := f.t.ccnt + BitVec.ofNat 32 ((List.range 8).filter (fun l => xs.getLsbD l && (!f.lit.getLsbD 0 || f.src f.x.sa l != 0))).length
    let r := formElemCnt.eff f xs h
    r.deqs = f.ta ∧ (hdrEnd h (f.lit.toNat / 2 % 4) = false → r.sends = [] ∧ r.t.ccnt = n) ∧
      (hdrEnd h (f.lit.toNat / 2 % 4) = true → r.t.ccnt = 0 ∧ r.sends = f.forward (hdrTyped h false) (fun _ => n)) := by
  extract_lets n r
  by_cases hc : hdrEnd h (f.lit.toNat / 2 % 4) = true
  · have hr : r = _ := if_pos hc
    rw [hr]
    exact ⟨rfl, fun q => absurd (q.symm.trans hc) Bool.false_ne_true, fun _ => ⟨rfl, rfl⟩⟩
  · have hr : r = _ := if_neg hc
    rw [hr]
    exact ⟨rfl, fun _ => ⟨rfl, rfl⟩, fun q => absurd q hc⟩

@[simp] theorem hdrScale_typed (h : Word) : hdrScale (hdrTyped h true) = true := by
  simp [hdrScale, hdrTyped]

/-- A forward under a scale header sends scales only. -/
theorem Firing.forward_scale {f : Firing} {h : Word} {g : Nat → Word} : ∀ q ∈ f.forward (hdrTyped h true) g, hdrScale q.2.hdr = true := by
  intro q hq
  obtain ⟨n, -, rfl⟩ := List.mem_map.mp hq
  exact hdrScale_typed h

/-- AMAXR: the maximum stays in the context until the fourth token or the end, which sends it as a scale (R205). -/
theorem formElemAmaxr_eff (f : Firing) (xs : Byte) (h : Word) :
    let n := (f.t.tcnt + 1) % 4
    let r := formElemAmaxr.eff f xs h
    r.deqs = f.ta ∧ (n ≠ 0 → hdrEnd h 0 = false → r.sends = [] ∧ r.t.tcnt = n) ∧
      (n = 0 ∨ hdrEnd h 0 = true → r.t.tcnt = 0 ∧ r.t.amx = 0 ∧ r.sends.length = f.outPorts.length ∧
        ∀ q ∈ r.sends, hdrScale q.2.hdr = true) := by
  extract_lets n r
  by_cases hc : n = 0 ∨ hdrEnd h 0 = true
  · have hr : r = _ := if_pos hc
    rw [hr]
    exact ⟨rfl, fun hn he => absurd hc (by simp [hn, he]), fun _ => ⟨rfl, rfl, List.length_map .., Firing.forward_scale⟩⟩
  · have hr : r = _ := if_neg hc
    rw [hr]
    exact ⟨rfl, fun _ _ => ⟨rfl, rfl⟩, fun q => absurd q hc⟩

/-- Settles O37: each word's meaning is the firing of its form, and each clause is its form's effect. -/
theorem elementTransport : Obligations.ElementTransport := by
  intro x s f a pred arm after preds acc
  have ran {i : Instr} {m : ElemForm} {r : Effect} {post} (hi : exec i s = s.fire m x)
      (hp : ∀ xs, m.inputs f = true → let r := m.eff f xs (m.header f)
        post (m.header f) xs { r.t with hdr := m.header f } r.sends r.deqs) : after i m r post := by
    intro xs hg hl
    obtain ⟨t, ht, -, -, -, hctx, hhops⟩ := State.fire_effect (f := f) rfl hg hl
    rw [hi, hg.effect hl]
    exact ⟨t, ht, hctx ▸ hp xs hg.inputs, hhops⟩
  -- a clause needs of `after` no more than `ran`; its body would keep a clause's postcondition from being found by unification
  clear_value after
  refine ⟨
    -- PSET to PNOT; MOV, DEQ, DROP and EMIT (R197 to R200)
    ?preds, fun r => ran rfl fun xs _ => ⟨rfl, rfl⟩, fun r => ran rfl fun xs _ => ⟨rfl, rfl⟩,
    fun r => ran rfl fun xs _ => ⟨rfl, fun h => if_pos h, fun h => if_neg h⟩, fun r => ran rfl fun xs _ => ⟨rfl, rfl⟩,
    -- STEER, MERGE and MERGEU (R201 to R203)
    fun r l0 hl0 => ran rfl fun xs _ => ⟨rfl, formElemSteer_sends hl0⟩, fun r => ran rfl fun xs hin => ?merge, fun r n hg hn => ?mergeu,
    -- QUANT, CNT and AMAXR (R205 to R207)
    fun r => ran rfl fun xs _ => ⟨rfl, rfl⟩, fun r => ran rfl fun xs _ => formElemCnt_eff f xs _,
    fun r => ran rfl fun xs _ => formElemAmaxr_eff f xs _,
    -- ACC and ACCREL (R208, R209)
    fun r => ran rfl fun xs _ => ⟨rfl, rfl, fun l hl => f.t.accumulate_accv xs _ a hl, f.t.accumulate_ecnt xs _ a, f.t.accumulate_ardy xs _ a⟩,
    fun r => ran rfl fun xs _ => ⟨rfl, rfl, rfl, rfl, rfl⟩⟩
  case preds =>
    have bits {g : Nat → Bool} (xs : Byte) := fun l (hl : l < 8) => f.t.setPred_pred x.db.toNat xs g hl
    simp only [preds, List.forall_mem_cons]
    exact ⟨fun r => ran rfl fun xs _ => ⟨rfl, rfl, bits xs⟩, fun r => ran rfl fun xs _ => ⟨rfl, rfl, bits xs⟩,
      fun r => ran rfl fun xs _ => ⟨rfl, rfl, bits xs⟩, fun r => ran rfl fun xs _ => ⟨rfl, rfl, bits xs⟩,
      fun r => ran rfl fun xs _ => ⟨rfl, rfl, bits xs⟩, List.forall_mem_nil _⟩
  case merge =>
    obtain ⟨n, hn⟩ := formElemMerge_inputs hin
    rw [formElemMerge_eff hn]
    have harm : n = arm (f.lit.toNat % 4) := Firing.mergeArm_some hn
    exact harm ▸ ⟨rfl, rfl⟩
  case mergeu =>
    obtain ⟨t, chs, ht, -, -, -, he, -, hhops⟩ := State.fire_goes (f := f) rfl hg
    obtain ⟨-, xs, -, hr⟩ := ElemForm.ready_some hg.1
    rw [formElemMergeu_eff hn] at hr
    subst hr
    refine ⟨t, ht, rfl, hhops, fun hslot => ?_⟩
    rw [he]
    exact getLsbD_replaced _ _ hslot

end Sys2Proof.Machine
end

section
/-!
SUPPORT. Canonical memory through the functions that free, kill and settle blocks. A function that leaves the bytes alone has a simp lemma
that says so of `mem`; one that writes goes through the store layer, and carries `State.memoryWf` from its argument to its value.
-/

namespace Sys2Proof.Machine

variable {s : State}

/-- A left fold keeps memory canonical when its step does. -/
theorem foldl_memoryWf {α : Type} {f : State → α → State} (hf : ∀ s a, s.memoryWf → (f s a).memoryWf) (l : List α) (h : s.memoryWf) :
    (l.foldl f s).memoryWf :=
  List.foldlRecOn l f h (fun s hs a _ => hf s a hs)

theorem State.setCore_memoryWf (k : Nat) (x : Core) (h : s.memoryWf) : (s.setCore k x).memoryWf := h

theorem State.setGroup_memoryWf (k i : Nat) (g : Group) (h : s.memoryWf) : (s.setGroup k i g).memoryWf := h

theorem State.setPart_memoryWf (p : Nat) (x : Partition) (h : s.memoryWf) : (s.setPart p x).memoryWf := h

theorem State.setBlock_memoryWf (k i : Nat) (b : Block) (h : s.memoryWf) : (s.setBlock k i b).memoryWf := h

theorem State.setQueue_memoryWf (q : Nat) (x : Queue) (h : s.memoryWf) : (s.setQueue q x).memoryWf := h

theorem State.setCommand_memoryWf (id : Nat) (c : Command) (h : s.memoryWf) : (s.setCommand id c).memoryWf := h

theorem State.finish_memoryWf (id : Nat) (h : s.memoryWf) : (s.finish id).memoryWf := h

theorem State.memoryWf.ite {c : Prop} [Decidable c] {t : State} (hs : s.memoryWf) (ht : t.memoryWf) : State.memoryWf (if c then s else t) := by
  split
  · exact hs
  · exact ht

@[simp] theorem State.mapCores_mem (f : Nat → Core → Core) : (s.mapCores f).mem = s.mem :=
  foldl_mem (fun t (p : Nat × Core) => t.setCore p.1 (f p.1 (t.core p.1))) (fun _ _ => rfl) _ _

@[simp] theorem State.unregister_mem (core : Nat) (wids : List Nat) : (s.unregister core wids).mem = s.mem := rfl

@[simp] theorem State.unawait_mem (part core blk : Nat) : (s.unawait part core blk).mem = s.mem := rfl

@[simp] theorem State.unpoison_mem (core : Nat) (b : Block) : (s.unpoison core b).mem = s.mem := by
  fun_cases State.unpoison <;> rfl

@[simp] theorem State.returnArea_mem (b : Block) : (s.returnArea b).mem = s.mem := by
  fun_cases State.returnArea <;> rfl

theorem State.chime_memoryWf (b : Block) (killed : Bool) (h : s.memoryWf) : (s.chime b killed).memoryWf := by
  fun_cases State.chime
  · exact State.hubWrite_memoryWf _ _ h
  · exact h

theorem State.leave_memoryWf (core blk : Nat) (killed : Bool) (h : s.memoryWf) : (s.leave core blk killed).memoryWf := by
  have free (ops : List Nat) := State.releaseClaims_memoryWf core ops (State.chime_memoryWf ((s.core core).block blk) killed h)
  fun_cases State.leave <;> simpa +zetaDelta [State.memoryWf] using free _

@[simp] theorem State.gangBind_mem (core blk name : Nat) : (s.gangBind core blk name).mem = s.mem := by
  fun_cases State.gangBind <;> rfl

@[simp] theorem State.gangComplete_mem (d : Nat) (r : GangRec) : (s.gangComplete d r).mem = s.mem := by
  fun_cases State.gangComplete
  · exact foldl_mem (fun s (q : Nat × Nat) => s.setCore q.1 ((s.core q.1).gbarDepart q.2 r.name)) (fun _ _ => rfl) _ s
  · rfl

@[simp] theorem State.gangSettle_mem (d n : Nat) : (s.gangSettle d n).mem = s.mem := by
  induction n generalizing s with
  | zero => rfl
  | succ n ih => rw [State.gangSettle, ih, foldl_mem _ (fun s r => State.gangComplete_mem d r), foldl_mem _ (fun s q => State.gangBind_mem ..)]

@[simp] theorem State.dropGangRecs_mem (cmd gang : Nat) : (s.dropGangRecs cmd gang).mem = s.mem := rfl

@[simp] theorem State.gangCheck_mem (core blk : Nat) : (s.gangCheck core blk).mem = s.mem := State.gangSettle_mem _ _

theorem State.killSaved_memoryWf (part n reason : Nat) (h : s.memoryWf) : (s.killSaved part n reason).memoryWf := by
  fun_cases State.killSaved <;> exact foldl_memoryWf (fun s (b : SavedBlock) h => State.chime_memoryWf b.block true h) _ h

theorem State.killBlock_memoryWf (core blk reason : Nat) (h : s.memoryWf) : (s.killBlock core blk reason).memoryWf := by
  have left := foldl_memoryWf (fun s (q : Nat × Nat) h => State.leave_memoryWf q.1 q.2 true h) (s.gangBlocks core blk) h
  have settled (c g : Nat) := State.memoryWf_of_mem ((State.gangSettle_mem (dieOf core) 64).trans (State.dropGangRecs_mem c g)) left
  have saved (c g p : Nat) l := foldl_memoryWf (fun s n h => State.killSaved_memoryWf p n reason h) l (settled c g)
  unfold State.killBlock
  dsimp only
  split
  · exact State.memoryWf_of_mem (State.setCommand_mem _ _ _) (saved _ _ _ _)
  · exact saved _ _ _ _

theorem State.blockFatal_memoryWf (core blk cause sub addr : Nat) (h : s.memoryWf) : (s.blockFatal core blk cause sub addr).memoryWf := by
  unfold State.blockFatal
  refine State.killBlock_memoryWf _ _ _ (State.postFault_memoryWf _ _ _ ?_)
  exact h

theorem State.deviceFault_memoryWf (part core cause sub addr : Nat) (h : s.memoryWf) : (s.deviceFault part core cause sub addr).memoryWf := by
  refine State.postFault_memoryWf _ _ _ ?_
  exact h

@[simp] theorem State.exitLanes_mem (core slot : Nat) (x : Mask) : (s.exitLanes core slot x).mem = s.mem := by
  fun_cases State.exitLanes <;> rfl

@[simp] theorem State.checkBars_mem (core blk : Nat) : (s.checkBars core blk).mem = s.mem :=
  foldl_mem (fun s (r : BarRec) => s.learn core r.waiters _) (fun _ _ => rfl) _ s

@[simp] theorem State.fetchJoins_mem (core : Nat) : (s.fetchJoins core).mem = s.mem := by
  refine foldl_mem _ (fun s i => ?_) _ s
  split <;> rfl

@[simp] theorem State.lookup_mem (core slot pc : Nat) : (s.lookup core slot pc).mem = s.mem := by
  fun_cases State.lookup <;> rfl

@[simp] theorem State.issuingAs_mem (core i : Nat) : (s.issuingAs core i).mem = s.mem := rfl

/-- The state that a front end leaves when it issues is canonical. -/
def Issue.EndsWf : Issue → Prop
  | .idle t | .run _ t | .bad _ t => t.memoryWf
  | .absent => True

theorem State.issue_endsWf (core : Nat) (ready : Nat → Bool) (h : s.memoryWf) : (s.issue core ready).EndsWf := by
  fun_cases State.issue <;> simp only [Issue.EndsWf]
  case case2 => exact State.raise_memoryWf _ _ _ (State.setCore_memoryWf core _ h)
  case case5 => exact State.blockFatal_memoryWf _ _ _ _ _ (State.setCore_memoryWf core _ h)
  all_goals simpa +zetaDelta [State.memoryWf] using h

theorem State.frontTurn_endsWf (core : Nat) (h : s.memoryWf) : (s.frontTurn core).EndsWf :=
  State.issue_endsWf _ _ (State.memoryWf_of_mem (State.fetchJoins_mem core) h)

end Sys2Proof.Machine
end

section
/-!
SUPPORT. Canonical memory through the front end: the checks of a word, the frames that the memory forms share, and the memory and scratchpad
forms.
-/

namespace Sys2Proof.Machine

/-- An outcome that goes on has canonical memory. -/
def EndsWf (o : Out) : Prop := match o with
  | .next t => t.memoryWf
  | _ => True

variable {s : State} {e : Fe}

theorem EndsWf.ite {c : Prop} [Decidable c] {a b : Out} (ha : EndsWf a) (hb : EndsWf b) : EndsWf (if c then a else b) := by
  split
  · exact ha
  · exact hb

theorem frontEnd_endsWf {i : Instr} {x : Guard} {eff : Fe → Out} (h : s.memoryWf) (he : EndsWf (eff (s.fe x))) :
    EndsWf (frontEnd i x s eff) := by
  fun_cases frontEnd
  · exact State.raise_memoryWf _ _ _ h
  · exact State.raise_memoryWf _ _ _ h
  · exact he

theorem Fe.fault_endsWf (f : GFault) (h : e.s.memoryWf) : EndsWf (e.fault f) := State.raise_memoryWf _ _ _ h

theorem Fe.fatal_endsWf (core blk cause sub addr : Nat) (h : e.s.memoryWf) : EndsWf (.next (e.s.blockFatal core blk cause sub addr)) :=
  State.blockFatal_memoryWf _ _ _ _ _ h

theorem Fe.indirect_endsWf (lnk : Option Opnd) (tgt : Nat → Dword) (h : e.s.memoryWf) : EndsWf (e.indirect lnk tgt) := by
  fun_cases Fe.indirect
  case case2 | case3 => exact e.fault_endsWf _ h
  all_goals exact h

theorem Fe.inOrder_endsWf (ord scope : Nat) {go : Out} (h : e.s.memoryWf) (hg : EndsWf go) : EndsWf (e.inOrder ord scope go) := by
  fun_cases Fe.inOrder
  · exact h
  · exact hg

theorem Fe.acquires_endsWf (ord scope : Nat) (cells : List (Nat × Nat)) {go : Out} (h : e.s.memoryWf) (hg : EndsWf go) :
    EndsWf (e.acquires ord scope cells go) := by
  fun_cases Fe.acquires
  · exact h
  · exact hg

theorem Fe.arrives_endsWf (scope : Nat) {go : Out} (h : e.s.memoryWf) (hg : EndsWf go) : EndsWf (e.arrives scope go) := by
  fun_cases Fe.arrives
  · exact h
  · exact hg

theorem Fe.checked_endsWf (m : Mask) (n : Nat) (reads : Bool) (f : Nat → Nat × Xlat) {go : List (Nat × Option Nat) → Out} (h : e.s.memoryWf)
    (hg : ∀ lanes, EndsWf (go lanes)) : EndsWf (e.checked m n reads f go) := by
  fun_cases Fe.checked
  case case3 => exact e.fault_endsWf _ h
  case case6 => exact e.fatal_endsWf _ _ _ _ _ h
  case case4 => trivial
  case case7 => exact hg _
  all_goals exact h

theorem Fe.onceChecked_endsWf (l : List (Nat × Xlat)) {go : Out} (h : e.s.memoryWf) (hg : EndsWf go) : EndsWf (e.onceChecked l go) := by
  fun_cases Fe.onceChecked
  · exact e.fault_endsWf _ h
  · trivial
  · exact h
  · exact hg

theorem Fe.loaded_endsWf (d : Opnd) (m : BitVec 12) (v : Nat → Nat) (h : e.s.memoryWf) : EndsWf (e.loaded d m v) := by
  fun_cases Fe.loaded <;> exact h

theorem Fe.loadedK_endsWf (d : Opnd) (m : BitVec 12) (v : Nat) (h : e.s.memoryWf) : EndsWf (e.loadedK d m v) := by
  fun_cases Fe.loadedK <;> exact h

theorem Fe.request_endsWf (w : ReqWork) (h : e.s.memoryWf) : EndsWf (e.request w) := h

theorem Fe.reads_memoryWf (ch : Nat) (cells : List (Nat × Nat)) (h : e.s.memoryWf) : (e.reads ch cells).s.memoryWf :=
  State.memoryWf_of_mem (State.loadLines_mem ..) h

theorem loadEffect_endsWf (x : FmtM) (addr : Fe → Nat → Nat) (h : e.s.memoryWf) : EndsWf (loadEffect x addr e) := by
  refine Fe.inOrder_endsWf _ _ h (Fe.checked_endsWf _ _ _ _ h (fun lanes => Fe.acquires_endsWf _ _ _ h ?_))
  split
  · exact e.request_endsWf _ h
  · exact Fe.loaded_endsWf _ _ _ (Fe.reads_memoryWf _ _ h)

theorem storeEffect_endsWf (m : BitVec 12) (n : Nat) (addr v : Nat → Nat) (h : e.s.memoryWf) : EndsWf (storeEffect m n addr v e) :=
  Fe.inOrder_endsWf _ _ h (Fe.checked_endsWf _ _ _ _ h (fun lanes =>
    State.setGroup_memoryWf _ _ _ (State.storeCells_memoryWf e.core e.slot (mmCh m) (storeCellsOf lanes n v) h)))

theorem State.atomics_memoryWf (op : AtOp) (signed : Bool) (n : Nat) (l : List (Nat × Option Nat × Nat × Nat)) (h : s.memoryWf) :
    (s.atomics op signed n l).1.memoryWf := by
  fun_induction State.atomics s op signed n l with
  | case1 => exact h
  | case2 s l k b c r old q ih => exact ih (State.putCells_memoryWf _ h)
  | case3 s l b c r ih => exact ih h

theorem atomicEffect_endsWf (op : AtOp) (signed : Bool) (a d : Opnd) (m : BitVec 12) (b c : Nat → Nat) (h : e.s.memoryWf) :
    EndsWf (atomicEffect op signed a d m b c e) := by
  refine Fe.inOrder_endsWf _ _ h (Fe.checked_endsWf _ _ _ _ h (fun lanes => Fe.acquires_endsWf _ _ _ h ?_))
  split
  · exact e.request_endsWf _ h
  · exact Fe.loaded_endsWf _ _ _ (State.memoryWf_of_mem (State.ordered_mem ..) (State.atomics_memoryWf _ _ _ _ h))

theorem reduceEffect_endsWf (op : AtOp) (signed : Bool) (a : Opnd) (m : BitVec 12) (b : Nat → Nat) (h : e.s.memoryWf) :
    EndsWf (reduceEffect op signed a m b e) := by
  refine Fe.inOrder_endsWf _ _ h (Fe.checked_endsWf _ _ _ _ h (fun lanes => State.setGroup_memoryWf _ _ _ ?_))
  exact State.memoryWf_of_mem (State.ordered_mem ..) (State.atomics_memoryWf _ _ _ _ h)

@[simp] theorem State.dirty_mem (core blk off n : Nat) : (s.dirty core blk off n).mem = s.mem := by
  unfold State.dirty
  refine foldl_mem _ (fun s i => ?_) _ s
  rfl

@[simp] theorem State.localWrite_mem (core blk n a v : Nat) : (s.localWrite core blk n a v).mem = s.mem := by
  fun_cases State.localWrite <;> simp +zetaDelta

@[simp] theorem State.localAtomics_mem (core blk n : Nat) (op : AtOp) (signed : Bool) (addr b c : Nat → Nat) (l : List Nat) :
    (s.localAtomics core blk n op signed addr b c l).1.mem = s.mem := by
  fun_induction State.localAtomics s core blk n op signed addr b c l with
  | case1 => rfl
  | case2 s l r old q ih => exact ih.trans (State.localWrite_mem ..)

theorem Fe.localChecked_endsWf (m : Mask) (k : LocalKind) (n : Nat) (addr : Nat → Nat) {go : State → List Nat → Out} (h : e.s.memoryWf)
    (hg : ∀ t ls, t.memoryWf → EndsWf (go t ls)) : EndsWf (e.localChecked m k n addr go) := by
  refine Fe.checked_endsWf _ _ _ _ h (fun lanes => ?_)
  have filled ch cells : ((e.s.fillAll e.core e.g.blk n addr lanes).loadLines e.core e.slot ch cells).memoryWf :=
    State.memoryWf_of_mem ((State.loadLines_mem ..).trans (State.fillAll_mem ..)) h
  dsimp only
  split
  · exact h
  · split
    · exact h
    · split
      · exact State.blockFatal_memoryWf _ _ _ _ _ (filled _ _)
      · exact hg _ _ (State.memoryWf_of_mem (State.localTaken_mem ..) (filled _ _))

theorem ldsEffect_endsWf (x : FmtM) (addr : Nat → Nat) (h : e.s.memoryWf) : EndsWf (ldsEffect x addr e) :=
  Fe.inOrder_endsWf _ _ h (Fe.localChecked_endsWf _ _ _ _ h (fun _ _ ht => Fe.loaded_endsWf _ _ _ ht))

theorem stsEffect_endsWf (x : FmtM) (addr : Nat → Nat) (h : e.s.memoryWf) : EndsWf (stsEffect x addr e) := by
  refine Fe.inOrder_endsWf _ _ h (Fe.localChecked_endsWf _ _ _ _ h (fun t ls ht => ?_))
  exact State.memoryWf_of_mem (foldl_mem _ (fun s l => State.localWrite_mem ..) _ t) ht

theorem atsEffect_endsWf (op : AtOp) (signed : Bool) (a d : Opnd) (m : BitVec 12) (b c : Nat → Nat) (h : e.s.memoryWf) :
    EndsWf (atsEffect op signed a d m b c e) := by
  refine Fe.inOrder_endsWf _ _ h (Fe.localChecked_endsWf _ _ _ _ h (fun t ls ht => Fe.loaded_endsWf _ _ _ ?_))
  exact State.memoryWf_of_mem (State.localAtomics_mem ..) ht

end Sys2Proof.Machine
end

section
/-!
SUPPORT. Canonical memory through the windows, the page-generation and heap forms, and the resumption of suspended work.
-/

namespace Sys2Proof.Machine

variable {s : State} {e : Fe}

@[simp] theorem State.endFlush_mem (core blk by_ : Nat) (w : Window) : (s.endFlush core blk by_ w).mem = s.mem := by
  refine foldl_mem _ (fun s o => ?_) _ s
  dsimp only
  split <;> rfl

/-- The state that a flush goes on with is canonical. -/
def Flush.EndsWf : Flush → Prop
  | .ok t => t.memoryWf
  | _ => True

theorem State.flushWords_endsWf (core blk slot by_ : Nat) (w : Window) (words : List Nat) (h : s.memoryWf) :
    (s.flushWords core blk slot by_ w words).EndsWf := by
  fun_cases State.flushWords
  case case4 =>
    refine State.memoryWf_of_mem (foldl_mem _ (fun s p => State.setMarks_mem ..) _ _) (State.memoryWf_of_mem (State.ordered_mem ..) ?_)
    exact State.putCells_memoryWf _ h
  all_goals trivial

theorem Fe.flushed_endsWf (x : FmtR) {go : State → Window → Out} (h : e.s.memoryWf) (hg : ∀ t w, t.memoryWf → EndsWf (go t w)) :
    EndsWf (e.flushed x go) := by
  have ended {t : State} (by_ : Nat) (w : Window) (ht : t.memoryWf) : (t.endFlush e.core e.g.blk by_ w).memoryWf :=
    State.memoryWf_of_mem (State.endFlush_mem ..) ht
  unfold Fe.flushed
  dsimp only
  split
  · split
    · exact h
    · exact e.fault_endsWf _ h
  · next w _ =>
    split
    · split
      · exact h
      · exact hg _ _ (ended _ _ h)
    · refine Fe.inOrder_endsWf _ _ h ?_
      have hf : (e.s.flushWindow e.core e.g.blk e.slot e.slot w).EndsWf := State.flushWords_endsWf _ _ _ _ _ _ h
      split
      · exact e.fault_endsWf _ h
      · exact h
      · trivial
      · next t ht =>
        rw [ht] at hf
        split
        · exact hf
        · exact hg _ _ (ended _ _ hf)

@[simp] theorem State.dropWindow_mem (core : Nat) (w : Window) : (s.dropWindow core w).mem = s.mem := rfl

@[simp] theorem State.invalidate_mem (core : Nat) (w : Window) : (s.invalidate core w).mem = s.mem := rfl

theorem runLanes_memoryWf {f : Nat → State → Nat × State} (hf : ∀ l s, s.memoryWf → (f l s).2.memoryWf) (ls : List Nat) (h : s.memoryWf) :
    (runLanes f ls s).2.memoryWf := by
  induction ls generalizing s with
  | nil => exact h
  | cons l r ih => exact ih (hf l s h)

theorem pageEffect_endsWf (d a : Opnd) {busy : Fe → Nat → WalkEnd → Bool} {lane : Fe → Nat → State → Nat → Nat × State}
    (hl : ∀ l t va, t.memoryWf → (lane e l t va).2.memoryWf) (h : e.s.memoryWf) : EndsWf (pageEffect d a busy lane e) := by
  fun_cases pageEffect
  case case1 => exact e.fault_endsWf _ h
  case case2 => trivial
  case case3 => exact h
  case case4 => exact e.fatal_endsWf _ _ _ _ _ h
  case case5 =>
    refine Fe.inOrder_endsWf _ _ h (State.setGroup_memoryWf _ _ _ ?_)
    exact runLanes_memoryWf (fun l s hs => hl l s _ hs) _ h

theorem State.poolTake_memoryWf {part core f : Nat} {t : State} (h : s.memoryWf) (ht : s.poolTake part core = some (f, t)) : t.memoryWf := by
  unfold State.poolTake at ht
  dsimp only at ht
  split at ht
  · cases ht
  · split at ht <;> obtain ⟨-, rfl⟩ := Prod.mk.inj (Option.some.inj ht)
    · refine State.postFault_memoryWf _ _ _ ?_
      exact h
    · exact h

@[simp] theorem State.frameSeen_mem (k : Nat) : (s.frameSeen k).mem = s.mem := State.mapCores_mem _

@[simp] theorem Fe.shoot_mem (va : Nat) : (e.shoot s va).mem = s.mem := rfl

@[simp] theorem State.adoptZero_mem (part entry k : Nat) : (s.adoptZero part entry k).mem = s.mem := by
  refine foldl_mem _ (fun s p => foldl_mem _ (fun s w => ?_) _ s) _ s
  dsimp only
  split
  · rfl
  · refine foldl_mem _ (fun s o => ?_) _ s
    split
    · simp
    · rfl

theorem Fe.commitLane_memoryWf (nf : Bool) (va : Nat) (h : s.memoryWf) : (e.commitLane nf s va).2.memoryWf := by
  fun_cases Fe.commitLane
  case case5 w _ _ _ f s1 ht k s2 s3 =>
    have h1 : s1.memoryWf := State.poolTake_memoryWf h ht
    have h2 : s2.memoryWf := by
      dsimp only [s2]
      split
      · exact h1
      · exact State.memoryWf_of_mem (State.frameWritten_mem ..) (clearRange_wf _ _ h1)
    have h3 : s3.memoryWf := State.memoryWf_of_mem (State.frameSeen_mem k) (Fe.setEntry_memoryWf e _ _ h2)
    dsimp only
    split
    · exact State.memoryWf_of_mem ((e.shoot_mem va).trans (State.adoptZero_mem ..)) h3
    · exact h3
  all_goals exact h

theorem Fe.releaseLane_memoryWf (va : Nat) (h : s.memoryWf) : (e.releaseLane s va).2.memoryWf := by
  fun_cases Fe.releaseLane
  case case5 => exact State.poolReturn_memoryWf _ _ (Fe.loseFrame_memoryWf e _ (Fe.setEntry_memoryWf e _ _ h))
  all_goals exact h

theorem Fe.protLane_memoryWf (b : Nat → Nat) (l va : Nat) (h : s.memoryWf) : (e.protLane b l s va).2.memoryWf := by
  fun_cases Fe.protLane
  case case4 =>
    have h1 v := Fe.setEntry_memoryWf e (e.pageWalk s va).addr v h
    dsimp only
    split <;> exact h1 _
  all_goals exact h

theorem Fe.heapOk_endsWf {go : Out} (h : e.s.memoryWf) (hg : EndsWf go) : EndsWf (e.heapOk go) := by
  fun_cases Fe.heapOk
  · exact e.fault_endsWf _ h
  · exact hg

theorem State.halloc_memoryWf (part n : Nat) (h : s.memoryWf) : (s.halloc part n).2.memoryWf := by
  fun_cases State.halloc <;> exact h

theorem State.hfree_memoryWf (part a : Nat) (h : s.memoryWf) : (s.hfree part a).2.memoryWf := by
  fun_cases State.hfree <;> exact h

@[simp] theorem State.claim_mem (core id : Nat) (lines : List Nat) : (s.claim core id lines).mem = s.mem := by
  refine foldl_mem _ (fun s n => ?_) lines s
  rfl

@[simp] theorem State.own_mem (core id : Nat) (b : Block) (peer : Bool) (writes : List (EAddr × Nat)) :
    (s.own core id b peer writes).mem = s.mem := State.claim_mem ..

theorem State.disown_memoryWf (core id : Nat) (h : s.memoryWf) : (s.disown core id).memoryWf :=
  State.releaseClaims_memoryWf core [id] h

theorem State.copyDone_memoryWf (core : Nat) (o : CopyOp) (h : s.memoryWf) : (s.copyDone core o).memoryWf :=
  State.setCore_memoryWf _ _ (State.disown_memoryWf core o.id h)

theorem State.holdFlush_memoryWf (core blk cause sub addr : Nat) (h : s.memoryWf) : (s.holdFlush core blk cause sub addr).memoryWf :=
  State.postFault_memoryWf _ _ _ (State.setCore_memoryWf core _ h)

/-- The state that a flush of a whole block leaves is canonical. -/
def BlockFlush.EndsWf : BlockFlush → Prop
  | .done t | .held t | .wait t => t.memoryWf
  | .absent => True

theorem State.flushAll_endsWf (core blk : Nat) (ws : List Window) (h : s.memoryWf) : (s.flushAll core blk ws).EndsWf := by
  induction ws generalizing s with
  | nil => exact h
  | cons w r ih =>
    have hf := State.flushWords_endsWf core blk ((s.core core).block blk).lowSlot 64 w
      ((s.dirtyWords core blk w).filter (fun o => !(s.marksAt core blk o).f.contains 64)) h
    unfold State.flushAll
    split
    · exact State.holdFlush_memoryWf _ _ _ _ _ h
    · exact h
    · trivial
    · next t ht =>
      rw [ht] at hf
      exact ih hf

theorem State.flushBlock_endsWf (core blk : Nat) (h : s.memoryWf) : (s.flushBlock core blk).EndsWf := by
  have hf := State.flushAll_endsWf core blk ((s.core core).windowsOf blk) h
  unfold State.flushBlock
  dsimp only
  split
  · next t ht =>
    rw [ht] at hf
    split
    · exact hf
    · exact foldl_memoryWf (fun s w hs => State.memoryWf_of_mem (State.endFlush_mem ..) hs) _ hf
  · exact hf

theorem State.reflush_memoryWf {core blk : Nat} {t : State} (h : s.memoryWf) (ht : s.reflush core blk = some t) : t.memoryWf := by
  have hf := State.flushBlock_endsWf (s := s.setBlock core blk { ((s.core core).block blk) with flushHold := none }) core blk h
  unfold State.reflush at ht
  split at ht
  case h_4 => cases ht
  all_goals
    next hb =>
      rw [hb] at hf
      cases ht
      exact hf

@[simp] theorem State.discardAt_mem (core blk addr : Nat) : (s.discardAt core blk addr).mem = s.mem := by
  fun_cases State.discardAt <;> rfl

@[simp] theorem State.skipGroup_mem (core slot : Nat) (su : Susp) (v : Dword) : (s.skipGroup core slot su v).mem = s.mem := rfl

theorem State.resumeOne_memoryWf {core act : Nat} {v : Dword} {x : Suspended} {t : State} (h : s.memoryWf)
    (ht : s.resumeOne core act v x = some t) : t.memoryWf := by
  revert ht
  fun_cases State.resumeOne <;> intro ht
  case case7 => exact State.reflush_memoryWf h ht
  case case8 => exact State.reflush_memoryWf (State.memoryWf_of_mem (State.discardAt_mem ..) h) ht
  all_goals obtain rfl := Option.some.inj ht
  case case1 => exact h
  case case2 => exact h
  case case3 => exact State.killBlock_memoryWf _ _ _ h
  case case4 => exact State.memoryWf_of_mem (State.own_mem ..) h
  case case5 => exact State.copyDone_memoryWf _ _ h
  case case6 => exact State.killBlock_memoryWf _ _ _ h
  case case9 => exact State.killBlock_memoryWf _ _ _ h

theorem State.resume_memoryWf {part : Nat} {id : Word} {act : Nat} {v : Dword} {st : Nat} {t : State} (h : s.memoryWf)
    (ht : s.resume part id act v = some (st, t)) : t.memoryWf := by
  unfold State.resume at ht
  dsimp only at ht
  split at ht
  · cases ht; exact h
  · split at ht
    · cases ht; exact h
    · split at ht
      · cases ht; exact h
      · obtain ⟨t', ht', heq⟩ := Option.map_eq_some_iff.mp ht
        cases heq
        exact State.resumeOne_memoryWf h ht'

theorem gresumeEffect_endsWf (x : FmtR) (act : Nat) (h : e.s.memoryWf) : EndsWf (gresumeEffect x act e) := by
  fun_cases gresumeEffect
  case case1 => exact h
  case case2 => exact e.fault_endsWf _ h
  case case3 => exact h
  case case4 =>
    refine Fe.inOrder_endsWf _ _ h ?_
    split
    · trivial
    · next st t ht =>
      have h' := State.resume_memoryWf h ht
      dsimp only
      split <;> exact h'

end Sys2Proof.Machine
end

section
/-!
SUPPORT. Canonical memory through the forms that feed the engines, the matrix unit, the barriers and the regions.
-/

namespace Sys2Proof.Machine

variable {s : State} {e : Fe}

theorem Fe.lanesChecked_endsWf (f : Nat → List (Nat × Xlat)) {go : Out} (h : e.s.memoryWf) (hg : EndsWf go) : EndsWf (e.lanesChecked f go) :=
  Fe.checked_endsWf _ _ _ _ h (fun _ => hg)

theorem Fe.copies_endsWf (tag : Nat) (peer : Bool) (l : List (List (EAddr × Nat) × List (EAddr × Nat))) (h : e.s.memoryWf) :
    EndsWf (e.copies tag peer l) := by
  fun_cases Fe.copies
  · exact h
  · refine foldl_memoryWf (fun s o hs => State.memoryWf_of_mem (State.own_mem ..) hs) _ ?_
    exact h

theorem Fe.acquireTags_endsWf (tags : Byte) {go : Out} (h : e.s.memoryWf) (hg : EndsWf go) : EndsWf (e.acquireTags tags go) :=
  Fe.inOrder_endsWf _ _ h hg

theorem Fe.tiled_endsWf (reads writes : List (EAddr × Nat)) (kind : TileKind) (h : e.s.memoryWf) : EndsWf (e.tiled reads writes kind) := by
  fun_cases Fe.tiled
  · exact h
  · exact State.memoryWf_of_mem (State.own_mem ..) h

theorem tileEffect_endsWf (x : FmtR) (need : Need) {mk : List (EAddr × Nat) → List (EAddr × Nat) → Fe → Out} (h : e.s.memoryWf)
    (hm : ∀ l d, EndsWf (mk l d e)) : EndsWf (tileEffect x need mk e) := by
  fun_cases tileEffect
  · exact h
  · exact Fe.lanesChecked_endsWf _ h (hm _ _)

theorem Fe.matIssue_endsWf (work : MatWork) (f : Core → Core) (h : e.s.memoryWf) : EndsWf (e.matIssue work f) := by
  fun_cases Fe.matIssue
  · exact h
  · exact Fe.arrives_endsWf _ h h

theorem Fe.recordRead_endsWf (a n : Nat) {go : Fe → Nat → Out} (h : e.s.memoryWf) (hg : ∀ (e' : Fe) r, e'.s.memoryWf → EndsWf (go e' r)) :
    EndsWf (e.recordRead a n go) := by
  have filled keys ch cells : ((e.s.fillAll e.core e.g.blk 1 (a + ·) keys).loadLines e.core e.slot ch cells).memoryWf :=
    State.memoryWf_of_mem ((State.loadLines_mem ..).trans (State.fillAll_mem ..)) h
  unfold Fe.recordRead
  split
  · exact e.fault_endsWf _ h
  · dsimp only
    split
    · exact h
    · exact h
    · exact e.fault_endsWf _ h
    · trivial
    · split
      · exact h
      · split
        · exact State.blockFatal_memoryWf _ _ _ _ _ (filled _ _ _)
        · exact hg _ _ (State.memoryWf_of_mem (State.observeLocal_mem ..) (filled _ _ _))

theorem Fe.matSpot_endsWf (a n : Nat) {go : EAddr → Out} (h : e.s.memoryWf) (hg : ∀ q, EndsWf (go q)) : EndsWf (e.matSpot a n go) := by
  fun_cases Fe.matSpot
  · exact e.fault_endsWf _ h
  · exact e.fault_endsWf _ h
  · exact hg _

theorem Fe.mmaCheck_endsWf (sparse : Bool) (x : FmtR3) {go : Resv → Resv → Out} (h : e.s.memoryWf) (hg : ∀ a b, EndsWf (go a b)) :
    EndsWf (e.mmaCheck sparse x go) := by
  fun_cases Fe.mmaCheck
  case case6 => exact hg _ _
  all_goals exact e.fault_endsWf _ h

theorem State.fireRound_memoryWf (core blk : Nat) (signers : List Nat) (work : MatWork) (cv : Option Nat) (h : s.memoryWf) :
    (s.fireRound core blk signers work cv).memoryWf := by
  fun_cases State.fireRound
  · exact State.coreFault_memoryWf _ _ _ _ _ _ (State.setCore_memoryWf core _ h)
  · exact h

theorem mmaEffect_endsWf (sparse : Bool) (x : FmtR3) (h : e.s.memoryWf) : EndsWf (mmaEffect sparse x e) := by
  unfold mmaEffect
  dsimp only
  split
  · exact e.fault_endsWf _ h
  split
  · exact h
  refine Fe.mmaCheck_endsWf _ _ h (fun _ _ => Fe.arrives_endsWf _ h ?_)
  split
  · split
    · exact h
    · exact State.fireRound_memoryWf _ _ _ _ _ (State.setGroup_memoryWf e.core e.slot _ h)
  · split
    · exact h
    split
    · exact e.fault_endsWf _ h
    split
    · exact h
    split
    · exact h
    · exact State.fireRound_memoryWf _ _ _ _ _ (State.setBlock_memoryWf _ _ _ (State.setGroup_memoryWf e.core e.slot _ h))

theorem accinitEffect_endsWf (t : Nat) (addr : Option Nat) (h : e.s.memoryWf) : EndsWf (accinitEffect t addr e) := by
  fun_cases accinitEffect
  case case1 => exact h
  case case2 | case4 => exact e.fault_endsWf _ h
  case case3 => exact Fe.matIssue_endsWf _ _ h
  case case5 => exact Fe.matSpot_endsWf _ _ h (fun _ => Fe.matIssue_endsWf _ _ h)

theorem barEffect_endsWf (x : FmtR) (sync : Bool) (h : e.s.memoryWf) : EndsWf (barEffect x sync e) := by
  fun_cases barEffect
  case case1 | case2 => exact h
  case case3 => exact e.fault_endsWf _ h
  case case4 => exact Fe.arrives_endsWf _ h (State.memoryWf_of_mem (State.checkBars_mem ..) h)

theorem gbarEffect_endsWf (x : FmtR) (sync : Bool) (h : e.s.memoryWf) : EndsWf (gbarEffect x sync e) := by
  fun_cases gbarEffect
  case case1 | case2 => exact h
  case case3 => exact Fe.arrives_endsWf _ h (State.memoryWf_of_mem (State.gangCheck_mem ..) h)

theorem regroupEffect_endsWf (back : Bool) (key : Opnd) (bits : Nat) (h : e.s.memoryWf) : EndsWf (regroupEffect back key bits e) := by
  fun_cases regroupEffect
  case case5 => exact h
  all_goals exact e.fault_endsWf _ h

theorem regionForm_endsWf (x : FmtR) {eff : Option (Nat × Placed) → Fe → Out} (h : e.s.memoryWf) (he : ∀ r, EndsWf (eff r e)) :
    EndsWf (regionForm x eff e) := by
  fun_cases regionForm
  · exact h
  · exact h
  · exact he _

theorem Fe.readRange_endsWf (va n : Nat) {go : List (EAddr × Nat) → Out} (h : e.s.memoryWf) (hg : ∀ l, EndsWf (go l)) :
    EndsWf (e.readRange va n go) := by
  unfold Fe.readRange
  dsimp only
  split
  · exact e.fault_endsWf _ h
  · trivial
  · split
    · exact h
    split
    · exact h
    split
    · exact h
    split
    · exact e.fatal_endsWf _ _ _ _ _ h
    · exact hg _

theorem State.placedFault_memoryWf (core pi cause sub addr detail : Nat) (h : s.memoryWf) :
    (s.placedFault core pi cause sub addr detail).memoryWf := by
  fun_cases State.placedFault <;> exact State.setCore_memoryWf _ _ (State.coreFault_memoryWf _ _ _ _ _ _ h)

theorem fxWaited_endsWf {ends : Fe → Nat → Out} {eff : Fe → Out} (h : e.s.memoryWf) (hends : ∀ (e' : Fe) n, e'.s.memoryWf → EndsWf (ends e' n))
    (heff : EndsWf (eff e)) : EndsWf (fxWaited ends eff e) := by
  fun_cases fxWaited
  · exact hends _ _ h
  · exact heff

end Sys2Proof.Machine
end

section
/-!
SUPPORT. Canonical memory through each front-end word that does more than write registers.
-/

namespace Sys2Proof.Machine

variable {s : State}

theorem execMovk_endsWf (x : FmtI) (h : s.memoryWf) : EndsWf (execMovk x s) := by
  refine frontEnd_endsWf h ?_
  split
  · exact .ite h h
  · exact Fe.fault_endsWf _ h

theorem execKset_endsWf (x : FmtR) (h : s.memoryWf) : EndsWf (execKset x s) := frontEnd_endsWf h (.ite h h)

theorem execBra_endsWf (x : FmtB) (h : s.memoryWf) : EndsWf (execBra x s) :=
  frontEnd_endsWf h (.ite h (.ite (Fe.fault_endsWf _ h) (.ite (State.memoryWf_of_mem (State.lookup_mem ..) h) h)))

theorem execCall_endsWf (x : FmtB) (h : s.memoryWf) : EndsWf (execCall x s) :=
  frontEnd_endsWf h (.ite h (.ite (Fe.fault_endsWf _ h) h))

theorem execCalll_endsWf (x : FmtM) (h : s.memoryWf) : EndsWf (execCalll x s) :=
  frontEnd_endsWf h (Fe.inOrder_endsWf _ _ h (Fe.checked_endsWf _ _ _ _ h (fun _ => Fe.acquires_endsWf _ _ _ h
    (.ite (Fe.request_endsWf _ h) (Fe.indirect_endsWf _ _ (Fe.reads_memoryWf _ _ h))))))

theorem execExit_endsWf (x : FmtR) (h : s.memoryWf) : EndsWf (execExit x s) :=
  frontEnd_endsWf h (.ite h
    (State.memoryWf_of_mem ((State.gangCheck_mem ..).trans ((State.checkBars_mem ..).trans (State.exitLanes_mem ..))) h))

theorem execRcv_endsWf (x : FmtB) (h : s.memoryWf) : EndsWf (execRcv x s) := frontEnd_endsWf h (.ite (Fe.fault_endsWf _ h) h)

theorem execJoin_endsWf (x : FmtR) (h : s.memoryWf) : EndsWf (execJoin x s) := by
  refine frontEnd_endsWf h ?_
  split
  · exact Fe.fault_endsWf _ h
  · exact h
  · exact h

theorem execLoophint_endsWf (x : FmtI) (h : s.memoryWf) : EndsWf (execLoophint x s) := frontEnd_endsWf h (.ite h h)

theorem execTrap_endsWf (x : FmtI) (h : s.memoryWf) : EndsWf (execTrap x s) :=
  frontEnd_endsWf h (.ite h (.ite (Fe.fault_endsWf _ h) (.ite (Fe.fault_endsWf _ h) h)))

theorem execBkpt_endsWf (x : FmtI) (h : s.memoryWf) : EndsWf (execBkpt x s) := frontEnd_endsWf h (.ite h h)

theorem execRdsr_endsWf (x : FmtS) (h : s.memoryWf) : EndsWf (execRdsr x s) := by
  refine frontEnd_endsWf h ?_
  dsimp only
  split <;> exact h

theorem execWrsr_endsWf (x : FmtS) (h : s.memoryWf) : EndsWf (execWrsr x s) := frontEnd_endsWf h (.ite h h)

theorem execLdk_endsWf (x : FmtM) (h : s.memoryWf) : EndsWf (execLdk x s) :=
  frontEnd_endsWf h (.ite h (Fe.inOrder_endsWf _ _ h (Fe.checked_endsWf _ _ _ _ h (fun _ => Fe.acquires_endsWf _ _ _ h
    (.ite (Fe.request_endsWf _ h) (Fe.loadedK_endsWf _ _ _ (Fe.reads_memoryWf _ _ h)))))))

theorem execLdnf_endsWf (x : FmtM) (h : s.memoryWf) : EndsWf (execLdnf x s) :=
  frontEnd_endsWf h (Fe.checked_endsWf _ _ _ _ h (fun _ =>
    .ite (Fe.request_endsWf _ h) (Fe.loaded_endsWf _ _ _ (Fe.reads_memoryWf _ _ h))))

theorem execFence_endsWf (x : FmtM) (h : s.memoryWf) : EndsWf (execFence x s) :=
  frontEnd_endsWf h (.ite h (Fe.inOrder_endsWf _ _ h h))

theorem execPref_endsWf (x : FmtM) (h : s.memoryWf) : EndsWf (execPref x s) := by
  refine frontEnd_endsWf h ?_
  dsimp only
  split
  · exact h
  · split <;> exact h

theorem execCctl_endsWf (x : FmtM) (h : s.memoryWf) : EndsWf (execCctl x s) := by
  refine frontEnd_endsWf h (State.setGroup_memoryWf _ _ _ (foldl_memoryWf (fun s n hs => ?_) _ h))
  exact State.memoryWf_of_mem ((State.setDir_mem ..).trans ((apply_ite State.mem _ _ _).trans (ite_self s.mem))) hs

theorem execLdl_endsWf (x : FmtM) (h : s.memoryWf) : EndsWf (execLdl x s) :=
  frontEnd_endsWf h (Fe.checked_endsWf _ _ _ _ h (fun _ => .ite (Fe.fatal_endsWf _ _ _ _ _ h) (Fe.loaded_endsWf _ _ _ h)))

theorem execStl_endsWf (x : FmtM) (h : s.memoryWf) : EndsWf (execStl x s) :=
  frontEnd_endsWf h (Fe.checked_endsWf _ _ _ _ h (fun _ => State.setCore_memoryWf _ _
    (foldl_memoryWf (fun _ _ hs => State.memoryWf_of_mem (State.cleanse_mem ..) hs) _ h)))

theorem execWmap_endsWf (x : FmtR) (h : s.memoryWf) : EndsWf (execWmap x s) :=
  frontEnd_endsWf h (.ite h (.ite (Fe.fault_endsWf _ h) (.ite h (.ite (Fe.fatal_endsWf _ _ _ _ _ h) h))))

theorem execWunmap_endsWf (x : FmtR) (h : s.memoryWf) : EndsWf (execWunmap x s) :=
  frontEnd_endsWf h (.ite h (Fe.flushed_endsWf _ h (fun _ w ht => State.setGroup_memoryWf _ _ _
    (State.memoryWf_of_mem (State.dropWindow_mem (s.fe x.g).core w) ht))))

theorem execWflush_endsWf (x : FmtR) (h : s.memoryWf) : EndsWf (execWflush x s) :=
  frontEnd_endsWf h (.ite h (Fe.flushed_endsWf _ h (fun _ _ ht => State.setGroup_memoryWf _ _ _ ht)))

theorem execWinv_endsWf (x : FmtR) (h : s.memoryWf) : EndsWf (execWinv x s) := by
  refine frontEnd_endsWf h (.ite h ?_)
  split
  · exact Fe.fault_endsWf _ h
  · exact h

theorem execPgquery_endsWf (x : FmtR) (h : s.memoryWf) : EndsWf (execPgquery x s) := by
  refine frontEnd_endsWf h (.ite trivial (.ite h ?_))
  split
  · exact Fe.fatal_endsWf _ _ _ _ _ h
  · exact Fe.inOrder_endsWf _ _ h (Fe.acquires_endsWf _ _ _ h h)

theorem execHalloc_endsWf (x : FmtR) (h : s.memoryWf) : EndsWf (execHalloc x s) :=
  frontEnd_endsWf h (Fe.heapOk_endsWf h (Fe.inOrder_endsWf _ _ h
    (State.setGroup_memoryWf _ _ _ (runLanes_memoryWf (fun _ _ hs => State.halloc_memoryWf _ _ hs) _ h))))

theorem execHfree_endsWf (x : FmtR) (h : s.memoryWf) : EndsWf (execHfree x s) :=
  frontEnd_endsWf h (Fe.heapOk_endsWf h (Fe.inOrder_endsWf _ _ h
    (State.setGroup_memoryWf _ _ _ (runLanes_memoryWf (fun _ _ hs => State.hfree_memoryWf _ _ hs) _ h))))

theorem execHsize_endsWf (x : FmtR) (h : s.memoryWf) : EndsWf (execHsize x s) :=
  frontEnd_endsWf h (Fe.heapOk_endsWf h (Fe.inOrder_endsWf _ _ h h))

theorem execCpy32_endsWf (x : FmtR3) (h : s.memoryWf) : EndsWf (execCpy32 x s) :=
  frontEnd_endsWf h (.ite h (Fe.lanesChecked_endsWf _ h (Fe.copies_endsWf _ _ _ h)))

theorem execCpyb_endsWf (x : FmtR3) (h : s.memoryWf) : EndsWf (execCpyb x s) :=
  frontEnd_endsWf h (.ite h (Fe.onceChecked_endsWf _ h (Fe.copies_endsWf _ _ _ h)))

theorem execCpyst_endsWf (x : FmtR) (h : s.memoryWf) : EndsWf (execCpyst x s) :=
  frontEnd_endsWf h (.ite h (Fe.onceChecked_endsWf _ h (.ite h (.ite (Fe.fatal_endsWf _ _ _ _ _ h) (.ite (Fe.fault_endsWf _ h)
    (Fe.onceChecked_endsWf _ h (Fe.copies_endsWf _ _ _ h)))))))

theorem execCpywait_endsWf (x : FmtR) (h : s.memoryWf) : EndsWf (execCpywait x s) :=
  frontEnd_endsWf h (.ite h (.ite h (Fe.acquireTags_endsWf _ h h)))

theorem execCpycnt_endsWf (x : FmtR) (h : s.memoryWf) : EndsWf (execCpycnt x s) :=
  frontEnd_endsWf h (.ite h (.ite (Fe.acquireTags_endsWf _ h h) h))

theorem execCpyfill_endsWf (x : FmtR3) (h : s.memoryWf) : EndsWf (execCpyfill x s) :=
  frontEnd_endsWf h (.ite h (Fe.onceChecked_endsWf _ h (Fe.copies_endsWf _ _ _ h)))

theorem execCpyp_endsWf (x : FmtR3) (h : s.memoryWf) : EndsWf (execCpyp x s) :=
  frontEnd_endsWf h (.ite h (Fe.onceChecked_endsWf _ h (Fe.inOrder_endsWf _ _ h (Fe.copies_endsWf _ _ _ h))))

theorem execGathbm_endsWf (x : FmtR3) (h : s.memoryWf) : EndsWf (execGathbm x s) :=
  frontEnd_endsWf h (.ite h (Fe.onceChecked_endsWf _ h (.ite h (Fe.onceChecked_endsWf _ h (Fe.tiled_endsWf _ _ _ h)))))

theorem execMtwait_endsWf (x : FmtR) (h : s.memoryWf) : EndsWf (execMtwait x s) :=
  frontEnd_endsWf h (.ite h (.ite h (Fe.inOrder_endsWf _ _ h h)))

theorem execTfetch_endsWf (x : FmtR3) (h : s.memoryWf) : EndsWf (execTfetch x s) := by
  refine frontEnd_endsWf h (.ite h ?_)
  dsimp only
  split
  · exact Fe.fault_endsWf _ h
  · exact .ite (Fe.fault_endsWf _ h) (.ite (Fe.fault_endsWf _ h) (.ite (Fe.fault_endsWf _ h)
      (Fe.onceChecked_endsWf _ h (Fe.matIssue_endsWf _ _ h))))

theorem execTfrel_endsWf (x : FmtR) (h : s.memoryWf) : EndsWf (execTfrel x s) :=
  frontEnd_endsWf h (.ite h (.ite (Fe.fault_endsWf _ h) (Fe.matIssue_endsWf _ _ h)))

theorem execObrsv_endsWf (x : FmtR) (h : s.memoryWf) : EndsWf (execObrsv x s) := by
  refine frontEnd_endsWf h (.ite h (.ite (Fe.fault_endsWf _ h) (Fe.recordRead_endsWf _ _ h (fun e r he => ?_))))
  split
  · exact e.fault_endsWf _ he
  · exact .ite (e.fault_endsWf _ he) he

theorem execObrel_endsWf (x : FmtR) (h : s.memoryWf) : EndsWf (execObrel x s) :=
  frontEnd_endsWf h (.ite h (.ite (Fe.fault_endsWf _ h) (.ite h h)))

theorem execObldS_endsWf (x : FmtR3) (h : s.memoryWf) : EndsWf (execObldS x s) := by
  refine frontEnd_endsWf h (.ite h ?_)
  dsimp only
  split
  · exact Fe.fault_endsWf _ h
  · exact .ite (Fe.fault_endsWf _ h) (.ite (Fe.fault_endsWf _ h) (.ite (Fe.fault_endsWf _ h)
      (Fe.matSpot_endsWf _ _ h (fun _ => Fe.matIssue_endsWf _ _ h))))

theorem execObldR_endsWf (x : FmtR3) (h : s.memoryWf) : EndsWf (execObldR x s) := by
  refine frontEnd_endsWf h (.ite h ?_)
  dsimp only
  split
  · exact Fe.fault_endsWf _ h
  · exact .ite (Fe.fault_endsWf _ h) (.ite (Fe.fault_endsWf _ h) (.ite (Fe.fault_endsWf _ h) (Fe.matIssue_endsWf _ _ h)))

theorem execCvdecl_endsWf (x : FmtR) (h : s.memoryWf) : EndsWf (execCvdecl x s) :=
  frontEnd_endsWf h (.ite h (.ite (Fe.fault_endsWf _ h) h))

theorem execAccrd_endsWf (x : FmtR) (h : s.memoryWf) : EndsWf (execAccrd x s) :=
  frontEnd_endsWf h (.ite h (.ite (Fe.fault_endsWf _ h) (.ite (Fe.fault_endsWf _ h) (.ite h (.ite h h)))))

theorem execMdrainS_endsWf (x : FmtR) (h : s.memoryWf) : EndsWf (execMdrainS x s) :=
  frontEnd_endsWf h (.ite h (.ite (Fe.fault_endsWf _ h) (.ite (Fe.fault_endsWf _ h)
    (Fe.matSpot_endsWf _ _ h (fun _ => Fe.matIssue_endsWf _ _ h)))))

theorem execMdrainC_endsWf (x : FmtR) (h : s.memoryWf) : EndsWf (execMdrainC x s) :=
  frontEnd_endsWf h (.ite h (.ite (Fe.fault_endsWf _ h) (.ite (Fe.fault_endsWf _ h) (Fe.matIssue_endsWf _ _ h))))

theorem execMwait_endsWf (x : FmtR) (h : s.memoryWf) : EndsWf (execMwait x s) :=
  frontEnd_endsWf h (.ite h (.ite (Fe.fault_endsWf _ h) (.ite h h)))

theorem execFxload_endsWf (x : FmtR) (h : s.memoryWf) : EndsWf (execFxload x s) := by
  refine frontEnd_endsWf h (regionForm_endsWf _ h (fun r => .ite (Fe.fault_endsWf _ h)
    (Fe.readRange_endsWf _ _ h (fun _ => Fe.readRange_endsWf _ _ h (fun l => ?_)))))
  dsimp only
  split
  · exact h
  · exact State.setGroup_memoryWf _ _ _ (State.memoryWf_of_mem (State.loadLines_mem ..) h)

theorem execFxrun_endsWf (x : FmtR) (h : s.memoryWf) : EndsWf (execFxrun x s) := by
  refine frontEnd_endsWf h (regionForm_endsWf _ h (fun r => ?_))
  split
  · refine .ite (.ite h (Fe.arrives_endsWf _ h ?_)) (Fe.fault_endsWf _ h)
    dsimp only
    split
    · refine State.placedFault_memoryWf _ _ _ _ _ _ ?_
      exact h
    · exact h
  · exact Fe.fault_endsWf _ h

theorem execFxwait_endsWf (x : FmtR) (h : s.memoryWf) : EndsWf (execFxwait x s) := by
  refine frontEnd_endsWf h (fxWaited_endsWf h (fun e n he => he) (regionForm_endsWf _ h (fun r => ?_)))
  split
  · dsimp only
    split <;> exact h
  · exact h

theorem execFxparam_endsWf (x : FmtR) (h : s.memoryWf) : EndsWf (execFxparam x s) := by
  refine frontEnd_endsWf h (fxWaited_endsWf h (fun e n he => he) (regionForm_endsWf _ h (fun r => ?_)))
  split
  · exact Fe.fault_endsWf _ h
  refine .ite (Fe.fault_endsWf _ h) ?_
  split
  · exact Fe.fault_endsWf _ h
  dsimp only
  split
  · exact h
  · exact .ite h h

theorem execFxdrop_endsWf (x : FmtR) (h : s.memoryWf) : EndsWf (execFxdrop x s) := by
  refine frontEnd_endsWf h (regionForm_endsWf _ h (fun r => ?_))
  split
  · exact h
  · exact .ite h h

theorem execDamp_endsWf (x : FmtR) (h : s.memoryWf) : EndsWf (execDamp x s) := frontEnd_endsWf h (.ite h h)

end Sys2Proof.Machine
end

section
/-!
SUPPORT. Canonical memory through the elements, and through the operations of the command processor and the register page.
-/

namespace Sys2Proof.Machine

variable {s : State}

theorem ElemForm.apply_memoryWf (m : ElemForm) (f : Firing) (r : Effect) (h : s.memoryWf) : (m.apply f r s).memoryWf := by
  unfold ElemForm.apply
  split
  · exact State.placedFault_memoryWf _ _ _ _ _ _ h
  · split
    · exact State.placedFault_memoryWf _ _ _ _ _ _ h
    · exact h

theorem State.fire_endsWf (m : ElemForm) (x : ElemWord) (h : s.memoryWf) : EndsWf (s.fire m x) := by
  fun_cases State.fire
  · exact ElemForm.apply_memoryWf _ _ _ h
  · exact h

/-- The state that an element's turn leaves is canonical. -/
def Turned.EndsWf : Turned → Prop
  | .idle t | .fires _ _ t => t.memoryWf

@[simp] theorem State.elemCycle_mem (core ei : Nat) (fired : Option Nat) : (s.elemCycle core ei fired).mem = s.mem := by
  fun_cases State.elemCycle <;> rfl

theorem State.elementTurn_endsWf (core ei : Nat) (h : s.memoryWf) : (s.elementTurn core ei).EndsWf := by
  unfold State.elementTurn
  dsimp only
  split
  · exact State.placedFault_memoryWf _ _ _ _ _ _ h
  · split
    · exact State.memoryWf_of_mem (State.elemCycle_mem ..) h
    · exact State.memoryWf_of_mem (State.elemCycle_mem ..) h

theorem State.queueError_memoryWf (q reason data : Nat) (h : s.memoryWf) : (s.queueError q reason data).memoryWf := by
  unfold State.queueError
  extract_lets x s1
  have h1 : s1.memoryWf := State.journalRaw_memoryWf _ _ _ _ _ _ _ _ _ (State.carry_memoryWf _ h)
  exact State.setQueue_memoryWf _ _ h1

theorem State.takeRecord_endsWf {late : State} (q : Nat) (ridx : Dword) (l : List Byte) (h : s.memoryWf) (hl : late.memoryWf) :
    EndsWf (s.takeRecord late q ridx l) := by
  unfold State.takeRecord
  dsimp only
  split
  · exact hl
  · trivial
  · exact State.journalRaw_memoryWf _ _ _ _ _ _ _ _ _ (State.carry_memoryWf _ h)
  · refine State.journal_memoryWf _ _ _ _ ?_
    exact h

theorem State.advance_memoryWf (q : Nat) (mirror : List (EAddr × Nat)) (h : s.memoryWf) : (s.advance q mirror).memoryWf := by
  refine State.hubPut_memoryWf _ _ ?_
  exact h

theorem State.dispatch_memoryWf (id : Nat) (h : s.memoryWf) : (s.dispatch id).memoryWf := by
  refine State.memoryWf_of_mem (State.setCommand_mem ..) (State.journal_memoryWf _ _ _ _ ?_)
  exact h

theorem State.cmdRetire_memoryWf (id : Nat) (h : s.memoryWf) : (s.cmdRetire id).memoryWf := by
  unfold State.cmdRetire
  extract_lets c
  exact State.finish_memoryWf _ (State.journal_memoryWf _ _ _ _ h)

theorem State.cmdFault_memoryWf (id reason data : Nat) (h : s.memoryWf) : (s.cmdFault id reason data).memoryWf := by
  unfold State.cmdFault
  exact State.finish_memoryWf _ (State.journal_memoryWf _ _ _ _ h)

theorem State.orderFault_memoryWf (id reason data : Nat) (h : s.memoryWf) : (s.orderFault id reason data).memoryWf := by
  unfold State.orderFault
  extract_lets q s1 x
  have h1 : s1.memoryWf := State.cmdFault_memoryWf _ _ _ h
  exact State.memoryWf.ite (State.setQueue_memoryWf _ _ h1) h1

/-- The state that a counter's change leaves is canonical. -/
def CounterEnd.EndsWf : CounterEnd → Prop
  | .ok t => t.memoryWf
  | _ => True

theorem State.counterPut_endsWf (part asid : Nat) (need : Need) (va : Nat) (f : Nat → Nat) (h : s.memoryWf) :
    (s.counterPut part asid need va f).EndsWf := by
  fun_cases State.counterPut
  · exact State.hubPut_memoryWf _ _ h
  all_goals trivial

theorem State.counterPut_memoryWf {part asid : Nat} {need : Need} {va : Nat} {f : Nat → Nat} {t : State} (h : s.memoryWf)
    (ht : s.counterPut part asid need va f = .ok t) : t.memoryWf := by
  have hc := State.counterPut_endsWf part asid need va f h
  rw [ht] at hc
  exact hc

theorem State.signal_endsWf (id : Nat) (add : Bool) (h : s.memoryWf) : EndsWf (s.signal id add) := by
  refine .ite h ?_
  split
  · next t ht => exact State.cmdRetire_memoryWf _ (State.counterPut_memoryWf h ht)
  · exact State.orderFault_memoryWf _ _ _ h
  · exact h
  · trivial

theorem State.reread_endsWf (id : Nat) (h : s.memoryWf) : EndsWf (s.reread id) := by
  unfold State.reread
  dsimp only
  split
  · exact State.cmdRetire_memoryWf _ h
  · exact h
  · exact h
  · exact State.orderFault_memoryWf _ _ _ h
  · trivial

theorem State.retireSignal_endsWf (id : Nat) (h : s.memoryWf) : EndsWf (s.retireSignal id) := by
  refine .ite (State.cmdRetire_memoryWf _ h) ?_
  split
  · next t ht => exact State.cmdRetire_memoryWf _ (State.counterPut_memoryWf h ht)
  · exact State.cmdFault_memoryWf _ _ _ h
  · exact h
  · trivial

theorem State.cmdKill_memoryWf (id : Nat) (h : s.memoryWf) : (s.cmdKill id).memoryWf := by
  refine State.cmdFault_memoryWf _ _ _ (foldl_memoryWf (fun s n hs => State.killSaved_memoryWf _ n 8 hs) _ ?_)
  refine foldl_memoryWf (fun s q hs => ?_) _ h
  split
  · exact State.killBlock_memoryWf _ _ _ hs
  · exact hs

theorem State.destroyQueue_memoryWf (q id : Nat) (force : Bool) (h : s.memoryWf) : (s.destroyQueue q id force).2.memoryWf := by
  fun_cases State.destroyQueue
  case case2 => exact foldl_memoryWf (fun s n hs => State.cmdKill_memoryWf n hs) _ h
  all_goals exact h

theorem State.destroyRecord_endsWf (id : Nat) (force : Bool) (h : s.memoryWf) : EndsWf (s.destroyRecord id force) := by
  refine .ite h ?_
  have hd := State.destroyQueue_memoryWf ((s.command id).field 4 2 % 4096) id force h
  split
  · next hq => rw [hq] at hd; exact State.cmdFault_memoryWf _ _ _ hd
  · next hq => rw [hq] at hd; exact State.cmdRetire_memoryWf _ hd

theorem State.hubMove_memoryWf (src dst : List (EAddr × Nat)) (h : s.memoryWf) : (s.hubMove src dst).memoryWf := by
  have put := State.hubPut_memoryWf dst (s.hubBytes src) h
  unfold State.hubMove
  dsimp only
  exact put

theorem execCommandFetch_endsWf (h : s.memoryWf) : EndsWf (execCommandFetch s) := by
  fun_cases execCommandFetch
  case case3 | case4 => exact State.queueError_memoryWf _ _ _ h
  case case5 | case6 => trivial
  case case9 => exact State.takeRecord_endsWf _ _ _ (State.advance_memoryWf _ _ h) h
  all_goals exact h

theorem execLaunch_endsWf (id : Nat) (h : s.memoryWf) : EndsWf (execLaunch id s) := .ite (State.dispatch_memoryWf _ h) h

theorem execCopy_endsWf (id : Nat) (h : s.memoryWf) : EndsWf (execCopy id s) := by
  refine .ite ?_ h
  extract_lets s1
  have h1 : s1.memoryWf := State.journal_memoryWf _ _ _ _ h
  exact State.setCommand_memoryWf _ _ h1

theorem execWait_endsWf (id : Nat) (h : s.memoryWf) : EndsWf (execWait id s) := .ite (State.reread_endsWf _ h) h

theorem execBarrierAnd_endsWf (id : Nat) (h : s.memoryWf) : EndsWf (execBarrierAnd id s) := .ite (State.reread_endsWf _ h) h

theorem execPlacePreload_endsWf (id : Nat) (h : s.memoryWf) : EndsWf (execPlacePreload id s) := .ite h h

theorem execJournalMark_endsWf (id : Nat) (h : s.memoryWf) : EndsWf (execJournalMark id s) := .ite (State.cmdRetire_memoryWf _ h) h

theorem execWaitReread_endsWf (id : Nat) (h : s.memoryWf) : EndsWf (execWaitReread id s) := .ite (State.reread_endsWf _ h) h

theorem execWaitTimeout_endsWf (id : Nat) (h : s.memoryWf) : EndsWf (execWaitTimeout id s) := .ite (State.orderFault_memoryWf _ _ _ h) h

theorem execGridRetire_endsWf (id : Nat) (h : s.memoryWf) : EndsWf (execGridRetire id s) := by
  refine .ite h ?_
  split
  · exact State.cmdFault_memoryWf _ _ _ h
  · exact State.retireSignal_endsWf _ h

theorem execCopyRetire_endsWf (id : Nat) (h : s.memoryWf) : EndsWf (execCopyRetire id s) := by
  refine .ite h (.ite (State.retireSignal_endsWf _ h) ?_)
  split
  · exact State.cmdFault_memoryWf _ _ _ h
  · exact State.cmdFault_memoryWf _ _ _ h
  · trivial
  · trivial
  · exact h
  · exact h
  · next l w _ _ =>
    have moved := State.hubMove_memoryWf l w h
    exact .ite (State.retireSignal_endsWf _ moved) moved

theorem execPreloadRetire_endsWf (id : Nat) (h : s.memoryWf) : EndsWf (execPreloadRetire id s) := by
  refine .ite h ?_
  split
  · exact State.cmdRetire_memoryWf _ h
  split
  · exact State.cmdFault_memoryWf _ _ _ h
  · exact h
  · trivial
  · dsimp only
    split
    · refine State.cmdRetire_memoryWf _ ?_
      exact h
    · exact h

@[simp] theorem State.doorbellIgnored_mem (p : Nat) : (s.doorbellIgnored p).mem = s.mem := by
  fun_cases State.doorbellIgnored <;> rfl

theorem execDoorbell_endsWf (d : Nat) (w : Dword) (h : s.memoryWf) : EndsWf (execDoorbell d w s) := by
  unfold execDoorbell
  dsimp only
  split
  · exact State.memoryWf_of_mem (State.doorbellIgnored_mem _) h
  · exact .ite (State.memoryWf_of_mem (State.doorbellIgnored_mem _) h) (.ite (State.queueError_memoryWf _ _ _ h) h)

theorem State.onPage_endsWf (f : Nat) {act : Nat → State → Out} (h : s.memoryWf) (ha : ∀ p t, t.memoryWf → EndsWf (act p t)) :
    EndsWf (s.onPage f act) := by
  refine .ite (ha _ _ h) ?_
  split
  · exact h
  · next p _ =>
    have hp := ha p _ (State.setPart_memoryWf p ((s.part p).withPage (SMap.get {} s.vfs (f - 4))) h)
    split
    · next ht => rw [ht] at hp; exact hp
    · exact hp

theorem State.qctlBy_endsWf (f q op : Nat) {act : Nat → State → Out} (h : s.memoryWf) (ha : ∀ p t, t.memoryWf → EndsWf (act p t)) :
    EndsWf (s.qctlBy f q op act) :=
  State.onPage_endsWf f h (fun p t ht => .ite (ha p t ht) ht)

theorem State.asctlBy_endsWf (f asid op : Nat) {act : Nat → State → Out} (h : s.memoryWf) (ha : ∀ p t, t.memoryWf → EndsWf (act p t)) :
    EndsWf (s.asctlBy f asid op act) :=
  State.onPage_endsWf f h (fun p t ht => .ite (ha p t ht) ht)

theorem qctlCreate_endsWf (q p : Nat) (h : s.memoryWf) : EndsWf (qctlCreate q p s) := by
  refine .ite h (.ite h (.ite trivial ?_))
  split <;> exact h

theorem qctlReadRidx_endsWf (q p : Nat) (h : s.memoryWf) : EndsWf (qctlReadRidx q p s) := .ite h (.ite h h)

theorem State.qctlDestroy_memoryWf (p q op : Nat) (h : s.memoryWf) : (s.qctlDestroy p q op).memoryWf := by
  have hd := State.destroyQueue_memoryWf q 0 (op == 4) h
  unfold State.qctlDestroy
  split
  · exact h
  split
  · exact h
  split
  · next hq => rw [hq] at hd; exact hd
  · next hq => rw [hq] at hd; exact hd

theorem State.asctlEnds_memoryWf (p asid op status : Nat) (h : s.memoryWf) : (s.asctlEnds p asid op status).memoryWf :=
  State.setPart_memoryWf _ _ h

theorem State.setSpace_memoryWf (p asid : Nat) (x : ASpace) (h : s.memoryWf) : (s.setSpace p asid x).memoryWf := State.setPart_memoryWf _ _ h

theorem asctlCreate_endsWf (asid p : Nat) (h : s.memoryWf) : EndsWf (asctlCreate asid p s) := by
  refine .ite (State.asctlEnds_memoryWf _ _ _ _ h) ?_
  split
  · exact State.asctlEnds_memoryWf _ _ _ _ h
  · exact State.asctlEnds_memoryWf _ _ _ _ (State.setSpace_memoryWf _ _ _ h)

theorem asctlUpdate_endsWf (asid p : Nat) (h : s.memoryWf) : EndsWf (asctlUpdate asid p s) := by
  refine .ite (State.asctlEnds_memoryWf _ _ _ _ h) ?_
  split
  · exact State.asctlEnds_memoryWf _ _ _ _ h
  · exact State.asctlEnds_memoryWf _ _ _ _ (State.setSpace_memoryWf _ _ _ h)

theorem asctlDestroy_endsWf (asid p : Nat) (h : s.memoryWf) : EndsWf (asctlDestroy asid p s) :=
  .ite (State.asctlEnds_memoryWf _ _ _ _ h)
    (.ite (State.asctlEnds_memoryWf _ _ _ _ h) (State.asctlEnds_memoryWf _ _ _ _ (State.setSpace_memoryWf _ _ _ h)))

theorem pooladd_endsWf (val : Dword) (p : Nat) (h : s.memoryWf) : EndsWf (pooladd val p s) := .ite h (State.poolReturn_memoryWf _ _ h)

theorem execTlbinvComplete_endsWf (p : Nat) (h : s.memoryWf) : EndsWf (execTlbinvComplete p s) := by
  unfold execTlbinvComplete
  split
  · exact h
  · exact .ite h h

theorem State.fresume_endsWf (p : Nat) (fid : Word) (act : Nat) (v : Dword) (h : s.memoryWf) : EndsWf (s.fresume p fid act v) := by
  refine .ite h ?_
  split
  · trivial
  · next st t ht => exact State.setPart_memoryWf _ _ (State.resume_memoryWf h ht)

theorem preemptGrid_endsWf (val : Dword) (p : Nat) (h : s.memoryWf) : EndsWf (preemptGrid val p s) := by
  refine .ite h ?_
  split
  · exact h
  · exact .ite h h

theorem preemptBlock_endsWf (val : Dword) (p : Nat) (h : s.memoryWf) : EndsWf (preemptBlock val p s) := by
  refine .ite h ?_
  split
  · exact h
  · refine .ite h ?_
    split <;> exact h

theorem pwrbudget_endsWf (val : Dword) (p : Nat) (h : s.memoryWf) : EndsWf (pwrbudget val p s) := .ite h h

theorem csaadd_endsWf (val : Dword) (p : Nat) (h : s.memoryWf) : EndsWf (csaadd val p s) := .ite h h

theorem fqrWrite_endsWf (val : Dword) (p : Nat) (h : s.memoryWf) : EndsWf (fqrWrite val p s) :=
  .ite h (State.drainFaults_memoryWf _ _ (State.setPart_memoryWf p _ h))

theorem fqbaseWrite_endsWf (val : Dword) (p : Nat) (h : s.memoryWf) : EndsWf (fqbaseWrite val p s) :=
  .ite h (State.drainFaults_memoryWf _ _ (State.setPart_memoryWf p _ h))

@[simp] theorem State.breakDamp_mem (p va : Nat) : (s.breakDamp p va).mem = s.mem := State.mapCores_mem _

@[simp] theorem State.breakLift_mem (p va : Nat) : (s.breakLift p va).mem = s.mem := State.mapCores_mem _

@[simp] theorem State.breakDamps_mem (p : Nat) : (s.breakDamps p).mem = s.mem := by
  fun_cases State.breakDamps
  · exact foldl_mem _ (fun s q => State.breakDamp_mem ..) _ s
  · rfl

@[simp] theorem State.haltDamp_mem (core slot : Nat) : (s.haltDamp core slot).mem = s.mem := by
  fun_cases State.haltDamp <;> rfl

theorem State.dbgCommand_endsWf (p core slot op : Nat) (f : Group → Option Group) (h : s.memoryWf) :
    EndsWf (s.dbgCommand p core slot op f) := by
  refine .ite h ?_
  split
  · exact State.memoryWf_of_mem ((State.checkBars_mem ..).trans (State.haltDamp_mem ..)) h
  · exact h

theorem execDbgctlWrite_endsWf (p : Nat) (val : Dword) (h : s.memoryWf) : EndsWf (execDbgctlWrite p val s) := by
  unfold execDbgctlWrite
  dsimp only
  split
  · exact State.memoryWf_of_mem (State.breakDamps_mem _) h
  · exact h

theorem execDbgbpWrite_endsWf (p n : Nat) (val : Dword) (h : s.memoryWf) : EndsWf (execDbgbpWrite p n val s) := by
  refine .ite h ?_
  split <;> split
  · exact State.memoryWf_of_mem ((State.breakDamp_mem ..).trans (State.breakLift_mem ..)) h
  · exact State.memoryWf_of_mem (State.breakDamp_mem ..) h
  · exact State.memoryWf_of_mem (State.breakLift_mem ..) h
  · exact h

@[simp] theorem State.pmcPut_mem (p : Nat) (f : Core → Core) : (s.pmcPut p f).mem = s.mem := by
  fun_cases State.pmcPut <;> rfl

theorem State.guarded_memoryWf {t : State} (ok : Bool) (h : s.memoryWf) (ht : t.memoryWf) : (s.guarded ok t).memoryWf := by
  fun_cases State.guarded
  · exact ht
  · exact h

theorem State.registerWrite_memoryWf (p off : Nat) (val : Dword) (h : s.memoryWf) : (s.registerWrite p off val).memoryWf := by
  have put (y : Partition) : (s.setPart p y).memoryWf := h
  have drained (y : Partition) : ((s.setPart p y).drainAll p).memoryWf := State.drainFaults_memoryWf _ _ (put y)
  have kept (ok : Bool) (y : Partition) : (s.guarded ok (s.setPart p y)).memoryWf := State.guarded_memoryWf ok h (put y)
  have counted (f : Core → Core) : (s.pmcPut p f).memoryWf := State.memoryWf_of_mem (State.pmcPut_mem ..) h
  have statusOf (c : Prop) [Decidable c] (y : Partition) : State.memoryWf (if c then s.setPart p y else s) := .ite (put y) h
  exact .ite (statusOf _ _) <| .ite (put _) <| .ite (put _) <| .ite (put _) <| .ite (kept _ _) <|
    .ite (State.guarded_memoryWf _ h (drained _)) <| .ite (kept _ _) <| .ite (kept _ _) <| .ite (kept _ _) <| .ite (kept _ _) <|
    .ite (kept _ _) <| .ite (kept _ _) <| .ite (kept _ _) <| .ite (kept _ _) <| .ite (kept _ _) <| .ite (kept _ _) <| .ite (kept _ _) <|
    .ite (statusOf _ _) <| .ite (put _) <| .ite (put _) <| .ite (counted _) <| .ite (counted _) <| .ite (counted _) <|
    .ite (put _) <| .ite (kept _ _) h

theorem execRegisterWrite_endsWf (f off : Nat) (val : Dword) (h : s.memoryWf) : EndsWf (execRegisterWrite f off val s) :=
  .ite h (State.onPage_endsWf f h (fun p _ ht => State.registerWrite_memoryWf p off val ht))

end Sys2Proof.Machine
end

section
/-!
SUPPORT. Canonical memory through the events of the die: placement, replies and translations, the directory, the errors, the engines and the
matrix unit.
-/

namespace Sys2Proof.Machine

variable {s : State} {e : Fe}

theorem execBlockPlace_endsWf (id die : Nat) (sites : List Site) (h : s.memoryWf) : EndsWf (execBlockPlace id die sites s) := by
  have placed (l : List Chunk) (b : Nat) : ((s.setUnits die l).startAll id sites b).memoryWf :=
    State.memoryWf_of_mem (State.startAll_mem ..) h
  refine .ite h ?_
  split
  · exact h
  · exact .ite (.ite (placed _ _) h) (.ite (placed _ _) h)

theorem execStealMessage_endsWf (id thief victim : Nat) (h : s.memoryWf) : EndsWf (execStealMessage id thief victim s) := by
  refine .ite h ?_
  split <;> exact h

theorem execBlockRetire_endsWf (core blk : Nat) (h : s.memoryWf) : EndsWf (execBlockRetire core blk s) := by
  have hf := State.flushBlock_endsWf core blk h
  refine .ite h ?_
  split
  · trivial
  · next ht => rw [ht] at hf; exact hf
  · next ht => rw [ht] at hf; exact hf
  · next ht =>
    rw [ht] at hf
    exact State.memoryWf_of_mem (State.gangSettle_mem ..) (State.leave_memoryWf _ _ _ hf)

@[simp] theorem State.countStale_mem (core : Nat) : (s.countStale core).mem = s.mem := by
  fun_cases State.countStale <;> rfl

theorem Fe.reply_endsWf (w : ReqWork) (h : e.s.memoryWf) : EndsWf (e.reply w) := by
  unfold Fe.reply
  split
  · dsimp only
    split
    · exact Fe.loadedK_endsWf _ _ _ (Fe.reads_memoryWf _ _ h)
    · exact Fe.loaded_endsWf _ _ _ (Fe.reads_memoryWf _ _ h)
  · exact Fe.indirect_endsWf _ _ (Fe.reads_memoryWf _ _ h)
  · exact Fe.loaded_endsWf _ _ _ h

theorem execLoadReturn_endsWf (core n : Nat) (h : s.memoryWf) : EndsWf (execLoadReturn core n s) := by
  unfold execLoadReturn
  dsimp only
  split
  · exact h
  · exact .ite h (.ite (State.memoryWf_of_mem (State.countStale_mem _) h) (.ite h (Fe.reply_endsWf _ h)))

theorem execWritePerform_endsWf (n : Nat) (h : s.memoryWf) : EndsWf (execWritePerform n s) := by
  refine .ite h ?_
  dsimp only
  split
  · split
    · exact h
    · exact State.memoryWf_of_mem (State.countStale_mem _) h
  · exact h

theorem execTranslationResponse_endsWf (core slot : Nat) (ok : Bool) (h : s.memoryWf) : EndsWf (execTranslationResponse core slot ok s) := by
  unfold execTranslationResponse
  dsimp only
  split
  · have held (l : List TlbEntry) : State.memoryWf (if ok then { s with tlb := l } else s) := .ite h h
    refine .ite (held _) (.ite (held _) ?_)
    exact State.raise_memoryWf _ _ _ (State.setGroup_memoryWf _ _ _ (held _))
  · exact h

theorem execWalkComplete_endsWf (core asid : Nat) (va : Dword) (h : s.memoryWf) : EndsWf (execWalkComplete core asid va s) := by
  unfold execWalkComplete
  dsimp only
  split
  · exact h
  · exact .ite h (.ite h h)

theorem State.kitStep_endsWf (asks : Bool) (kit line : Nat) (f : DirEntry → DirEntry) (h : s.memoryWf) : EndsWf (s.kitStep asks kit line f) := by
  refine .ite h ?_
  have asked : State.memoryWf (if asks then s.countMisses kit [line] else s) := .ite h h
  exact asked

theorem State.evictEntry_memoryWf (line : Nat) (h : s.memoryWf) : (s.evictEntry line).memoryWf := by
  unfold State.evictEntry
  refine State.memoryWf_of_mem (State.setDir_mem ..) (foldl_memoryWf (fun s q hs => ?_) _ ?_)
  · exact State.memoryWf_of_mem (State.deliverNotice_mem ..) hs
  · exact State.memoryWf_of_mem (State.woken_mem ..) h

theorem execCoherenceEvict_endsWf (kit line : Nat) (h : s.memoryWf) : EndsWf (execCoherenceEvict kit line s) :=
  .ite (State.kitStep_endsWf _ _ _ _ h) (.ite h (State.evictEntry_memoryWf _ h))

theorem State.serveAtomic_memoryWf (core : Nat) (r : Request) (h : s.memoryWf) : (s.serveAtomic core r).memoryWf := by
  fun_cases State.serveAtomic
  · exact State.setCore_memoryWf _ _ (State.memoryWf_of_mem (State.ordered_mem ..) (State.atomics_memoryWf _ _ _ _ h))
  · exact h

theorem execHomeAtomic_endsWf (core n : Nat) (h : s.memoryWf) : EndsWf (execHomeAtomic core n s) := by
  unfold execHomeAtomic
  split
  · exact .ite h (State.serveAtomic_memoryWf _ _ h)
  · exact h

theorem execWindowNotice_endsWf (n : Nat) (h : s.memoryWf) : EndsWf (execWindowNotice n s) := by
  unfold execWindowNotice
  split
  · exact State.memoryWf_of_mem (State.deliverNotice_mem ..) h
  · exact h

theorem execHomeAnswerTimeout_endsWf (line agent : Nat) (h : s.memoryWf) : EndsWf (execHomeAnswerTimeout line agent s) := by
  have posted (p c : Nat) (a : Nat) : ((s.poisonLine line).deviceFault p c 0x41 0 a).memoryWf := State.deviceFault_memoryWf _ _ _ _ _ h
  exact .ite h (.ite (posted _ _ _) (posted _ _ _))

theorem State.fatalIn_endsWf (core blk cause sub addr : Nat) (h : s.memoryWf) : EndsWf (s.fatalIn core blk cause sub addr) :=
  .ite (State.blockFatal_memoryWf _ _ _ _ _ h) h

theorem execEccError_endsWf (what : EccSite) (h : s.memoryWf) : EndsWf (execEccError what s) := by
  cases what with
  | register core blk | matrix core blk | element core blk => exact State.fatalIn_endsWf _ _ _ _ _ h
  | dirtyLine k | hbmWord k | l1Word k | scratchWord core k | laneWord core k => exact State.memoryWf.ite h h
  | cleanLine k | tlbEntry n | correctable => exact h
  | directory k => exact State.deviceFault_memoryWf _ _ _ _ _ h
  | consumed core blk k => exact .ite (State.fatalIn_endsWf _ _ _ _ _ h) h

@[simp] theorem State.performed_mem (core slot : Nat) (cells : List (Nat × Nat)) : (s.performed core slot cells).mem = s.mem :=
  (State.deliverAll_mem ..).trans (State.ordered_mem ..)

theorem State.putRanges_memoryWf (core blk : Nat) (r : List (EAddr × Nat)) (l : List Byte) (h : s.memoryWf) :
    (s.putRanges core blk r l).memoryWf := by
  induction r generalizing s l with
  | nil => exact h
  | cons p r ih =>
    refine ih _ ?_
    split
    · exact State.memoryWf_of_mem (State.spWrite_mem ..) h
    · split
      · exact State.memoryWf_of_mem (State.spWrite_mem ..) h
      · exact h
    · exact State.putCells_memoryWf _ h
    · exact h

theorem State.transfer_memoryWf (core blk slot : Nat) (reads writes : List (EAddr × Nat)) (h : s.memoryWf) :
    (s.transfer core blk slot reads writes).memoryWf :=
  State.memoryWf_of_mem (State.performed_mem ..) (State.putRanges_memoryWf _ _ _ _ h)

theorem State.suspendCopy_memoryWf (core : Nat) (o : CopyOp) (done cause sub addr : Nat) (h : s.memoryWf) :
    (s.suspendCopy core o done cause sub addr).memoryWf :=
  State.postFault_memoryWf _ _ _ (State.setCore_memoryWf core _ (State.releaseClaims_memoryWf core [o.id] h))

theorem State.tileDone_memoryWf (core : Nat) (o : TileOp) (h : s.memoryWf) : (s.tileDone core o).memoryWf :=
  State.setCore_memoryWf _ _ (State.disown_memoryWf core o.id h)

theorem State.matDone_memoryWf (core : Nat) (q : MatEntry) (h : s.memoryWf) : (s.matDone core q).memoryWf :=
  State.setCore_memoryWf _ _ (State.disown_memoryWf core q.id h)

theorem execCopyComplete_endsWf (core n : Nat) (h : s.memoryWf) : EndsWf (execCopyComplete core n s) := by
  unfold execCopyComplete
  split
  · exact h
  refine .ite h ?_
  split
  · exact State.blockFatal_memoryWf _ _ _ _ _ h
  · exact State.copyDone_memoryWf _ _ (State.transfer_memoryWf _ _ _ _ _ h)

theorem execEnginePieceFault_endsWf (core n : Nat) (h : s.memoryWf) : EndsWf (execEnginePieceFault core n s) := by
  unfold execEnginePieceFault
  split
  · exact h
  refine .ite h ?_
  split
  · exact h
  split
  · exact .ite (State.suspendCopy_memoryWf _ _ _ _ _ _ (State.transfer_memoryWf _ _ _ _ _ h)) (State.suspendCopy_memoryWf _ _ _ _ _ _ h)
  · trivial
  · exact h

theorem execTileComplete_endsWf (core tile : Nat) (h : s.memoryWf) : EndsWf (execTileComplete core tile s) := by
  have done {t : State} (o : TileOp) (cells : List (Nat × Nat)) (ht : t.memoryWf) : ((t.performed core o.slot cells).tileDone core o).memoryWf :=
    State.tileDone_memoryWf _ _ (State.memoryWf_of_mem (State.performed_mem ..) ht)
  unfold execTileComplete
  split
  · exact h
  refine .ite h ?_
  split
  · exact State.blockFatal_memoryWf _ _ _ _ _ h
  split
  · exact done _ _ (foldl_memoryWf (fun s q hs => State.putRanges_memoryWf _ _ _ _ hs) _ h)
  · exact done _ _ (foldl_memoryWf (fun s q hs => State.putRanges_memoryWf _ _ _ _ hs) _ h)
  · refine .ite (State.tileDone_memoryWf _ _ (State.coreFault_memoryWf _ _ _ _ _ _ h)) (.ite h ?_)
    split
    · exact State.blockFatal_memoryWf _ _ _ _ _ h
    · exact State.tileDone_memoryWf _ _ (State.putRanges_memoryWf _ _ _ _ h)

theorem State.obFill_memoryWf (core blk name off sub addr : Nat) (l : List Byte) (h : s.memoryWf) :
    (s.obFill core blk name off sub addr l).memoryWf := by
  fun_cases State.obFill
  · exact h
  · exact State.coreFault_memoryWf _ _ _ _ _ _ h
  · exact h

@[simp] theorem State.pin_mem (core blk name : Nat) (lines : List Nat) : (s.pin core blk name lines).mem = s.mem := by
  fun_cases State.pin <;> rfl

theorem State.matWork_memoryWf (core blk : Nat) (w : MatWork) (h : s.memoryWf) : (s.matWork core blk w).memoryWf := by
  cases w with
  | obldS o a off n src => exact State.obFill_memoryWf _ _ _ _ _ _ _ h
  | obldR o off lanes =>
    unfold State.matWork
    dsimp only
    split <;> exact h
  | tfetch o off n va src => exact State.memoryWf_of_mem (State.pin_mem ..) (State.obFill_memoryWf _ _ _ _ _ _ _ h)
  | drainS t dst clr rel => exact State.setCore_memoryWf _ _ (State.putRanges_memoryWf _ _ _ _ h)
  | _ => exact h

theorem execMatrixEntryComplete_endsWf (core n : Nat) (h : s.memoryWf) : EndsWf (execMatrixEntryComplete core n s) := by
  unfold execMatrixEntryComplete
  split
  · exact h
  refine .ite h ?_
  split
  · exact State.blockFatal_memoryWf _ _ _ _ _ h
  · exact State.matDone_memoryWf _ _ (State.matWork_memoryWf _ _ _ h)

theorem execMmaRoundStart_endsWf (core : Nat) (h : s.memoryWf) : EndsWf (execMmaRoundStart core s) := by
  unfold execMmaRoundStart
  dsimp only
  split
  · exact h
  split
  · exact h
  refine .ite h ?_
  split <;> exact h

theorem execDrainToken_endsWf (core : Nat) (h : s.memoryWf) : EndsWf (execDrainToken core s) := by
  unfold execDrainToken
  dsimp only
  split
  · exact h
  split
  · exact .ite h (.ite h (State.matDone_memoryWf _ _ (State.setCore_memoryWf core _ h)))
  · exact h

end Sys2Proof.Machine
end

section
/-!
SUPPORT. Canonical memory through the regions: shuffles, hand-overs, the words of a loop body, and the accesses of memory nodes.
-/

namespace Sys2Proof.Machine

variable {s : State} {e : Fe}

theorem execRegroupShuffle_endsWf (core blk : Nat) (h : s.memoryWf) : EndsWf (execRegroupShuffle core blk s) := by
  unfold execRegroupShuffle
  dsimp only
  split
  · exact h
  · exact .ite h (.ite h (.ite h h))

theorem execPlacerComplete_endsWf (core : Nat) (h : s.memoryWf) : EndsWf (execPlacerComplete core s) := by
  unfold execPlacerComplete
  dsimp only
  split
  · exact h
  split
  · exact h
  · exact .ite h h

theorem execHandOver_endsWf (core slot : Nat) (h : s.memoryWf) : EndsWf (execHandOver core slot s) := by
  fun_cases execHandOver
  case case3 => exact State.memoryWf.ite (State.placedFault_memoryWf _ _ _ _ _ _ (State.setCore_memoryWf core _ h)) h
  all_goals exact h

theorem execIterationAdmit_endsWf (core n : Nat) (h : s.memoryWf) : EndsWf (execIterationAdmit core n s) := by
  unfold execIterationAdmit
  dsimp only
  split
  · exact .ite h h
  · exact h

/-- A word of a body writes registers, or accesses memory as it does outside one. -/
theorem execBody_endsWf (i : Instr) (h : s.memoryWf) : EndsWf (execBody i s) := by
  unfold execBody
  cases i
  case ld => exact frontEnd_endsWf h (loadEffect_endsWf _ _ h)
  case st => exact frontEnd_endsWf h (storeEffect_endsWf _ _ _ _ h)
  case lds => exact frontEnd_endsWf h (ldsEffect_endsWf _ _ h)
  case sts => exact frontEnd_endsWf h (stsEffect_endsWf _ _ h)
  case ldl => exact execLdl_endsWf _ h
  case stl => exact execStl_endsWf _ h
  case redadd | redmin | redmax | redfadd => exact frontEnd_endsWf h (reduceEffect_endsWf _ _ _ _ _ h)
  case atadd | atmin | atmax | atand | ator | atxor | atexch | atcas | atinc | atdec | atfadd | atfmin | atfmax =>
    exact frontEnd_endsWf h (atomicEffect_endsWf _ _ _ _ _ _ _ h)
  case atsadd | atsmin | atsmax | atscas => exact frontEnd_endsWf h (atsEffect_endsWf _ _ _ _ _ _ _ h)
  case fence => exact execFence_endsWf _ h
  case iadd | isub | imul | imad | imulh | imin | imax | and | or | xor | andn | not | shl | shr | sar | popc | clz | icmp | isel | pset |
      mov | movi | lea | lea64 | fadd | fsub | fmul | ffma | fmin | fmax | fcmp | cvt =>
    exact frontEnd_endsWf h h
  all_goals exact h

/-- The state that a word or an iteration leaves is canonical. -/
def Swept.EndsWf : Swept → Prop
  | .done t _ _ | .damp _ t | .killed t => t.memoryWf
  | _ => True

theorem State.settle_memoryWf (core : Nat) (slots : List Nat) (h : s.memoryWf) : (s.settle core slots).memoryWf :=
  foldl_memoryWf (fun _ _ hs => State.memoryWf_of_mem (State.deliverAll_mem ..) hs) _ h

theorem State.answer_memoryWf (core slot : Nat) (h : s.memoryWf) : (s.answer core slot).memoryWf := by
  unfold State.answer
  split
  · exact h
  · next r _ =>
    have served := State.serveAtomic_memoryWf core r h
    dsimp only
    split
    · next t ht =>
      obtain ⟨r', -, hr⟩ := Option.map_eq_some_iff.mp ht
      have replied : EndsWf (((s.serveAtomic core r).replyFe core r').reply r'.work) := Fe.reply_endsWf _ served
      rw [hr] at replied
      exact replied
    · exact served

theorem State.bodyWord_endsWf (core slot blk : Nat) (pc : Dword) (i : Instr) (act : Mask) (h : s.memoryWf) :
    (s.bodyWord core slot blk pc i act).EndsWf := by
  unfold State.bodyWord
  extract_lets at_ after
  have judged (o : Out) (ho : EndsWf o) : (after o).EndsWf := by
    cases o with
    | next t =>
      replace ho : t.memoryWf := ho
      dsimp only [after]
      split
      · exact ho
      cases (t.group core slot).st with
      | suspended fid => exact h
      | running =>
        dsimp only
        split
        · exact ho
        · trivial
      | waiting w =>
        cases w with
        | reply => exact State.answer_memoryWf _ _ ho
        | _ => trivial
      | _ => trivial
    | _ => trivial
  have ran (t : State) (ht : t.memoryWf) : EndsWf (at_ t) := by
    refine execBody_endsWf i ?_
    exact ht
  split
  · exact judged _ (ran _ (State.settle_memoryWf _ _ h))
  · exact judged _ (ran _ h)

theorem State.sweep_endsWf (core slot blk : Nat) (hd : Dword) (q : Sweep) (ws : List Dword) (i tag : Nat) (act0 : Mask)
    (skips : List (Nat × Mask)) (t : Trace) (h : s.memoryWf) : (State.sweep core slot blk hd q ws i tag s act0 skips t).EndsWf := by
  fun_induction State.sweep
  case case1 | case2 => exact h
  case case3 | case5 => exact State.memoryWf.ite h h
  case case4 ih | case6 ih => exact ih (.ite h h)
  case case7 ih => exact ih h
  case case8 i _ s _ _ _ _ j _ _ _ _ _ ev left s1 _ _ hw s2 ih =>
    have word : (if left = 0 then Swept.done s 0 {} else s.bodyWord core slot blk (hd + BitVec.ofNat 64 (8 * i)) j left).EndsWf := by
      split
      · exact h
      · exact State.bodyWord_endsWf _ _ _ _ _ _ h
    rw [hw] at word
    refine ih ?_
    dsimp only [s2]
    split
    · exact State.setGroup_memoryWf core slot _ word
    · exact word
  case case9 =>
    split
    · exact h
    · exact State.bodyWord_endsWf _ _ _ _ _ _ h

theorem State.earlyLoad_memoryWf {core : Nat} {p : Placed} {q : Copy} {m tag : Nat} {lanes : Mask} {addr : Nat → Nat} {l : List EarlyLoad}
    {t : State} (h : s.memoryWf) (ht : s.earlyLoad core p q m tag lanes addr = some (l, t)) : t.memoryWf := by
  revert ht
  fun_cases State.earlyLoad <;> intro ht
  case case3 =>
    cases ht
    exact h
  case case4 idx j _ _ _ _ _ d _ _ _ _ _ _ _ _ now _ x _ _ s1 _ _ hw =>
    obtain ⟨-, rfl⟩ := Prod.mk.inj (Option.some.inj ht)
    have word := State.bodyWord_endsWf (s := now) core q.slot p.blk (q.head + BitVec.ofNat 64 (8 * idx)) j x h
    rw [hw] at word
    exact State.setGroup_memoryWf core q.slot _ word
  all_goals cases ht

theorem execIterationCommit_endsWf (core n : Nat) (h : s.memoryWf) : EndsWf (execIterationCommit core n s) := by
  have swept (p : Placed) (q : Copy) (act : Mask) := State.sweep_endsWf core q.slot p.blk q.head ⟨q.oldest, q.early, q.body.length⟩ q.body 0 0
    act [] {} (s := s.trial core q) h
  fun_cases execIterationCommit
  case case2 => exact State.memoryWf_of_mem (State.keepFills_mem ..) h
  case case4 p q _ _ _ ht =>
    have hq := swept p q (q.entryMask &&& ~~~q.exited)
    rw [ht] at hq
    exact hq
  case case5 => trivial
  case case6 p q _ _ _ _ _ _ ht _ _ _ _ =>
    have hq := swept p q (q.entryMask &&& ~~~q.exited)
    rw [ht] at hq
    exact State.setCore_memoryWf _ _ (State.setGroup_memoryWf _ _ _ hq)
  all_goals exact h

theorem NodeTurn.captured_endsWf {t : NodeTurn} (q : Copy) (h : t.s.memoryWf) : EndsWf (t.captured q) := by
  fun_cases NodeTurn.captured
  case case4 v hv _ _ => exact State.setCore_memoryWf _ _ (State.earlyLoad_memoryWf h hv)
  all_goals exact h

@[simp] theorem NodeTurn.note_mem (t : NodeTurn) : t.note.mem = t.s.mem := by
  fun_cases NodeTurn.note <;> rfl

theorem NodeTurn.fault_endsWf {t : NodeTurn} (cause sub addr : Nat) (h : t.s.memoryWf) : EndsWf (t.fault cause sub addr) :=
  State.placedFault_memoryWf _ _ _ _ _ _ h

theorem NodeTurn.checked_endsWf {t : NodeTurn} (n : Nat) (reads : Bool) (lanes : List (Nat × Nat × Xlat))
    {go : List (Nat × Option Nat) → Out} (h : t.s.memoryWf) (hg : ∀ l, EndsWf (go l)) : EndsWf (t.checked n reads lanes go) := by
  fun_cases NodeTurn.checked
  case case3 => exact NodeTurn.fault_endsWf _ _ _ h
  case case4 => trivial
  case case6 => exact State.blockFatal_memoryWf _ _ _ _ _ h
  case case7 => exact hg _
  all_goals exact h

@[simp] theorem NodeTurn.filled_mem (t : NodeTurn) (lanes : List (Nat × Option Nat)) : (t.filled lanes).mem = t.s.mem := by
  fun_cases NodeTurn.filled
  · exact (State.loadLines_mem ..).trans (State.fillAll_mem ..)
  · rfl

theorem NodeTurn.perform_memoryWf {t : NodeTurn} (lanes : List (Nat × Option Nat)) (h : t.s.memoryWf) : (t.perform lanes).1.memoryWf := by
  have filled : (t.filled lanes).memoryWf := State.memoryWf_of_mem (t.filled_mem lanes) h
  fun_cases NodeTurn.perform
  · exact h
  · exact State.setCore_memoryWf _ _ (foldl_memoryWf (fun _ _ hs => State.memoryWf_of_mem (State.cleanse_mem ..) hs) _ h)
  · exact foldl_memoryWf (fun _ _ hs => State.memoryWf_of_mem (State.observeLocal_mem ..) hs) _ filled
  · exact foldl_memoryWf (fun _ _ hs => State.memoryWf_of_mem (State.localWrite_mem ..) hs) _ filled
  · exact State.memoryWf_of_mem (State.localAtomics_mem ..) filled
  · exact State.memoryWf_of_mem (State.loadLines_mem ..) h
  · exact State.storeCells_memoryWf _ _ _ _ h
  · exact State.memoryWf_of_mem (State.ordered_mem ..) (State.atomics_memoryWf _ _ _ _ h)

@[simp] theorem NodeTurn.drawn_mem (t : NodeTurn) : (t.drawn s).mem = s.mem := by
  fun_cases NodeTurn.drawn <;> rfl

theorem NodeTurn.regionAccess_endsWf {t : NodeTurn} (h : t.s.memoryWf) : EndsWf t.regionAccess := by
  have filled l : (t.filled l).memoryWf := State.memoryWf_of_mem (t.filled_mem l) h
  refine .ite (State.memoryWf_of_mem t.note_mem h) (.ite h (NodeTurn.checked_endsWf _ _ _ h (fun l => ?_)))
  refine .ite (State.blockFatal_memoryWf _ _ _ _ _ (filled l)) (.ite h (State.setCore_memoryWf _ _ ?_))
  exact State.memoryWf_of_mem (t.drawn_mem) (NodeTurn.perform_memoryWf l h)

theorem State.nodeTurn_s {core n : Nat} {t : NodeTurn} (ht : s.nodeTurn core n = some t) : t.s = s := by
  unfold State.nodeTurn at ht
  dsimp only at ht
  split at ht <;> cases ht
  rfl

theorem execMemoryNodeAccess_endsWf (core n : Nat) (h : s.memoryWf) : EndsWf (execMemoryNodeAccess core n s) := by
  unfold execMemoryNodeAccess
  split
  · exact h
  · next t ht =>
    have hs : t.s.memoryWf := (State.nodeTurn_s ht).symm ▸ h
    split
    · exact .ite (NodeTurn.captured_endsWf _ hs) h
    · exact .ite (State.memoryWf_of_mem t.note_mem hs) (NodeTurn.regionAccess_endsWf hs)

end Sys2Proof.Machine
end

section
/-!
SUPPORT. Canonical memory through the ends of loops, streams and regions, the watchdogs and probes, saves and restores, service, links and
code objects.
-/

namespace Sys2Proof.Machine

variable {s : State}

theorem execLoopExit_endsWf (core n : Nat) (h : s.memoryWf) : EndsWf (execLoopExit core n s) := by
  fun_cases execLoopExit <;> exact h

theorem execLoopDamp_endsWf (core n : Nat) (why : DampWhy) (h : s.memoryWf) : EndsWf (execLoopDamp core n why s) := by
  fun_cases execLoopDamp <;> exact h

theorem execLiveoutWriteback_endsWf (core n : Nat) (h : s.memoryWf) : EndsWf (execLiveoutWriteback core n s) := by
  fun_cases execLiveoutWriteback
  case case1 => exact State.memoryWf.ite (State.raise_memoryWf _ _ _ (State.setCore_memoryWf core _ h)) h
  all_goals exact h

theorem execChannelTokenArrive_endsWf (core n : Nat) (h : s.memoryWf) : EndsWf (execChannelTokenArrive core n s) := by
  fun_cases execChannelTokenArrive <;> exact h

theorem execStreamToken_endsWf (core n : Nat) (h : s.memoryWf) : EndsWf (execStreamToken core n s) := by
  have loaded (c : Prop) [Decidable c] (t : NodeTurn) (me k : Nat) (a : Nat → Nat) (l : List (Nat × Option Nat)) (x y : List (Nat × Nat)) :
      State.memoryWf (if c then s.loadLines core me 0 x else (s.fillAll core t.p.blk k a l).loadLines core me 0 y) :=
    .ite (State.memoryWf_of_mem (State.loadLines_mem ..) h)
      (State.memoryWf_of_mem ((State.loadLines_mem ..).trans (State.fillAll_mem ..)) h)
  fun_cases execStreamToken
  case case4 t ht _ _ _ _ _ =>
    refine NodeTurn.checked_endsWf _ _ _ (State.nodeTurn_s ht ▸ h) (fun l => .ite ?_ (State.setCore_memoryWf _ _ ?_))
    · exact State.blockFatal_memoryWf _ _ _ _ _ (loaded _ _ _ _ _ _ _ _)
    · refine State.memoryWf_of_mem t.drawn_mem (.ite (loaded _ _ _ _ _ _ _ _) (foldl_memoryWf (fun _ _ hs => ?_) _ (loaded _ _ _ _ _ _ _ _)))
      exact State.memoryWf_of_mem (State.observeLocal_mem ..) hs
  all_goals exact h

theorem execStreamRound_endsWf (core n : Nat) (h : s.memoryWf) : EndsWf (execStreamRound core n s) := by
  fun_cases execStreamRound <;> exact h

theorem execRegionDone_endsWf (core n : Nat) (h : s.memoryWf) : EndsWf (execRegionDone core n s) := by
  fun_cases execRegionDone <;> exact h

theorem execCarillonStarve_endsWf (core elem slot : Nat) (h : s.memoryWf) : EndsWf (execCarillonStarve core elem slot s) := by
  fun_cases execCarillonStarve
  · exact State.placedFault_memoryWf _ _ _ _ _ _ (State.setCore_memoryWf core _ h)
  · exact h

theorem execProbeSend_endsWf (core elem chan : Nat) (h : s.memoryWf) : EndsWf (execProbeSend core elem chan s) := by
  fun_cases execProbeSend <;> exact h

theorem State.deadlocked_memoryWf (core : Nat) (q : Probe) (path : List (Nat × Nat)) (h : s.memoryWf) : (s.deadlocked core q path).memoryWf :=
  State.placedFault_memoryWf _ _ _ _ _ _ (State.setCore_memoryWf core _ h)

theorem execProbeForward_endsWf (core : Nat) (h : s.memoryWf) : EndsWf (execProbeForward core s) := by
  fun_cases execProbeForward
  case case2 => exact State.deadlocked_memoryWf _ _ _ (State.setCore_memoryWf core _ h)
  all_goals exact h

theorem execCountToken_endsWf (core blk : Nat) (h : s.memoryWf) : EndsWf (execCountToken core blk s) := by
  fun_cases execCountToken <;> exact h

theorem execPreemptArrive_endsWf (core blk : Nat) (h : s.memoryWf) : EndsWf (execPreemptArrive core blk s) := by
  fun_cases execPreemptArrive
  case case4 =>
    refine foldl_memoryWf (fun t q ht => ?_) _ (State.setPart_memoryWf _ _ h)
    exact State.setCore_memoryWf q.1 _ ht
  all_goals exact h

theorem execPreemptDeadline_endsWf (core blk : Nat) (h : s.memoryWf) : EndsWf (execPreemptDeadline core blk s) := by
  fun_cases execPreemptDeadline <;> exact h

/-- The state that writing placements back leaves is canonical. -/
def AreaWrite.EndsWf : AreaWrite → Prop
  | .ok t => t.memoryWf
  | .wait => True

theorem State.areaEntry_endsWf (b : Block) (o : CodeObj) (k : PlaceKey) (i : List Byte) (h : s.memoryWf) : (s.areaEntry b o k i).EndsWf := by
  fun_cases State.areaEntry
  case case4 => exact State.hubPut_memoryWf _ _ (State.hubPut_memoryWf _ _ (State.hubPut_memoryWf _ _ h))
  case case5 => exact State.hubPut_memoryWf _ _ h
  case case6 => exact h
  all_goals trivial

theorem State.areaEntries_endsWf (b : Block) (o : CodeObj) (l : List CacheEntry) (h : s.memoryWf) : (s.areaEntries b o l).EndsWf := by
  fun_induction State.areaEntries with
  | case1 => exact h
  | case2 s e r i _ s1 ht ih =>
    have hs := State.areaEntry_endsWf b o ⟨e.objid, e.headofs, e.layhash, e.k⟩ i h
    rw [ht] at hs
    exact ih hs
  | case3 => trivial
  | case4 _ _ _ _ ih => exact ih h

theorem State.savePlacements_endsWf (core blk : Nat) (h : s.memoryWf) : (s.savePlacements core blk).EndsWf := by
  fun_cases State.savePlacements
  · exact h
  · exact State.areaEntries_endsWf _ _ _ h
  · exact h

theorem State.departSaved_memoryWf (core blk : Nat) (h : s.memoryWf) : (s.departSaved core blk).memoryWf := by
  have free ops := State.releaseClaims_memoryWf core ops h
  exact State.memoryWf_of_mem (State.unpoison_mem ..) (free _)

theorem State.keepSaved_memoryWf (core blk : Nat) (r : Preempt) (x : SavedBlock) (h : s.memoryWf) : (s.keepSaved core blk r x).memoryWf := by
  fun_cases State.keepSaved
  · refine State.hubWrite_memoryWf _ _ ?_
    exact h
  · exact h

theorem execBlockSave_endsWf (core blk : Nat) (h : s.memoryWf) : EndsWf (execBlockSave core blk s) := by
  have flushed := State.flushBlock_endsWf core blk h
  fun_cases execBlockSave
  case case1 | case2 => exact h
  case case3 => trivial
  case case4 hf | case5 hf => rw [hf] at flushed; exact flushed
  case case6 hf _ => rw [hf] at flushed; exact flushed
  case case7 hf _ _ _ =>
    rw [hf] at flushed
    exact State.blockFatal_memoryWf _ _ _ _ _ flushed
  case case8 hf _ _ _ => rw [hf] at flushed; exact flushed
  case case9 hf _ _ s2 hs _ s3 =>
    rw [hf] at flushed
    have placed := State.savePlacements_endsWf core blk flushed
    rw [hs] at placed
    have h3 : s3.memoryWf := State.hubWrite_memoryWf (s := { s2 with tick := s2.tick + 1 }) _ _ placed
    exact State.memoryWf_of_mem (State.gangSettle_mem ..) (State.departSaved_memoryWf _ _ (State.keepSaved_memoryWf _ _ _ _ h3))

theorem State.restoreFatal_memoryWf (p n : Nat) (x : Saved) (b : Block) (core cause sub : Nat) (h : s.memoryWf) :
    (s.restoreFatal p n x b core cause sub).memoryWf := by
  unfold State.restoreFatal
  refine State.killSaved_memoryWf _ _ _ (State.postFault_memoryWf _ _ _ ?_)
  exact h

theorem State.repost_memoryWf (core slot : Nat) (su : Susp) (h : s.memoryWf) : (s.repost core slot su).memoryWf :=
  State.postFault_memoryWf _ _ _ h

theorem State.resuspend_memoryWf (core slot : Nat) (h : s.memoryWf) : (s.resuspend core slot).memoryWf := by
  fun_cases State.resuspend
  · exact h
  · exact State.repost_memoryWf _ _ _ (State.setGroup_memoryWf core slot _ h)

theorem State.resuspendCopy_memoryWf (core : Nat) (o : CopyOp) (h : s.memoryWf) : (s.resuspendCopy core o).memoryWf := by
  fun_cases State.resuspendCopy
  · exact h
  · exact State.repost_memoryWf _ _ _ (State.setCore_memoryWf core _ h)

theorem State.restoreOne_memoryWf {x : SavedBlock} {a : Site} {t : State} (h : s.memoryWf) (ht : s.restoreOne x a = some t) : t.memoryWf := by
  revert ht
  fun_cases State.restoreOne <;> intro ht
  · cases ht
  · next c1 _ s2 s3 =>
    have h2 : s2.memoryWf := State.memoryWf_of_mem (State.takeCore_mem ..) h
    have h3 : s3.memoryWf := foldl_memoryWf (fun _ _ hs => State.resuspend_memoryWf _ _ hs) _ h2
    obtain rfl := Option.some.inj ht
    exact foldl_memoryWf (fun _ _ hs => State.resuspendCopy_memoryWf _ _ hs) _ h3

theorem State.restoreAll_memoryWf {l : List (SavedBlock × Site)} {t : State} (h : s.memoryWf) (ht : s.restoreAll l = some t) : t.memoryWf := by
  induction l generalizing s with
  | nil => cases ht; exact h
  | cons p r ih =>
    obtain ⟨s1, h1, h2⟩ := Option.bind_eq_some_iff.mp ht
    exact ih (State.restoreOne_memoryWf h h1) h2

theorem execBlockRestore_endsWf (p n : Nat) (sites : List Site) (h : s.memoryWf) : EndsWf (execBlockRestore p n sites s) := by
  fun_cases execBlockRestore
  case case2 | case3 => exact State.restoreFatal_memoryWf _ _ _ _ _ _ _ h
  case case6 s1 ht _ _ _ s3 =>
    have h1 : s1.memoryWf := State.restoreAll_memoryWf h ht
    have h3 : s3.memoryWf := h1
    exact State.memoryWf_of_mem ((State.breakDamps_mem _).trans (State.gangSettle_mem ..)) h3
  all_goals exact h

theorem execDbgbpMatch_endsWf (core slot : Nat) (h : s.memoryWf) : EndsWf (execDbgbpMatch core slot s) := by
  fun_cases execDbgbpMatch <;> exact h

theorem State.haltRecord_memoryWf (core slot : Nat) (h : s.memoryWf) : (s.haltRecord core slot).memoryWf :=
  State.setPart_memoryWf _ _ (.ite h (State.hubWrite_memoryWf _ _ h))

theorem execGroupHalt_endsWf (core slot : Nat) (h : s.memoryWf) : EndsWf (execGroupHalt core slot s) :=
  .ite (State.haltRecord_memoryWf _ _ (State.setGroup_memoryWf core slot _ h)) h

@[simp] theorem State.forgetObject_mem (part objid : Nat) : (s.forgetObject part objid).mem = s.mem := State.mapCores_mem _

@[simp] theorem State.bufferWords_mem (p : Nat) (o : CodeObj) : (s.bufferWords p o).mem = s.mem := State.mapCores_mem _

theorem execCodePageVerify_endsWf (p obj page : Nat) (h : s.memoryWf) : EndsWf (execCodePageVerify p obj page s) := by
  fun_cases execCodePageVerify
  case case3 => exact State.memoryWf_of_mem ((State.forgetObject_mem ..).trans (State.bufferWords_mem ..)) h
  all_goals exact h

theorem execReset_endsWf (h : s.memoryWf) : EndsWf (execReset s) := by
  obtain ⟨t, ht, hw⟩ := execReset_memoryWf h
  rw [ht]
  exact hw

theorem execServiceReduced_endsWf (harvest : List Nat) (h : s.memoryWf) : EndsWf (execServiceReduced harvest s) := by
  fun_cases execServiceReduced <;> exact h

theorem execServiceFull_endsWf (dies : BitVec 4) (h : s.memoryWf) : EndsWf (execServiceFull dies s) := by
  refine .ite h (foldl_memoryWf (fun _ _ hs => State.dispatch_memoryWf _ hs) _ ?_)
  exact h

theorem execPartitionSetup_endsWf (count : Nat) (signed : BitVec 4) (h : s.memoryWf) : EndsWf (execPartitionSetup count signed s) := by
  fun_cases execPartitionSetup
  · exact h
  · refine foldl_memoryWf (fun t k ht => .ite ht (State.setCore_memoryWf _ _ ht)) _ ?_
    exact SMap.wf_filter _ h

theorem execLinkTrain_endsWf (link ver width : Nat) (h : s.memoryWf) : EndsWf (execLinkTrain link ver width s) := by
  fun_cases execLinkTrain <;> exact h

theorem execLinkDown_endsWf (link : Nat) (h : s.memoryWf) : EndsWf (execLinkDown link s) := by
  refine .ite h (foldl_memoryWf (fun t q ht => .ite (State.killBlock_memoryWf _ _ _ ht) ht) _ ?_)
  refine foldl_memoryWf (fun t q ht => State.deviceFault_memoryWf _ _ _ _ _ ht) _ ?_
  exact h

theorem execAttestationRequest_endsWf (p : Nat) (nonce : List Byte) (h : s.memoryWf) : EndsWf (execAttestationRequest p nonce s) := .ite h h

theorem execUnassignedOp_endsWf (w : Dword) (h : s.memoryWf) : EndsWf (execUnassignedOp w s) := by
  unfold execUnassignedOp
  dsimp only
  split
  · exact .ite (Fe.fault_endsWf _ h) h
  · exact h

theorem execKitEntersRetention_endsWf (kit : Nat) (h : s.memoryWf) : EndsWf (execKitEntersRetention kit s) := .ite h h

theorem State.loadWord_memoryWf (p asid va v : Nat) (h : s.memoryWf) : (s.loadWord p asid va v).memoryWf := by
  fun_cases State.loadWord
  · exact State.hubPut_memoryWf _ _ h
  · exact h

theorem State.linkWords_memoryWf (p asid base strofs impofs link i size : Nat) (h : s.memoryWf) :
    (s.linkWords p asid base strofs impofs link i size).memoryWf := by
  unfold State.linkWords
  refine State.loadWord_memoryWf _ _ _ _ ?_
  split
  · exact State.loadWord_memoryWf _ _ _ _ (State.loadWord_memoryWf _ _ _ _ h)
  · exact h

theorem execCodeObjectLoad_endsWf (p obj asid : Nat) (base : Dword) (h : s.memoryWf) : EndsWf (execCodeObjectLoad p obj asid base s) := by
  fun_cases execCodeObjectLoad
  case case4 => trivial
  case case6 s1 s2 =>
    have h2 : s2.memoryWf := State.setPart_memoryWf _ _ (State.hubPut_memoryWf _ _ h)
    exact State.memoryWf.ite h2 (foldl_memoryWf (fun _ _ hs => State.linkWords_memoryWf _ _ _ _ _ _ _ _ hs) _ h2)
  all_goals exact h

theorem execCodeObjectUnload_endsWf (p obj : Nat) (h : s.memoryWf) : EndsWf (execCodeObjectUnload p obj s) :=
  .ite h (State.memoryWf_of_mem (State.forgetObject_mem ..) h)

theorem execDebuggerRegisterWrite_endsWf (p core slot reg lane : Nat) (val : Word) (h : s.memoryWf) :
    EndsWf (execDebuggerRegisterWrite p core slot reg lane val s) := by
  fun_cases execDebuggerRegisterWrite <;> exact h

theorem execFxloadLoadEnd_endsWf (core blk rgn : Nat) (h : s.memoryWf) : EndsWf (execFxloadLoadEnd core blk rgn s) := by
  fun_cases execFxloadLoadEnd <;> exact h

theorem State.outsideAtomic_endsWf (k : Nat) (f : Nat → Nat) (h : s.memoryWf) : EndsWf (s.outsideAtomic k f) :=
  .ite h (State.outsideWrite_memoryWf _ _ h)

theorem execPeerOrHostAccess_endsWf (acc : OutsideAccess) (h : s.memoryWf) : EndsWf (execPeerOrHostAccess acc s) := by
  fun_cases execPeerOrHostAccess
  case case1 | case2 => exact h
  case case3 => exact State.outsideWrite_memoryWf _ _ h
  all_goals exact State.outsideAtomic_endsWf _ _ h

end Sys2Proof.Machine
end

section
/-!
SUPPORT. Canonical memory through every instruction, operation and event, and through a step.
-/

namespace Sys2Proof.Machine

variable {s : State}

/-- What an instruction, operation or event does keeps memory canonical. -/
theorem exec_endsWf (i : Instr) (h : s.memoryWf) : EndsWf (exec i s) := by
  unfold exec
  cases i
  case bra => exact execBra_endsWf _ h
  case brx | callx | ret => exact frontEnd_endsWf h (Fe.indirect_endsWf _ _ h)
  case call => exact execCall_endsWf _ h
  case calll => exact execCalll_endsWf _ h
  case exit => exact execExit_endsWf _ h
  case rcv => exact execRcv_endsWf _ h
  case join => exact execJoin_endsWf _ h
  case loophint => exact execLoophint_endsWf _ h
  case trap => exact execTrap_endsWf _ h
  case bkpt => exact execBkpt_endsWf _ h
  case nop | iadd | isub | imul | imulh | imad | iadd64 | isub64 | imad64 | idiv | irem | imin | imax | iabs | ineg | isad | iaddc | and |
      or | xor | andn | not | shl | shr | sar | rot | fshl | fshr | shl64 | shr64 | popc | clz | ctz | brev | bfx | bfi | prmt | icmp |
      iset | isel | pset | mov | movi | lea | lea64 | fadd | fsub | fmul | ffma | fmin | fmax | fcmp | fset | fsel | fclass | frnd |
      frcp | frsq | fsqrt | fexp2 | flog2 | fsin | fcos | ftanh | fdiv | fldexp | ffrexp | hadd2 | hsub2 | hmul2 | hfma2 | hmin2 | hmax2 |
      hcmp2 | badd2 | bsub2 | bmul2 | bfma2 | bmin2 | bmax2 | bcmp2 | ffmah | ffmab | dadd | dmul | dfma | dcmp | dmin | dmax | cvt |
      cvt64 | qcvt | dqcvt | pack2 | pack4 | pack8 | unpk2 | unpk4 | unpk8 | scalex | qblk | blkmax | srseed | dot2h | dot2b | dot4i |
      dot8i | dot4e | dot8e | idp2 | amaxclr | shfli | shfla | shflb | shflx | qswap | qbcast | vote | matchLanes | redux | reduxf |
      scan | scanf | segred | segscan | elect | actmask | bcast | rank | sortg | compact | expand | pgpool => exact frontEnd_endsWf h h
  case rdsr => exact execRdsr_endsWf _ h
  case wrsr => exact execWrsr_endsWf _ h
  case movk => exact execMovk_endsWf _ h
  case kset => exact execKset_endsWf _ h
  case ld | ldv => exact frontEnd_endsWf h (loadEffect_endsWf _ _ h)
  case st | stv | stz => exact frontEnd_endsWf h (storeEffect_endsWf _ _ _ _ h)
  case ldk => exact execLdk_endsWf _ h
  case ldnf => exact execLdnf_endsWf _ h
  case atadd | atmin | atmax | atand | ator | atxor | atexch | atcas | atinc | atdec | atfadd | atfmin | atfmax | atcas128 =>
    exact frontEnd_endsWf h (atomicEffect_endsWf _ _ _ _ _ _ _ h)
  case redadd | redmin | redmax | redfadd => exact frontEnd_endsWf h (reduceEffect_endsWf _ _ _ _ _ h)
  case fence => exact execFence_endsWf _ h
  case pref => exact execPref_endsWf _ h
  case cctl => exact execCctl_endsWf _ h
  case lds | ldsv => exact frontEnd_endsWf h (ldsEffect_endsWf _ _ h)
  case sts | stsv => exact frontEnd_endsWf h (stsEffect_endsWf _ _ h)
  case atsadd | atsmin | atsmax | atscas => exact frontEnd_endsWf h (atsEffect_endsWf _ _ _ _ _ _ _ h)
  case ldl => exact execLdl_endsWf _ h
  case stl => exact execStl_endsWf _ h
  case wmap => exact execWmap_endsWf _ h
  case wunmap => exact execWunmap_endsWf _ h
  case wflush => exact execWflush_endsWf _ h
  case winv => exact execWinv_endsWf _ h
  case pgcommit => exact frontEnd_endsWf h (pageEffect_endsWf _ _ (fun _ _ _ ht => Fe.commitLane_memoryWf _ _ ht) h)
  case pgrelease => exact frontEnd_endsWf h (pageEffect_endsWf _ _ (fun _ _ _ ht => Fe.releaseLane_memoryWf _ ht) h)
  case pgquery => exact execPgquery_endsWf _ h
  case pgprot => exact frontEnd_endsWf h (pageEffect_endsWf _ _ (fun _ _ _ ht => Fe.protLane_memoryWf _ _ _ ht) h)
  case halloc => exact execHalloc_endsWf _ h
  case hfree => exact execHfree_endsWf _ h
  case hsize => exact execHsize_endsWf _ h
  case gresumeReplay | gresumeSkip | gresumeKill => exact frontEnd_endsWf h (gresumeEffect_endsWf _ _ h)
  case cpy32 => exact execCpy32_endsWf _ h
  case cpyb => exact execCpyb_endsWf _ h
  case cpyst => exact execCpyst_endsWf _ h
  case cpywait => exact execCpywait_endsWf _ h
  case cpycnt => exact execCpycnt_endsWf _ h
  case cpyfill => exact execCpyfill_endsWf _ h
  case cpyp => exact execCpyp_endsWf _ h
  case gath | scat => exact frontEnd_endsWf h (tileEffect_endsWf _ _ h (fun _ _ => Fe.tiled_endsWf _ _ _ h))
  case gathbm => exact execGathbm_endsWf _ h
  case mtwait => exact execMtwait_endsWf _ h
  case tfetch => exact execTfetch_endsWf _ h
  case tfrel => exact execTfrel_endsWf _ h
  case obrsv => exact execObrsv_endsWf _ h
  case obrel => exact execObrel_endsWf _ h
  case obldS => exact execObldS_endsWf _ h
  case obldR => exact execObldR_endsWf _ h
  case cvdecl => exact execCvdecl_endsWf _ h
  case mma | mmas => exact frontEnd_endsWf h (mmaEffect_endsWf _ _ h)
  case accinitZero | accinitLd => exact frontEnd_endsWf h (accinitEffect_endsWf _ _ h)
  case accrd => exact execAccrd_endsWf _ h
  case mdrainS => exact execMdrainS_endsWf _ h
  case mdrainC => exact execMdrainC_endsWf _ h
  case mwait => exact execMwait_endsWf _ h
  case barSync | barArrive => exact frontEnd_endsWf h (barEffect_endsWf _ _ h)
  case gbarSync | gbarArrive => exact frontEnd_endsWf h (gbarEffect_endsWf _ _ h)
  case regroup | regroupb => exact frontEnd_endsWf h (regroupEffect_endsWf _ _ _ h)
  case fxload => exact execFxload_endsWf _ h
  case fxrun => exact execFxrun_endsWf _ h
  case fxwait => exact execFxwait_endsWf _ h
  case fxparam => exact execFxparam_endsWf _ h
  case fxdrop => exact execFxdrop_endsWf _ h
  case damp => exact execDamp_endsWf _ h
  case elemNop | elemMov | elemAdd | elemSub | elemMul | elemMulh | elemMad | elemMin | elemMax | elemAnd | elemOr | elemXor | elemAndn |
      elemNot | elemShl | elemShr | elemSar | elemPopc | elemClz | elemSel | elemFadd | elemFsub | elemFmul | elemFfma | elemFmin |
      elemFmax | elemFtoi | elemItof | elemCeq | elemCne | elemClt | elemCle | elemCltn | elemClen | elemFclt | elemFcle | elemFceq |
      elemFcne | elemPset | elemPclr | elemPand | elemPor | elemPnot | elemSteer | elemMerge | elemMergeu | elemDrop | elemEmit |
      elemDeq | elemSclatch | elemQuant | elemAmaxr | elemCnt | elemAcc | elemAccrel | elemLsel => exact State.fire_endsWf _ _ h
  case commandFetch => exact execCommandFetch_endsWf h
  case launch => exact execLaunch_endsWf _ h
  case copy => exact execCopy_endsWf _ h
  case signalSet | signalAdd => exact State.signal_endsWf _ _ h
  case wait => exact execWait_endsWf _ h
  case barrierAnd => exact execBarrierAnd_endsWf _ h
  case placePreload => exact execPlacePreload_endsWf _ h
  case queueDestroy | queueDestroyForce => exact State.destroyRecord_endsWf _ _ h
  case journalMark => exact execJournalMark_endsWf _ h
  case waitReread => exact execWaitReread_endsWf _ h
  case waitTimeout => exact execWaitTimeout_endsWf _ h
  case gridRetire => exact execGridRetire_endsWf _ h
  case copyRetire => exact execCopyRetire_endsWf _ h
  case preloadRetire => exact execPreloadRetire_endsWf _ h
  case doorbell => exact execDoorbell_endsWf _ _ h
  case qctlCreate => exact State.qctlBy_endsWf _ _ _ h (fun _ _ ht => qctlCreate_endsWf _ _ ht)
  case qctlReadRidx => exact State.qctlBy_endsWf _ _ _ h (fun _ _ ht => qctlReadRidx_endsWf _ _ ht)
  case qctlDestroy | qctlDestroyForce => exact State.qctlBy_endsWf _ _ _ h (fun _ _ ht => State.qctlDestroy_memoryWf _ _ _ ht)
  case asctlCreate => exact State.asctlBy_endsWf _ _ _ h (fun _ _ ht => asctlCreate_endsWf _ _ ht)
  case asctlUpdate => exact State.asctlBy_endsWf _ _ _ h (fun _ _ ht => asctlUpdate_endsWf _ _ ht)
  case asctlDestroy => exact State.asctlBy_endsWf _ _ _ h (fun _ _ ht => asctlDestroy_endsWf _ _ ht)
  case pooladd => exact State.onPage_endsWf _ h (fun _ _ ht => pooladd_endsWf _ _ ht)
  case tlbinv => exact State.onPage_endsWf _ h (fun _ _ ht => .ite ht ht)
  case tlbinvComplete => exact execTlbinvComplete_endsWf _ h
  case fresumeReplay | fresumeSkip | fresumeKill => exact State.onPage_endsWf _ h (fun _ _ ht => State.fresume_endsWf _ _ _ _ ht)
  case preemptGrid => exact State.onPage_endsWf _ h (fun _ _ ht => preemptGrid_endsWf _ _ ht)
  case preemptBlock => exact State.onPage_endsWf _ h (fun _ _ ht => preemptBlock_endsWf _ _ ht)
  case pwrbudget => exact State.onPage_endsWf _ h (fun _ _ ht => pwrbudget_endsWf _ _ ht)
  case csaadd => exact State.onPage_endsWf _ h (fun _ _ ht => csaadd_endsWf _ _ ht)
  case fqrWrite => exact State.onPage_endsWf _ h (fun _ _ ht => fqrWrite_endsWf _ _ ht)
  case fqbaseWrite => exact .ite (fqbaseWrite_endsWf _ _ h) h
  case dbgctlWrite => exact execDbgctlWrite_endsWf _ _ h
  case dbgbpWrite => exact execDbgbpWrite_endsWf _ _ _ h
  case dbgcmdHalt | dbgcmdResume | dbgcmdStep => exact State.dbgCommand_endsWf _ _ _ _ _ h
  case registerWrite => exact execRegisterWrite_endsWf _ _ _ h
  case blockPlace => exact execBlockPlace_endsWf _ _ _ h
  case stealMessage => exact execStealMessage_endsWf _ _ _ h
  case stealReply | patrolScrub => exact h
  case blockRetire => exact execBlockRetire_endsWf _ _ h
  case loadReturn => exact execLoadReturn_endsWf _ _ h
  case writePerform => exact execWritePerform_endsWf _ h
  case translationResponse => exact execTranslationResponse_endsWf _ _ _ h
  case walkComplete => exact execWalkComplete_endsWf _ _ _ h
  case coherenceRead | coherenceReadForWrite => exact State.kitStep_endsWf _ _ _ _ h
  case coherenceEvict => exact execCoherenceEvict_endsWf _ _ h
  case homeAtomic => exact execHomeAtomic_endsWf _ _ h
  case windowNotice => exact execWindowNotice_endsWf _ h
  case homeAnswerTimeout => exact execHomeAnswerTimeout_endsWf _ _ h
  case eccError => exact execEccError_endsWf _ h
  case copyComplete => exact execCopyComplete_endsWf _ _ h
  case enginePieceFault => exact execEnginePieceFault_endsWf _ _ h
  case tileComplete => exact execTileComplete_endsWf _ _ h
  case matrixEntryComplete => exact execMatrixEntryComplete_endsWf _ _ h
  case mmaRoundStart => exact execMmaRoundStart_endsWf _ h
  case drainToken => exact execDrainToken_endsWf _ h
  case regroupShuffle => exact execRegroupShuffle_endsWf _ _ h
  case placerComplete => exact execPlacerComplete_endsWf _ h
  case handOver => exact execHandOver_endsWf _ _ h
  case iterationAdmit => exact execIterationAdmit_endsWf _ _ h
  case iterationCommit => exact execIterationCommit_endsWf _ _ h
  case memoryNodeAccess => exact execMemoryNodeAccess_endsWf _ _ h
  case loopExit => exact execLoopExit_endsWf _ _ h
  case loopDamp => exact execLoopDamp_endsWf _ _ _ h
  case liveoutWriteback => exact execLiveoutWriteback_endsWf _ _ h
  case channelTokenArrive => exact execChannelTokenArrive_endsWf _ _ h
  case streamToken => exact execStreamToken_endsWf _ _ h
  case streamRound => exact execStreamRound_endsWf _ _ h
  case regionDone => exact execRegionDone_endsWf _ _ h
  case carillonStarve => exact execCarillonStarve_endsWf _ _ _ h
  case probeSend => exact execProbeSend_endsWf _ _ _ h
  case probeForward => exact execProbeForward_endsWf _ h
  case countToken => exact execCountToken_endsWf _ _ h
  case preemptArrive => exact execPreemptArrive_endsWf _ _ h
  case preemptDeadline => exact execPreemptDeadline_endsWf _ _ h
  case blockSave => exact execBlockSave_endsWf _ _ h
  case blockRestore => exact execBlockRestore_endsWf _ _ _ h
  case dbgbpMatch => exact execDbgbpMatch_endsWf _ _ h
  case groupHalt => exact execGroupHalt_endsWf _ _ h
  case codePageVerify => exact execCodePageVerify_endsWf _ _ _ h
  case reset => exact execReset_endsWf h
  case serviceReduced => exact execServiceReduced_endsWf _ h
  case serviceFull => exact execServiceFull_endsWf _ h
  case partitionSetup => exact execPartitionSetup_endsWf _ _ h
  case linkTrain => exact execLinkTrain_endsWf _ _ _ h
  case linkDown => exact execLinkDown_endsWf _ h
  case attestationRequest => exact execAttestationRequest_endsWf _ _ h
  case unassignedOp => exact execUnassignedOp_endsWf _ h
  case kitEntersRetention => exact execKitEntersRetention_endsWf _ h
  case codeObjectLoad => exact execCodeObjectLoad_endsWf _ _ _ _ h
  case codeObjectUnload => exact execCodeObjectUnload_endsWf _ _ h
  case debuggerRegisterWrite => exact execDebuggerRegisterWrite_endsWf _ _ _ _ _ _ h
  case fxloadLoadEnd => exact execFxloadLoadEnd_endsWf _ _ _ h
  case peerOrHostAccess => exact execPeerOrHostAccess_endsWf _ h

/-- A step keeps memory canonical, whoever's turn it is. -/
theorem step_endsWf (h : s.memoryWf) : EndsWf (step s) := by
  have turned : s.turn.2.memoryWf := by
    fun_cases State.turn <;> exact h
  unfold step
  split
  · next core s1 ht =>
    rw [ht] at turned
    have issued := State.frontTurn_endsWf core turned
    split
    · next hi => rw [hi] at issued; exact issued
    · next hi => rw [hi] at issued; exact exec_endsWf _ issued
    · next hi => rw [hi] at issued; exact execUnassignedOp_endsWf _ issued
    · trivial
  · next core ei s1 ht =>
    rw [ht] at turned
    have fired := State.elementTurn_endsWf core ei turned
    split
    · next hi => rw [hi] at fired; exact fired
    · next hi => rw [hi] at fired; exact State.fire_endsWf _ _ fired
  · next i s1 ht =>
    rw [ht] at turned
    exact .ite (exec_endsWf _ turned) turned

/-- Settles O60: every write of memory goes through the store layer, which keeps the canonical form. -/
theorem memoryStaysCanonical : Obligations.MemoryStaysCanonical := by
  intro s t h ht
  have hs := step_endsWf h
  rw [ht] at hs
  exact hs

end Sys2Proof.Machine
end

section
/-!
SUPPORT. The state right after reset.
-/

namespace Sys2Proof.Machine

/-- Settles O57: every map of the state right after reset is empty, so each read returns the value of an absent entry. -/
theorem resetState : Obligations.ResetState := by
  unfold Obligations.ResetState
  refine ⟨State.reset_memoryWf, rfl, fun p => rfl, fun a => rfl, fun c => ⟨rfl, rfl, rfl, rfl, rfl, rfl, rfl, fun a => ⟨rfl, rfl⟩⟩,
    fun c i => ⟨rfl, rfl, rfl, rfl⟩, fun q => rfl, rfl, rfl, rfl, rfl, fun l => rfl, fun c e => ⟨rfl, fun n => ⟨rfl, rfl⟩⟩⟩

end Sys2Proof.Machine
end

section
/-!
SUPPORT. The page instructions change neither who issues nor any group (R222 to R228).
-/

namespace Sys2Proof.Machine

variable {s t u : State}

/-- The same slot of the same core issues in both states, and every group is as it was. -/
structure SlotsSame (s t : State) : Prop where
  core : t.curCore = s.curCore
  slot : t.curSlot = s.curSlot
  groups : GroupsSame s t

theorem SlotsSame.refl (s : State) : SlotsSame s s := ⟨rfl, rfl, fun _ _ => rfl⟩

theorem SlotsSame.trans (h : SlotsSame s t) (k : SlotsSame t u) : SlotsSame s u :=
  ⟨k.core.trans h.core, k.slot.trans h.slot, h.groups.trans k.groups⟩

theorem SlotsSame.of_hubStep (h : HubStep s t) : SlotsSame s t :=
  ⟨(congrArg State.curCore h.beyond :), (congrArg State.curSlot h.beyond :), h.fillStep.groupsSame⟩

theorem SlotsSame.foldl {α : Type} {f : State → α → State} (hf : ∀ s a, SlotsSame s (f s a)) (l : List α) (s : State) :
    SlotsSame s (l.foldl f s) := by
  induction l generalizing s with
  | nil => exact .refl s
  | cons a r ih => exact (hf s a).trans (ih _)

theorem State.setCore_slotsSame {k : Nat} {c : Core} (h : c.groups = (s.core k).groups) : SlotsSame s (s.setCore k c) where
  core := rfl
  slot := rfl
  groups j i := by
    unfold State.group
    rw [State.setCore_core]
    split
    · subst_vars; exact congrArg (SMap.get {} · i) h
    · rfl

theorem State.setPart_slotsSame (p : Nat) (x : Partition) : SlotsSame s (s.setPart p x) := ⟨rfl, rfl, fun _ _ => rfl⟩

theorem State.mapCores_slotsSame {f : Nat → Core → Core} (hf : ∀ k c, (f k c).groups = c.groups) : SlotsSame s (s.mapCores f) :=
  .foldl (fun _ _ => State.setCore_slotsSame (hf ..)) _ s

theorem State.ringWrite_slotsSame (part : Nat) (r : FaultRec) : SlotsSame s (s.ringWrite part r) := by
  have hgive : ∀ (s : State) seq, SlotsSame s (s.giveSeq r seq) := by
    intro s seq
    unfold State.giveSeq
    extract_lets k c mine give
    split
    · exact State.setCore_slotsSame rfl
    · exact ⟨rfl, rfl, fun _ _ => rfl⟩
  unfold State.ringWrite
  extract_lets n s1
  have h1 : SlotsSame s s1 := .of_hubStep (State.hubWrite_hubStep ..)
  exact h1.trans ((State.setPart_slotsSame ..).trans (hgive ..))

theorem State.postFault_slotsSame (part core : Nat) (r : FaultRec) : SlotsSame s (s.postFault part core r) := by
  unfold State.postFault
  extract_lets p o c
  split
  · exact State.ringWrite_slotsSame ..
  · split
    · exact ⟨rfl, rfl, fun _ _ => rfl⟩
    · split
      · exact ⟨rfl, rfl, fun _ _ => rfl⟩
      · exact State.setCore_slotsSame rfl

theorem State.poolTake_slotsSame {part core f : Nat} (h : s.poolTake part core = some (f, t)) : SlotsSame s t := by
  unfold State.poolTake at h
  extract_lets p g low s1 fid at h
  split at h
  · exact absurd h (by simp)
  · split at h
    · obtain ⟨-, rfl⟩ := Prod.mk.inj (Option.some.inj h)
      exact SlotsSame.trans (t := { s1 with tick := s1.tick + 1 }) ⟨rfl, rfl, fun _ _ => rfl⟩ (State.postFault_slotsSame ..)
    · obtain ⟨-, rfl⟩ := Prod.mk.inj (Option.some.inj h)
      exact ⟨rfl, rfl, fun _ _ => rfl⟩

theorem State.frameWritten_slotsSame (core slot f : Nat) : SlotsSame s (s.frameWritten core slot f) := by
  unfold State.frameWritten
  extract_lets s0 s1
  have h0 : HubStep s s0 := .of_cores rfl rfl
  have h1 : HubStep s0 s1 := (State.ordered_none_hubStep ..).trans (State.deliverAll_hubStep ..)
  exact (SlotsSame.of_hubStep (h0.trans h1)).trans ⟨rfl, rfl, fun _ _ => rfl⟩

theorem State.setDir_slotsSame (line : Nat) (d : DirEntry) : SlotsSame s (s.setDir line d) := ⟨rfl, rfl, fun _ _ => rfl⟩

theorem State.evictSharer_slotsSame (line : Nat) : SlotsSame s (s.evictSharer line) := by
  unfold State.evictSharer
  extract_lets d
  split
  · split
    · exact (State.setDir_slotsSame ..).trans (.of_hubStep (State.deliverNotice_hubStep ..))
    · exact .refl s
  · exact .refl s

theorem State.register_slotsSame (core wid k n : Nat) : SlotsSame s (s.register core wid k n) :=
  (State.setDir_slotsSame ..).trans (State.evictSharer_slotsSame _)

theorem State.setMarks_register_slotsSame (core blk off : Nat) (m : Marks) (wid key n : Nat) :
    SlotsSame s ((s.setMarks core blk off m).register core wid key n) :=
  (SlotsSame.of_hubStep (s.setMarks_hubStep core blk off m)).trans (State.register_slotsSame ..)

theorem State.adoptZero_slotsSame (part entry k : Nat) : SlotsSame s (s.adoptZero part entry k) := by
  unfold State.adoptZero
  refine .foldl (fun s p => .foldl (fun s w => ?_) _ s) _ s
  dsimp only
  split
  · exact .refl s
  · refine .foldl (fun s o => ?_) _ s
    split
    · exact State.setMarks_register_slotsSame ..
    · exact .refl s

theorem State.poolReturn_slotsSame (part f : Nat) : SlotsSame s (s.poolReturn part f) := by
  unfold State.poolReturn
  extract_lets p s1
  have h1 : SlotsSame s s1 := .of_hubStep (State.hubWrite_hubStep ..)
  exact h1.trans (State.setPart_slotsSame ..)

theorem Fe.setEntry_slotsSame (e : Fe) (addr v : Nat) : SlotsSame s (e.setEntry s addr v) := by
  have hw : HubStep s (s.wr addr 8 v) := .of_cores rfl rfl
  have h : HubStep s (s.putCells [(addr, 8, v)]) := hw.trans (State.cleanse_hubStep ..)
  exact .of_hubStep (h.trans ((State.ordered_none_hubStep ..).trans (State.deliverAll_hubStep _ _)))

theorem Fe.shoot_slotsSame (e : Fe) (va : Nat) : SlotsSame s (e.shoot s va) := ⟨rfl, rfl, fun _ _ => rfl⟩

theorem Fe.loseFrame_slotsSame (e : Fe) (f : Nat) : SlotsSame s (e.loseFrame s f) := by
  unfold Fe.loseFrame
  split
  · exact .refl s
  · exact (State.frameWritten_slotsSame e.core e.slot f).trans ⟨rfl, rfl, fun _ _ => rfl⟩

theorem State.frameSeen_slotsSame (k : Nat) : SlotsSame s (s.frameSeen k) := by
  unfold State.frameSeen
  exact State.mapCores_slotsSame (fun _ _ => rfl)

/-! ## One lane of each form -/

theorem Fe.commitLane_slotsSame (e : Fe) (nf : Bool) (va : Nat) : SlotsSame s (e.commitLane nf s va).2 := by
  unfold Fe.commitLane
  extract_lets w p
  split
  · exact .refl s
  split
  · exact .refl s
  split
  · exact .refl s
  split
  next => exact ⟨rfl, rfl, fun _ _ => rfl⟩
  next f s1 hf =>
    extract_lets k s2 s3
    have h2 : SlotsSame s1 s2 := by
      unfold s2
      split
      · exact .refl s1
      · exact SlotsSame.trans (t := { s1 with mem := clearRange s1.mem k 65536 }) ⟨rfl, rfl, fun _ _ => rfl⟩ (State.frameWritten_slotsSame ..)
    have h3 : SlotsSame s s3 :=
      (State.poolTake_slotsSame hf).trans (h2.trans ((e.setEntry_slotsSame ..).trans (State.frameSeen_slotsSame k)))
    dsimp only
    split
    · exact h3.trans ((State.adoptZero_slotsSame ..).trans (e.shoot_slotsSame va))
    · exact h3

theorem Fe.releaseLane_slotsSame (e : Fe) (va : Nat) : SlotsSame s (e.releaseLane s va).2 := by
  unfold Fe.releaseLane
  extract_lets w s1
  split
  · exact .refl s
  split
  · exact .refl s
  split
  · exact .refl s
  split
  · exact .refl s
  · exact ((e.setEntry_slotsSame ..).trans (e.shoot_slotsSame va)).trans
      ((e.loseFrame_slotsSame _).trans (State.poolReturn_slotsSame ..))

theorem Fe.protLane_slotsSame (e : Fe) (b : Nat → Nat) (l va : Nat) : SlotsSame s (e.protLane b l s va).2 := by
  unfold Fe.protLane
  extract_lets w s1
  split
  · exact .refl s
  split
  · exact .refl s
  split
  · exact .refl s
  · dsimp only
    split
    · exact (e.setEntry_slotsSame ..).trans (e.shoot_slotsSame va)
    · exact e.setEntry_slotsSame ..

theorem runLanes_slotsSame {f : Nat → State → Nat × State} (hf : ∀ l s, SlotsSame s (f l s).2) (ls : List Nat) (s : State) :
    SlotsSame s (runLanes f ls s).2 := by
  induction ls generalizing s with
  | nil => exact .refl s
  | cons l r ih => exact (hf l s).trans (ih _)

/-! ## The forms -/

/-- A modifying page form has nothing to fault on and nothing to wait for (R224): page generation is enabled, and every lane of V names a
tile without high address bits, whose entry is there, is not poisoned and is not busy. -/
structure PageReady (x : FmtR) (s : State) (busy : Fe → Nat → WalkEnd → Bool) : Prop where
  gen : (s.fe x.g).v = 0 ∨ (SMap.get {} (s.part s.curBlock.part).aspaces s.curBlock.asid).pgen = true
  ord : s.ordOk 3 3 = true
  fine : ∀ l ∈ lanesOf (s.fe x.g).v,
    let w := (s.fe x.g).pageWalk s (s.src64 x.a l).toNat
    (s.src64 x.a l).toNat < 2 ^ 56 ∧ w.kind ≠ .absent ∧ w.kind ≠ .held ∧ busy (s.fe x.g) l w = false ∧ s.poisonAt w.addr 8 = false

/-- What the lanes of a page form give, one after the other: their statuses and the state. -/
def pageRun (x : FmtR) (s : State) (lane : Fe → Nat → State → Nat → Nat × State) : List (Nat × Nat) × State :=
  runLanes (fun l s' => lane (s.fe x.g) l s' (s.src64 x.a l).toNat) (lanesOf (s.fe x.g).v) s

/-- A form that is ready acts lane by lane and returns the statuses (R224). -/
theorem pageEffect_acts {x : FmtR} {s : State} {busy : Fe → Nat → WalkEnd → Bool} (lane : Fe → Nat → State → Nat → Nat × State)
    (h : PageReady x s busy) : pageEffect x.d x.a busy lane (s.fe x.g) =
      ({ s.fe x.g with s := (pageRun x s lane).2 } : Fe).result x.d (statusOf (pageRun x s lane).1) := by
  obtain ⟨hgen, hord, hfine⟩ := h
  unfold pageEffect
  extract_lets va shut fails ends q
  have hfails : fails = [] := by
    rw [List.filter_eq_nil_iff]
    intro l hm
    have hlow : va l < 2 ^ 56 := (hfine l hm).1
    have hshut : shut = false := by
      rcases hgen with h0 | h1
      · rw [h0] at hm; simp [lanesOf] at hm
      · exact congrArg (!·) h1
    simp only [hshut, Bool.false_or, decide_eq_true_eq]
    omega
  rw [hfails]
  have hends : ∀ r ∈ ends, r.2.kind ≠ .absent ∧ r.2.kind ≠ .held ∧ busy (s.fe x.g) r.1 r.2 = false ∧ s.poisonAt r.2.addr 8 = false := by
    intro r hr
    obtain ⟨l, hm, rfl⟩ := List.mem_map.mp hr
    exact (hfine l hm).2
  have ha : ends.any (fun q => q.2.kind == .absent) = false := by
    simpa using fun a b h => (hends (a, b) h).1
  have hb : ends.any (fun q => q.2.kind == .held || busy (s.fe x.g) q.1 q.2) = false := by
    simpa using fun a b h => ⟨(hends (a, b) h).2.1, (hends (a, b) h).2.2.1⟩
  have hp : ends.find? (fun q => s.poisonAt q.2.addr 8) = none := by
    simpa using fun a b h => (hends (a, b) h).2.2.2
  simp only [ha, hb, State.fe_s, hp]
  exact Fe.inOrder_ok hord

/-- What a form that acts lane by lane leaves: its statuses in D, and everything but its group as the last lane left it. -/
theorem Fe.result_after {s t : State} {x : FmtR} {f : Nat → Word} (h : SlotsSame s t) :
    ∃ u, ({ s.fe x.g with s := t } : Fe).result x.d f = .next u ∧ GroupRegs s.cur u.cur ∧ OthersSame s u ∧
      Wrote32 s.cur u.cur x.g (s.actOf x.g) x.d f ∧ (∀ a, SMap.get 0 u.mem a = SMap.get 0 t.mem a) ∧ u.parts = t.parts ∧ u.tlb = t.tlb := by
  obtain ⟨hregs, hwrote⟩ := s.cur.write_push_next x.g x.d (s.actOf x.g) f
  set g := ((s.cur.write x.d (s.actOf x.g) f).push32 x.g x.d (s.actOf x.g) f).next
  have hcur : (t.setGroup s.curCore s.curSlot g).cur = g := by
    rw [← h.core, ← h.slot]; exact t.cur_setCur g
  refine ⟨t.setGroup s.curCore s.curSlot g, rfl, ?_, fun c i hne => ?_, ?_, fun a => rfl, rfl, rfl⟩
  · rw [hcur]; exact hregs
  · have hne' : s.curCore ≠ c ∨ s.curSlot ≠ i := by
      rw [ne_comm, Ne, Prod.mk.injEq, not_and_or] at hne; exact hne
    rw [State.group_setGroup_ne _ _ hne']; exact h.groups c i
  · rw [hcur]; exact hwrote

/-- The value that PGQUERY gives a lane (R228). -/
def Fe.queried (e : Fe) (a : Opnd) (l : Nat) : Dword :=
  if 2 ^ 56 ≤ e.baseAddr a l then 0
  else
    let w := e.pageWalk e.s (e.baseAddr a l)
    w64 (w.entry % 2 ^ 60 + w.level * 2 ^ 60 + (if w.kind = .format then 2 ^ 63 else 0))

/-- PGQUERY whose lanes without high address bits end in an entry that is there and not poisoned, and that waits for nothing. -/
theorem execPgquery_reads {x : FmtR} {s : State} (hpass : s.passes (.pgquery x) = true) (hord : s.ordOk 1 3 = true)
    (hl : ∀ l ∈ lanesOf (s.actOf x.g), (s.src64 x.a l).toNat < 2 ^ 56 →
      let w := (s.fe x.g).pageWalk s (s.src64 x.a l).toNat
      w.kind ≠ .absent ∧ w.kind ≠ .held ∧ s.poisonAt w.addr 8 = false)
    (hacq : s.acqOk 1 3 (((lanesOf (s.actOf x.g)).filter (fun l => decide ((s.src64 x.a l).toNat < 2 ^ 56))).map (fun l =>
      (((s.fe x.g).pageWalk s (s.src64 x.a l).toNat).addr, 8))) = true) :
    execPgquery x s = (s.fe x.g).result64 x.d ((s.fe x.g).queried x.a) := by
  unfold execPgquery
  rw [frontEnd_passes hpass]
  extract_lets ends low
  have hlow : low = ((lanesOf (s.actOf x.g)).filter (fun l => decide ((s.src64 x.a l).toNat < 2 ^ 56))).map
      (fun l => (l, (s.src64 x.a l).toNat)) := List.filter_map
  have hw : ∀ r ∈ low, let w := (s.fe x.g).pageWalk s r.2
      w.kind ≠ .absent ∧ w.kind ≠ .held ∧ s.poisonAt w.addr 8 = false := by
    intro r hr
    rw [hlow] at hr
    obtain ⟨l, hm, rfl⟩ := List.mem_map.mp hr
    obtain ⟨hm, hlt⟩ := List.mem_filter.mp hm
    exact hl l hm (of_decide_eq_true hlt)
  have ha : low.any (fun r => ((s.fe x.g).pageWalk s r.2).kind == .absent) = false := by
    simpa using fun a b h => (hw (a, b) h).1
  have hb : low.any (fun r => ((s.fe x.g).pageWalk s r.2).kind == .held) = false := by
    simpa using fun a b h => (hw (a, b) h).2.1
  have hp : low.find? (fun r => s.poisonAt ((s.fe x.g).pageWalk s r.2).addr 8) = none := by
    simpa using fun a b h => (hw (a, b) h).2.2
  have hcells : low.map (fun r => (((s.fe x.g).pageWalk s r.2).addr, 8)) =
      ((lanesOf (s.actOf x.g)).filter (fun l => decide ((s.src64 x.a l).toNat < 2 ^ 56))).map (fun l =>
        (((s.fe x.g).pageWalk s (s.src64 x.a l).toNat).addr, 8)) := by
    rw [hlow, List.map_map]; rfl
  simp only [State.fe_s, ha, hb, hp, hcells]
  exact (Fe.inOrder_ok hord).trans (Fe.acquires_ok hacq)

/-- A modifying page form that is ready, whole: where its lanes change neither who issues nor a group, it leaves what the lanes leave, and
their statuses in D (R224). -/
theorem exec_page {i : Instr} {x : FmtR} {s : State} {busy : Fe → Nat → WalkEnd → Bool} {lane : Fe → Nat → State → Nat → Nat × State}
    (hi : exec i s = frontEnd i x.g s (pageEffect x.d x.a busy lane)) (hpass : s.passes i = true)
    (hlane : ∀ l s' va, SlotsSame s' (lane (s.fe x.g) l s' va).2) (h : PageReady x s busy) :
    let q := pageRun x s lane
    ∃ t, exec i s = .next t ∧ GroupRegs s.cur t.cur ∧ OthersSame s t ∧ Wrote32 s.cur t.cur x.g (s.actOf x.g) x.d (statusOf q.1) ∧
      (∀ a, SMap.get 0 t.mem a = SMap.get 0 q.2.mem a) ∧ t.parts = q.2.parts ∧ t.tlb = q.2.tlb := by
  intro q
  have hlanes : SlotsSame s q.2 := runLanes_slotsSame (fun l s' => hlane l s' _) _ s
  obtain ⟨t, ht, hrest⟩ := Fe.result_after (x := x) (f := statusOf q.1) hlanes
  exact ⟨t, (hi.trans ((frontEnd_passes hpass).trans (pageEffect_acts lane h))).trans ht, hrest⟩

/-- PGPOOL, whole: the number that its field selects (R228). -/
theorem execPgpool_passes {x : FmtR} {s : State} (hpass : s.passes (.pgpool x) = true) :
    let p := s.part s.curBlock.part
    execPgpool x s = (s.fe x.g).result x.d (fun _ => if fldC x.c 0 2 = 0 then w32 p.poolFree
      else if fldC x.c 0 2 = 1 then w32 p.poolCap else if fldC x.c 0 2 = 2 then w32 p.lowwater else p.empties) := by
  intro p
  unfold execPgpool
  rw [frontEnd_passes hpass]
  have hlt : fldC x.c 0 2 < 4 := (x.c.extractLsb' 0 2).isLt
  generalize fldC x.c 0 2 = n at hlt ⊢
  match n with
  | 0 => rfl
  | 1 => rfl
  | 2 => rfl
  | 3 => rfl

/-- Settles O24: PGCOMMIT, PGRELEASE and PGPROT by what one lane keeps, PGQUERY by its checks, PGPOOL by the number that it selects. -/
theorem pageForms : Obligations.PageForms := by
  intro x s act v e va asp end_ p forms
  refine ⟨fun f hf => ?_, fun hpass hl hord hacq => ?_, fun hpass => ?_⟩
  · intro q hpass hgen hord hl
    simp only [forms, List.mem_cons, List.not_mem_nil, or_false] at hf
    rcases hf with rfl | rfl | rfl
    · exact exec_page (busy := fun e _ _ => e.commitBusy) (lane := fun e _ s va => e.commitLane (x.m.getLsbD 0) s va) rfl hpass
        (fun _ _ va => Fe.commitLane_slotsSame _ _ va) ⟨hgen, hord, hl⟩
    · exact exec_page (busy := fun e _ w => e.releaseBusy w) (lane := fun e _ s va => e.releaseLane s va) rfl hpass
        (fun _ _ va => Fe.releaseLane_slotsSame _ va) ⟨hgen, hord, hl⟩
    · exact exec_page (busy := fun e l w => e.protBusy (e.g.rd x.b l).toNat w)
        (lane := fun e l s va => e.protLane (fun l => (e.g.rd x.b l).toNat) l s va) rfl hpass
        (fun l _ va => Fe.protLane_slotsSame _ _ l va) ⟨hgen, hord, hl⟩
  · have hnp : ∀ n, x.d ≠ .p n := dst64_notP hpass (by simp [form])
    obtain ⟨t, ht, hres⟩ := Fe.result64_spec s x.g x.d ((s.fe x.g).queried x.a) hnp
    exact ⟨t, (execPgquery_reads hpass hord hl hacq).trans ht, hres⟩
  · obtain ⟨t, ht, hres⟩ := Fe.result_spec s x.g x.d _
    exact ⟨t, (execPgpool_passes hpass).trans ht, hres⟩

end Sys2Proof.Machine
end

section
/-!
SUPPORT. A write of the hub that meets no window performs at once and leaves every core as it was (R293, R300).
-/

namespace Sys2Proof.Machine

variable {s t : State}

/-! ## Lines of a range -/

theorem mem_of_mem_put {α : Type} {m : SMap α} {k : Nat} {v : α} {p : Nat × α} (h : p ∈ SMap.put m k v) : p = (k, v) ∨ p ∈ m := by
  induction m with
  | nil => simpa [SMap.put] using h
  | cons q r ih =>
    obtain ⟨i, a⟩ := q
    unfold SMap.put at h
    split at h
    · simpa using h
    · split at h
      · rcases List.mem_cons.mp h with rfl | h
        · exact .inl rfl
        · exact .inr (List.mem_cons_of_mem _ h)
      · rcases List.mem_cons.mp h with rfl | h
        · exact .inr (List.mem_cons_self ..)
        · exact (ih h).imp_right (List.mem_cons_of_mem _)

/-- A line that cells touch is the line of one of them. -/
theorem touchedLines_key {cells : List (Nat × Nat)} {p : Nat × Mask} (h : p ∈ touchedLines cells) : ∃ c ∈ cells, lineOf c.1 = p.1 := by
  have step : ∀ (l : List (Nat × Nat)) (m : SMap Mask),
      p ∈ l.foldl (fun m c => SMap.put m (lineOf c.1) (SMap.get 0 m (lineOf c.1) ||| wordMask c.1 c.2)) m →
      p ∈ m ∨ ∃ c ∈ l, lineOf c.1 = p.1 := by
    intro l
    induction l with
    | nil => exact fun m h => .inl h
    | cons c r ih =>
      intro m h
      rcases ih _ h with h | ⟨d, hd, he⟩
      · rcases mem_of_mem_put h with rfl | h
        · exact .inr ⟨c, List.mem_cons_self .., rfl⟩
        · exact .inl h
      · exact .inr ⟨d, List.mem_cons_of_mem _ hd, he⟩
  exact (step cells [] h).resolve_left (List.not_mem_nil)

/-- The pieces of a range lie in its lines. -/
theorem lineOf_linePieces {k n : Nat} {c : Nat × Nat} (h : c ∈ linePieces k n) : lineOf c.1 ∈ linesAt k n := by
  obtain ⟨l, hl, rfl⟩ := List.mem_map.mp h
  have hle : k / 128 ≤ l := by
    unfold linesAt at hl
    split at hl
    · exact absurd hl (List.not_mem_nil)
    · obtain ⟨i, -, rfl⟩ := List.mem_map.mp hl
      exact Nat.le_add_right ..
  have hline : lineOf (max k (128 * l)) = l := by unfold lineOf; omega
  rw [hline]
  exact hl

/-! ## What a quiet write leaves -/

theorem writeList_bytesOf (m : SMap Byte) (k n v : Nat) : writeList m k (bytesOf n v) = writeBytes m k n v := by
  induction n generalizing m k v with
  | zero => rfl
  | succ n ih => exact ih _ _ _

theorem bytesOf_length (n v : Nat) : (bytesOf n v).length = n := by
  induction n generalizing v with
  | zero => rfl
  | succ n ih => exact congrArg (· + 1) (ih _)

@[simp] theorem State.outsideWrite_mem (k : Nat) (l : List Byte) : (s.outsideWrite k l).mem = writeList s.mem k l := by
  unfold State.outsideWrite
  simp

@[simp] theorem State.cleanse_cores (k n : Nat) : (s.cleanse k n).cores = s.cores := by unfold State.cleanse; split <;> rfl
@[simp] theorem State.cleanse_notices (k n : Nat) : (s.cleanse k n).notices = s.notices := by unfold State.cleanse; split <;> rfl
@[simp] theorem State.cleanse_dir (k n : Nat) : (s.cleanse k n).dir = s.dir := by unfold State.cleanse; split <;> rfl

/-- No notice goes out where no window shares a line. -/
theorem State.noticesFor_eq_nil (id : Nat) (by_ : Nat × Nat) (self : Option (Nat × Nat)) {cells : List (Nat × Nat)}
    (h : ∀ c ∈ cells, (s.dirEntry (lineOf c.1)).ws = []) : s.noticesFor id by_ (touchedLines cells) self = [] := by
  unfold State.noticesFor
  rw [List.flatMap_eq_nil_iff]
  intro p hp
  obtain ⟨c, hc, he⟩ := touchedLines_key hp
  rw [← he, h c hc]
  rfl

/-- A write whose notices nobody owes delivers nothing. -/
theorem State.deliverAll_cores_of_none {w : Nat} (h : ∀ n ∈ s.notices, n.write ≠ w) : (s.deliverAll w).cores = s.cores := by
  have hnil : s.notices.filter (fun n => n.write == w) = [] := by
    rw [List.filter_eq_nil_iff]
    exact fun n hn => by simpa using h n hn
  unfold State.deliverAll
  rw [hnil]
  rfl

theorem State.ordered_none_cores (core slot : Nat) (cells : List (Nat × Nat)) (self : Option (Nat × Nat)) :
    (s.ordered core slot none cells self).cores = s.cores := rfl

theorem State.outsideWrite_cores (k : Nat) (l : List Byte) (hws : ∀ i ∈ linesAt k l.length, (s.dirEntry i).ws = [])
    (hn : ∀ q ∈ s.notices, q.write ≠ s.freshWrite) : (s.outsideWrite k l).cores = s.cores := by
  unfold State.outsideWrite
  extract_lets id s1
  have hdir : (s1.cleanse k l.length).dir = s.dir := State.cleanse_dir ..
  have hnil : (s1.cleanse k l.length).noticesFor (s1.cleanse k l.length).freshWrite (0, 63)
      (touchedLines (linePieces k l.length)) none = [] := by
    refine State.noticesFor_eq_nil _ _ _ (fun c hc => ?_)
    unfold State.dirEntry
    rw [hdir]
    exact hws _ (lineOf_linePieces hc)
  have hnotices : ((s1.cleanse k l.length).ordered 0 63 none (linePieces k l.length)).notices = s.notices := by
    show (s1.cleanse k l.length).notices ++ _ = _
    rw [hnil, List.append_nil, State.cleanse_notices]
  rw [State.deliverAll_cores_of_none (by rw [hnotices]; exact hn), State.ordered_none_cores, State.cleanse_cores]

/-- A write of the hub that performs at once, unheard by any window. -/
theorem State.hubWrite_quiet {k n : Nat} (v : Nat) (h : s.hubQuiet k n) :
    (s.hubWrite k (bytesOf n v)).cores = s.cores ∧ (s.hubWrite k (bytesOf n v)).mem = writeBytes s.mem k n v := by
  obtain ⟨hw, hws, hn⟩ := h
  have hlen := bytesOf_length n v
  have he : s.hubWrite k (bytesOf n v) = s.outsideWrite k (bytesOf n v) := by
    unfold State.hubWrite
    rw [hlen, hw]
    rfl
  rw [he, State.outsideWrite_mem, writeList_bytesOf]
  exact ⟨State.outsideWrite_cores _ _ (by rwa [hlen]) hn, rfl⟩

/-! ## The commit pool's ring (R222) -/

theorem HubStep.part (h : HubStep s t) (p : Nat) : t.part p = s.part p :=
  show t.beyondHomes.part p = s.beyondHomes.part p by rw [h.beyond]

theorem State.poolReturn_part (p f : Nat) :
    ((s.poolReturn p f).part p).poolW = (s.part p).poolW + 1 ∧ ((s.poolReturn p f).part p).poolRefuse = (s.part p).poolRefuse := by
  have hpart := (State.hubWrite_hubStep s (s.poolKey p (s.part p).poolW) (bytesOf 8 f)).part p
  unfold State.poolReturn
  rw [State.part_setPart_same]
  exact ⟨rfl, (congrArg Partition.poolRefuse hpart :)⟩

theorem State.poolReturn_cores (p f : Nat) :
    (s.poolReturn p f).cores = (s.hubWrite (s.poolKey p (s.part p).poolW) (bytesOf 8 f)).cores := State.setPart_cores ..

theorem State.poolReturn_mem (p f : Nat) :
    (s.poolReturn p f).mem = (s.hubWrite (s.poolKey p (s.part p).poolW) (bytesOf 8 f)).mem := State.setPart_mem ..

theorem State.poolReturn_quiet (p f : Nat) (hf : f < 2 ^ 64) (h : s.hubQuiet (s.poolKey p (s.part p).poolW) 8) :
    (s.poolReturn p f).cores = s.cores ∧ (s.poolReturn p f).rd (s.poolKey p (s.part p).poolW) 8 = f ∧
      MemoryBut s (s.poolReturn p f) (s.poolKey p (s.part p).poolW) 8 := by
  obtain ⟨hcores, hmem⟩ := State.hubWrite_quiet f h
  refine ⟨(State.poolReturn_cores ..).trans hcores, ?_, fun a ha => ?_⟩
  · unfold State.rd
    rw [State.poolReturn_mem, hmem, readBytes_writeBytes]
    exact Nat.mod_eq_of_lt hf
  · rw [State.poolReturn_mem, hmem]
    exact writeBytes_outside _ _ _ _ _ ha

end Sys2Proof.Machine
end

section
/-!
SUPPORT. What a write through a function's register page does: doorbells, QCTL, ASCTL, POOLADD and TLBINV (R221, R222, R326, R447 to R450, R496).
-/

namespace Sys2Proof.Machine

variable {s t : State} {p f q asid k : Nat} {w : Dword}

/-! ## Functions -/

theorem State.functionPart_physical (h : p < 4) : s.functionPart p = some p := if_pos h

theorem reachesQueue_physical (q : Nat) (h : p < 4) : reachesQueue p q = true := by simp [reachesQueue, h]
theorem reachesSpace_physical (asid : Nat) (h : p < 4) : reachesSpace p asid = true := by simp [reachesSpace, h]
theorem reachesQueue_virtual (h : 4 ≤ f) : reachesQueue f q = Config.vfQueue (f - 4) q := by simp [reachesQueue, Nat.not_lt.mpr h]
theorem reachesSpace_virtual (h : 4 ≤ f) : reachesSpace f asid = Config.vfSpace (f - 4) asid := by simp [reachesSpace, Nat.not_lt.mpr h]

/-- A physical function acts on its own page. -/
theorem State.onPage_physical (act : Nat → State → Out) (h : p < 4) : s.onPage p act = act p s := if_pos h

/-- The state in which a virtual function's registers stand in for those of its partition. -/
def State.asPage (s : State) (f k : Nat) : State := s.setPart k ((s.part k).withPage (SMap.get {} s.vfs (f - 4)))

/-- The state `t` that such an access has left, with the page of the partition as it was in `s` and the function's own kept. -/
def State.offPage (s t : State) (f k : Nat) : State :=
  { (t.setPart k ((t.part k).withPage (s.part k).page)) with vfs := SMap.set {} t.vfs (f - 4) (t.part k).page }

@[simp] theorem State.offPage_mem (s t : State) (f k : Nat) : (s.offPage t f k).mem = t.mem := by
  simp only [State.offPage, State.setPart_mem]
@[simp] theorem State.offPage_cores (s t : State) (f k : Nat) : (s.offPage t f k).cores = t.cores := by
  simp only [State.offPage, State.setPart_cores]
@[simp] theorem State.offPage_queues (s t : State) (f k : Nat) : (s.offPage t f k).queues = t.queues := by
  simp only [State.offPage, State.setPart_queues]

theorem State.offPage_part (s t : State) (f k : Nat) : (s.offPage t f k).part k = (t.part k).withPage (s.part k).page :=
  State.part_setPart_same ..

theorem State.offPage_qctl (s t : State) (f k : Nat) : ((s.offPage t f k).part k).qctl = (s.part k).qctl := by
  rw [State.offPage_part]
  generalize t.part k = y
  rfl

theorem State.offPage_aspaces (s t : State) (f k : Nat) : ((s.offPage t f k).part k).aspaces = (t.part k).aspaces := by
  rw [State.offPage_part]
  generalize t.part k = y
  rfl

theorem State.asPage_aspaces (s : State) (f k : Nat) : ((s.asPage f k).part k).aspaces = (s.part k).aspaces := by
  unfold State.asPage
  rw [State.part_setPart_same]
  generalize s.part k = y
  rfl

theorem State.offPage_vf (s t : State) (f k : Nat) : SMap.get {} (s.offPage t f k).vfs (f - 4) = (t.part k).page := SMap.get_set_same ..

/-- An access of a virtual function puts the partition's page back and keeps its own. -/
theorem State.onPage_virtual {act : Nat → State → Out} (hf : 4 ≤ f) (hk : s.functionPart f = some k) (ha : act k (s.asPage f k) = .next t) :
    s.onPage f act = .next (s.offPage t f k) := by
  unfold State.onPage
  rw [if_neg (Nat.not_lt.mpr hf), hk]
  dsimp only
  rw [show act k (s.setPart k ((s.part k).withPage (SMap.get {} s.vfs (f - 4)))) = .next t from ha]
  rfl

theorem State.qctlBy_physical (op : Nat) (act : Nat → State → Out) (h : p < 4) : s.qctlBy p q op act = act p s := by
  unfold State.qctlBy
  rw [State.onPage_physical _ h, if_pos (reachesQueue_physical q h)]

theorem State.asctlBy_physical (op : Nat) (act : Nat → State → Out) (h : p < 4) : s.asctlBy p asid op act = act p s := by
  unfold State.asctlBy
  rw [State.onPage_physical _ h, if_pos (reachesSpace_physical asid h)]

/-! ## Doorbells -/

theorem exec_doorbell (w : Dword) (hq : q < 4096) :
    exec (.doorbell (4096 * f + q) w) s = execDoorbell (4096 * f + q) w s ∧ (4096 * f + q) / 4096 = f ∧ (4096 * f + q) % 4096 = q :=
  ⟨rfl, by omega, by omega⟩

/-- A doorbell through the page of a function that reaches no partition. -/
theorem exec_doorbell_none (w : Dword) (hq : q < 4096) (h : s.functionPart f = none) :
    exec (.doorbell (4096 * f + q) w) s = .next (s.doorbellIgnored f) := by
  obtain ⟨he, hdiv, -⟩ := exec_doorbell (s := s) (f := f) w hq
  rw [he]
  unfold execDoorbell
  simp only [hdiv, h]

/-- A doorbell through the page of a function that reaches a partition. -/
theorem exec_doorbell_some (w : Dword) (hq : q < 4096) (h : s.functionPart f = some p) : exec (.doorbell (4096 * f + q) w) s =
    if s.devstate = 0 || !(s.part p).hasQueue q || !reachesQueue f q || (s.queue q).st == .free || decide (w.toNat < (s.queue q).widx.toNat) then
      .next (s.doorbellIgnored p)
    else if (s.queue q).st = .active ∧ 2 ^ (s.queue q).logsize < w.toNat - (s.queue q).ridx.toNat then
      .next ((s.setQueue q { s.queue q with widx := w }).queueError q 14 0)
    else .next (s.setQueue q { s.queue q with widx := w }) := by
  obtain ⟨he, hdiv, hmod⟩ := exec_doorbell (s := s) (f := f) w hq
  rw [he]
  unfold execDoorbell
  simp only [hdiv, hmod, h]

/-- A doorbell that is ignored leaves memory, cores and queues as they are. -/
theorem State.doorbellIgnored_quiet (p : Nat) : MemorySame s (s.doorbellIgnored p) ∧ (s.doorbellIgnored p).cores = s.cores ∧
    (s.doorbellIgnored p).queues = s.queues := by
  unfold State.doorbellIgnored
  split <;> exact ⟨fun _ => rfl, rfl, rfl⟩

/-- A queue's error (R328): the queue is in ERROR, and no group changes. -/
theorem State.queueError_spec (q reason data : Nat) : GroupsSame s (s.queueError q reason data) ∧
    (s.queueError q reason data).queue q = { s.queue q with st := .error } := by
  refine ⟨?_, State.queue_setQueue_same ..⟩
  have h := (State.carry_hubWork s (s.commands.length + 1)).trans
    (State.journalRaw_hubWork _ q 0 4 0 reason 0 (s.queue q).part (s.queue q).ridx data)
  exact h.groupsSame.trans (GroupsSame.of_cores (State.setQueue_cores ..))

/-! ## QCTL -/

theorem State.qctlEnds_qctl (s : State) (p q op status result : Nat) : ((s.qctlEnds p q op status result).part p).qctl =
    BitVec.ofNat 64 (q % 4096 + op * 2 ^ 12 + status * 2 ^ 16 + result % 2 ^ 44 * 2 ^ 20) := by
  unfold State.qctlEnds
  rw [State.part_setPart_same]

theorem State.asctlEnds_asctl (s : State) (p asid op status : Nat) : ((s.asctlEnds p asid op status).part p).asctl =
    BitVec.ofNat 64 (asid % 65536 + op * 2 ^ 16 + status * 2 ^ 20) := by
  unfold State.asctlEnds
  rw [State.part_setPart_same]

theorem State.asctlEnds_aspaces (s : State) (p asid op status : Nat) : ((s.asctlEnds p asid op status).part p).aspaces = (s.part p).aspaces := by
  unfold State.asctlEnds
  rw [State.part_setPart_same]

theorem State.setSpace_space (s : State) (p asid : Nat) (x : ASpace) : SMap.get {} ((s.setSpace p asid x).part p).aspaces asid = x := by
  unfold State.setSpace
  rw [State.part_setPart_same]
  exact SMap.get_set_same ..

end Sys2Proof.Machine
end

section
/-!
SUPPORT. The operations of the register page, case by case (R221, R222, R325, R450, R496).
-/

namespace Sys2Proof.Machine

variable {s : State} {p f q asid k : Nat}

/-- Neither memory nor a core changes. -/
def Quiet (s t : State) : Prop := MemorySame s t ∧ t.cores = s.cores

theorem Quiet.of_mem_cores {t : State} (hm : t.mem = s.mem) (hc : t.cores = s.cores) : Quiet s t :=
  ⟨fun a => congrArg (SMap.get 0 · a) hm, hc⟩

/-- What QCTL reads once an operation has ended. -/
def State.QctlReads (t : State) (p q op status result : Nat) : Prop :=
  (t.part p).qctl = BitVec.ofNat 64 (q % 4096 + op * 2 ^ 12 + status * 2 ^ 16 + result % 2 ^ 44 * 2 ^ 20)

/-- What ASCTL reads once an operation has ended. -/
def State.AsctlReads (t : State) (p asid op status : Nat) : Prop :=
  (t.part p).asctl = BitVec.ofNat 64 (asid % 65536 + op * 2 ^ 16 + status * 2 ^ 20)

/-- An operation of QCTL that only leaves its status. -/
theorem qctlEnds_spec {o : Out} {op status result : Nat} (h : o = .next (s.qctlEnds p q op status result)) :
    ∃ t, o = .next t ∧ Quiet s t ∧ t.queues = s.queues ∧ t.QctlReads p q op status result :=
  ⟨_, h, .of_mem_cores rfl rfl, rfl, State.qctlEnds_qctl ..⟩

/-! ## Doorbells -/

section
variable {w : Dword} (hp : p < 4) (hq : q < 4096)
include hp hq

/-- A doorbell that the queue takes (R326). -/
theorem doorbell_taken (hdev : s.devstate ≠ 0) (hin : (s.part p).hasQueue q = true) (hst : (s.queue q).st ≠ .free)
    (hw : (s.queue q).widx.toNat ≤ w.toNat)
    (hfits : (s.queue q).st = .active → w.toNat - (s.queue q).ridx.toNat ≤ 2 ^ (s.queue q).logsize) :
    exec (.doorbell (4096 * p + q) w) s = .next (s.setQueue q { s.queue q with widx := w }) := by
  rw [exec_doorbell_some w hq (State.functionPart_physical hp)]
  have hover : ¬((s.queue q).st = .active ∧ 2 ^ (s.queue q).logsize < w.toNat - (s.queue q).ridx.toNat) :=
    fun ⟨ha, hlt⟩ => absurd (hfits ha) (by omega)
  simp [hdev, hin, hst, reachesQueue_physical q hp, Nat.not_lt.mpr hw, hover]

/-- A doorbell that runs past the ring's size puts its queue in ERROR (R328). -/
theorem doorbell_overruns (hdev : s.devstate ≠ 0) (hin : (s.part p).hasQueue q = true) (hst : (s.queue q).st = .active)
    (hw : (s.queue q).widx.toNat ≤ w.toNat) (hover : 2 ^ (s.queue q).logsize < w.toNat - (s.queue q).ridx.toNat) :
    ∃ t, exec (.doorbell (4096 * p + q) w) s = .next t ∧ GroupsSame s t ∧ t.queue q = { s.queue q with
      widx := w
      st := .error } := by
  obtain ⟨hsame, hqueue⟩ := State.queueError_spec (s := s.setQueue q { s.queue q with widx := w }) q 14 0
  refine ⟨_, ?_, hsame, hqueue.trans (by rw [State.queue_setQueue_same])⟩
  rw [exec_doorbell_some w hq (State.functionPart_physical hp)]
  simp [hdev, hin, hst, reachesQueue_physical q hp, Nat.not_lt.mpr hw, hover]

/-- A doorbell that is ignored (R326, R460). -/
theorem doorbell_ignored (h : s.devstate = 0 ∨ (s.part p).hasQueue q = false ∨ (s.queue q).st = .free ∨ w.toNat < (s.queue q).widx.toNat) :
    exec (.doorbell (4096 * p + q) w) s = .next (s.doorbellIgnored p) := by
  rw [exec_doorbell_some w hq (State.functionPart_physical hp)]
  rcases h with h | h | h | h <;> simp [h]

end

/-- A doorbell of a virtual function that does not reach the queue (R447). -/
theorem doorbell_unreached {w : Dword} (hf : 4 ≤ f) (hq : q < 4096)
    (h : ∀ k, s.functionPart f = some k → (s.part k).hasQueue q = true → Config.vfQueue (f - 4) q = false) :
    ∃ t, exec (.doorbell (4096 * f + q) w) s = .next t ∧ Quiet s t ∧ t.queues = s.queues := by
  cases hk : s.functionPart f with
  | none =>
    obtain ⟨hm, hc, hqs⟩ := State.doorbellIgnored_quiet (s := s) f
    exact ⟨_, exec_doorbell_none w hq hk, ⟨hm, hc⟩, hqs⟩
  | some k =>
    obtain ⟨hm, hc, hqs⟩ := State.doorbellIgnored_quiet (s := s) k
    have hout : (!(s.part k).hasQueue q || !reachesQueue f q) = true := by
      rw [reachesQueue_virtual hf]
      cases hin : (s.part k).hasQueue q with
      | false => rfl
      | true => simp [h k hk hin]
    refine ⟨s.doorbellIgnored k, ?_, ⟨hm, hc⟩, hqs⟩
    rw [exec_doorbell_some w hq hk]
    rw [Bool.or_eq_true, Bool.not_eq_true', Bool.not_eq_true'] at hout
    rcases hout with h | h <;> simp [h]

/-! ## Operations of a virtual function on what it does not reach -/

theorem Quiet.offPage {t : State} (f k : Nat) (h : Quiet s t) : Quiet s (s.offPage t f k) := by
  refine ⟨fun a => ?_, (State.offPage_cores ..).trans h.2⟩
  rw [State.offPage_mem]
  exact h.1 a

theorem State.qctlEnds_quiet (p q op status result : Nat) : Quiet s (s.qctlEnds p q op status result) := .of_mem_cores rfl rfl
theorem State.asctlEnds_quiet (p asid op status : Nat) : Quiet s (s.asctlEnds p asid op status) := .of_mem_cores rfl rfl

theorem State.setSpace_quiet (p asid : Nat) (x : ASpace) : Quiet s (s.setSpace p asid x) := .of_mem_cores rfl rfl

theorem Quiet.trans {t u : State} (h : Quiet s t) (k : Quiet t u) : Quiet s u := ⟨fun a => (k.1 a).trans (h.1 a), k.2.trans h.2⟩

/-- Putting a page in place leaves memory and cores. -/
theorem Quiet.of_asPage {t : State} (h : Quiet (s.asPage f k) t) : Quiet s t := ⟨h.1, h.2⟩

theorem qctlBy_unreached {act : Nat → State → Out} (op : Nat) (hf : 4 ≤ f) (hk : s.functionPart f = some k)
    (hr : Config.vfQueue (f - 4) q = false) :
    ∃ t, s.qctlBy f q op act = .next t ∧ Quiet s t ∧ t.queues = s.queues ∧ (t.part k).qctl = (s.part k).qctl ∧
      (SMap.get {} t.vfs (f - 4)).qctl = BitVec.ofNat 64 (q % 4096 + op * 2 ^ 12 + 2 ^ 16) := by
  have hact : s.qctlBy f q op act = .next (s.offPage ((s.asPage f k).qctlEnds k q op 1 0) f k) := by
    refine State.onPage_virtual hf hk ?_
    rw [reachesQueue_virtual hf, hr]
    exact if_neg Bool.false_ne_true
  refine ⟨_, hact, (Quiet.of_asPage (State.qctlEnds_quiet ..)).offPage .., State.offPage_queues .., ?_, ?_⟩
  · exact State.offPage_qctl ..
  · rw [State.offPage_vf]
    exact State.qctlEnds_qctl (s.asPage f k) k q op 1 0

theorem asctlBy_unreached {act : Nat → State → Out} (op : Nat) (hf : 4 ≤ f) (hk : s.functionPart f = some k)
    (hr : Config.vfSpace (f - 4) asid = false) :
    ∃ t, s.asctlBy f asid op act = .next t ∧ Quiet s t ∧ (t.part k).aspaces = (s.part k).aspaces ∧
      (SMap.get {} t.vfs (f - 4)).asctl = BitVec.ofNat 64 (asid % 65536 + op * 2 ^ 16 + 2 ^ 20) := by
  have hact : s.asctlBy f asid op act = .next (s.offPage ((s.asPage f k).asctlEnds k asid op 1) f k) := by
    refine State.onPage_virtual hf hk ?_
    rw [reachesSpace_virtual hf, hr]
    exact if_neg Bool.false_ne_true
  refine ⟨_, hact, (Quiet.of_asPage (State.asctlEnds_quiet ..)).offPage .., ?_, ?_⟩
  · rw [State.offPage_aspaces, State.asctlEnds_aspaces, State.asPage_aspaces]
  · rw [State.offPage_vf]
    exact State.asctlEnds_asctl (s.asPage f k) k asid op 1

/-- A virtual function's PF registers read zero and ignore writes (R449). -/
theorem pfOnly_virtual {off : Nat} (w : Dword) (hf : 4 ≤ f) (ho : pfOnly off = true) :
    s.readPage f off = 0 ∧ exec (.registerWrite f off w) s = .next s := by
  constructor
  · unfold State.readPage
    rw [if_neg (Nat.not_lt.mpr hf)]
    split
    · rfl
    · rw [if_pos ho]
  · show execRegisterWrite f off w s = _
    unfold execRegisterWrite
    rw [if_pos ⟨hf, ho⟩]

/-! ## QCTL of the physical function -/

section
variable (hp : p < 4)
include hp

theorem exec_qctlCreate : exec (.qctlCreate p q) s = qctlCreate q p s := State.qctlBy_physical 1 _ hp
theorem exec_qctlReadRidx : exec (.qctlReadRidx p q) s = qctlReadRidx q p s := State.qctlBy_physical 2 _ hp
theorem exec_qctlDestroy : exec (.qctlDestroy p q) s = .next (s.qctlDestroy p q 3) :=
  (State.qctlBy_physical 3 (fun p s => .next (s.qctlDestroy p q 3)) hp :)
theorem exec_qctlDestroyForce : exec (.qctlDestroyForce p q) s = .next (s.qctlDestroy p q 4) :=
  (State.qctlBy_physical 4 (fun p s => .next (s.qctlDestroy p q 4)) hp :)

end

/-- An operation on a queue outside the partition's range (R496). -/
theorem qctl_outside (hin : (s.part p).hasQueue q = false) :
    qctlCreate q p s = .next (s.qctlEnds p q 1 1 0) ∧ qctlReadRidx q p s = .next (s.qctlEnds p q 2 1 0) ∧
      ∀ op, s.qctlDestroy p q op = s.qctlEnds p q op 1 0 := by
  refine ⟨?_, ?_, fun op => ?_⟩
  · simp [qctlCreate, hin]
  · simp [qctlReadRidx, hin]
  · simp [State.qctlDestroy, hin]

/-- Where the QTAB entry of a queue lies in its partition. -/
def State.qtabAt (s : State) (p q : Nat) : Nat := (s.part p).qtbase + 32 * (q - (s.part p).qfirst)

/-- The queue that its QTAB entry describes, where the entry is well formed. -/
def State.qtabQueue (s : State) (p q : Nat) : Option Queue := s.queueOf p (readList s.mem (partKey p (s.qtabAt p q)) 32)

/-- CREATE of a free queue reads its QTAB entry (R325). -/
theorem qctlCreate_free_spec (hin : (s.part p).hasQueue q = true) (hst : (s.queue q).st = .free) (ha : s.qtabAt p q + 32 ≤ s.partBytes p) :
    ∃ t, qctlCreate q p s = .next t ∧ Quiet s t ∧ (∀ c, s.qtabQueue p q = some c → t.queue q = c ∧ t.QctlReads p q 1 0 0) ∧
      (s.qtabQueue p q = none → t.queues = s.queues ∧ t.QctlReads p q 1 3 0) := by
  have hbytes : ¬s.partBytes p < (s.part p).qtbase + 32 * (q - (s.part p).qfirst) + 32 := Nat.not_lt.mpr ha
  unfold qctlCreate State.qtabQueue State.qtabAt
  rw [if_neg (by simp [hin]), if_neg (by simp [hst]), if_neg hbytes]
  cases s.queueOf p (readList s.mem (partKey p ((s.part p).qtbase + 32 * (q - (s.part p).qfirst))) 32) with
  | none =>
    refine ⟨_, rfl, .of_mem_cores rfl rfl, fun c hc => absurd hc (by simp), fun _ => ⟨rfl, State.qctlEnds_qctl ..⟩⟩
  | some c =>
    refine ⟨_, rfl, .of_mem_cores rfl rfl, fun d hd => ?_, fun hc => absurd hc (by simp)⟩
    obtain rfl := Option.some.inj hd
    exact ⟨State.queue_setQueue_same s q c, State.qctlEnds_qctl ..⟩

/-- DESTROY of a queue in the partition's range, by what the queue holds (R334, R496). -/
theorem State.qctlDestroy_free (op : Nat) (hin : (s.part p).hasQueue q = true) (hst : (s.queue q).st = .free) :
    s.qctlDestroy p q op = s.qctlEnds p q op 2 0 := by simp [State.qctlDestroy, hin, hst]

theorem State.qctlDestroy_empty (op : Nat) (hin : (s.part p).hasQueue q = true) (hst : (s.queue q).st ≠ .free) (ho : s.othersOf q 0 = []) :
    s.qctlDestroy p q op = (s.freeQueue q).qctlEnds p q op 0 0 := by
  simp only [State.qctlDestroy, State.destroyQueue, hin, hst, ho]
  cases op == 4 <;> rfl

theorem State.qctlDestroy_held (hin : (s.part p).hasQueue q = true) (hst : (s.queue q).st ≠ .free) (ho : s.othersOf q 0 ≠ []) :
    s.qctlDestroy p q 3 = s.qctlEnds p q 3 4 0 := by
  have hne : (s.othersOf q 0).isEmpty = false := by simpa using ho
  simp only [State.qctlDestroy, State.destroyQueue, hin, hst, hne]
  rfl

theorem State.qctlDestroy_force (hin : (s.part p).hasQueue q = true) (hst : (s.queue q).st ≠ .free) :
    s.qctlDestroy p q 4 = (((s.othersOf q 0).foldl State.cmdKill s).freeQueue q).qctlEnds p q 4 0 0 := by
  simp only [State.qctlDestroy, State.destroyQueue, hin, hst]
  rfl

/-- DESTROY, whole: a free queue, one without commands, one that commands hold, and FORCE. -/
theorem State.qctlDestroy_spec {op : Nat} (hop : op = 3 ∨ op = 4) (hin : (s.part p).hasQueue q = true) :
    let t := s.qctlDestroy p q op
    ((s.queue q).st = .free → Quiet s t ∧ t.queues = s.queues ∧ t.QctlReads p q op 2 0) ∧
    ((s.queue q).st ≠ .free → s.othersOf q 0 = [] → Quiet s t ∧ t.queue q = {} ∧ t.QctlReads p q op 0 0) ∧
    ((s.queue q).st ≠ .free → s.othersOf q 0 ≠ [] → op = 3 → Quiet s t ∧ t.queues = s.queues ∧ t.QctlReads p q 3 4 0) ∧
    ((s.queue q).st ≠ .free → op = 4 → t.queue q = {} ∧ t.QctlReads p q 4 0 0) := by
  intro t
  refine ⟨fun hst => ?_, fun hst ho => ?_, fun hst ho h3 => ?_, fun hst h4 => ?_⟩
  · rw [show t = _ from State.qctlDestroy_free op hin hst]
    exact ⟨.of_mem_cores rfl rfl, rfl, State.qctlEnds_qctl ..⟩
  · rw [show t = _ from State.qctlDestroy_empty op hin hst ho]
    exact ⟨.of_mem_cores rfl rfl, State.queue_setQueue_same s q {}, State.qctlEnds_qctl ..⟩
  · subst h3
    rw [show t = _ from State.qctlDestroy_held hin hst ho]
    exact ⟨.of_mem_cores rfl rfl, rfl, State.qctlEnds_qctl ..⟩
  · subst h4
    rw [show t = _ from State.qctlDestroy_force hin hst]
    exact ⟨State.queue_setQueue_same _ q {}, State.qctlEnds_qctl ..⟩

/-! ## ASCTL of the physical function -/

section
variable (hp : p < 4)
include hp

theorem exec_asctlCreate : exec (.asctlCreate p asid) s = asctlCreate asid p s := State.asctlBy_physical 1 _ hp
theorem exec_asctlUpdate : exec (.asctlUpdate p asid) s = asctlUpdate asid p s := State.asctlBy_physical 2 _ hp
theorem exec_asctlDestroy : exec (.asctlDestroy p asid) s = asctlDestroy asid p s := State.asctlBy_physical 3 _ hp

end

/-- The address space of a number. -/
def State.space (s : State) (p asid : Nat) : ASpace := SMap.get {} (s.part p).aspaces asid

/-- An operation of ASCTL that only leaves its status. -/
theorem State.asctlEnds_spec (s : State) (p asid op status : Nat) : Quiet s (s.asctlEnds p asid op status) ∧
    (s.asctlEnds p asid op status).space p asid = s.space p asid ∧ (s.asctlEnds p asid op status).AsctlReads p asid op status :=
  ⟨.of_mem_cores rfl rfl, by unfold State.space; rw [State.asctlEnds_aspaces], State.asctlEnds_asctl ..⟩

/-- An operation of ASCTL that replaces the space. -/
theorem State.setSpace_asctlEnds_spec (s : State) (p asid op status : Nat) (x : ASpace) :
    Quiet s ((s.setSpace p asid x).asctlEnds p asid op status) ∧ ((s.setSpace p asid x).asctlEnds p asid op status).space p asid = x ∧
      ((s.setSpace p asid x).asctlEnds p asid op status).AsctlReads p asid op status :=
  ⟨(State.setSpace_quiet ..).trans (State.asctlEnds_quiet ..), by unfold State.space; rw [State.asctlEnds_aspaces, State.setSpace_space],
    State.asctlEnds_asctl ..⟩

/-- ASCTL CREATE, whole (R450). -/
theorem asctlCreate_spec (s : State) (p asid : Nat) :
    ∃ t, asctlCreate asid p s = .next t ∧ Quiet s t ∧ ((s.space p asid).used = true → t.space p asid = s.space p asid ∧ t.AsctlReads p asid 1 1) ∧
      ((s.space p asid).used = false → ∀ d, asid ≠ 0 → asid < 65536 → s.descriptor p = some d → t.space p asid = d ∧ t.AsctlReads p asid 1 0) ∧
      ((s.space p asid).used = false → (asid = 0 ∨ 65536 ≤ asid ∨ s.descriptor p = none) →
        t.space p asid = s.space p asid ∧ t.AsctlReads p asid 1 2) := by
  cases hu : (s.space p asid).used with
  | true =>
    obtain ⟨hq, hs, hr⟩ := s.asctlEnds_spec p asid 1 1
    refine ⟨_, if_pos hu, hq, fun _ => ⟨hs, hr⟩, fun h => absurd h (by simp), fun h => absurd h (by simp)⟩
  | false =>
    have he : asctlCreate asid p s = (match if asid = 0 ∨ 65536 ≤ asid then none else s.descriptor p with
        | none => .next (s.asctlEnds p asid 1 2)
        | some x => .next ((s.setSpace p asid x).asctlEnds p asid 1 0)) := if_neg (fun h => absurd (h.symm.trans hu) (by decide))
    cases hd : if asid = 0 ∨ 65536 ≤ asid then none else s.descriptor p with
    | none =>
      obtain ⟨hq, hs, hr⟩ := s.asctlEnds_spec p asid 1 2
      refine ⟨_, he.trans (by rw [hd]), hq, fun h => absurd h (by simp), fun _ d h0 hlt hsome => ?_, fun _ _ => ⟨hs, hr⟩⟩
      rw [if_neg (by omega), hsome] at hd
      exact absurd hd (by simp)
    | some x =>
      obtain ⟨hq, hs, hr⟩ := s.setSpace_asctlEnds_spec p asid 1 0 x
      refine ⟨_, he.trans (by rw [hd]), hq, fun h => absurd h (by simp), fun _ d h0 hlt hsome => ?_, fun _ hbad => ?_⟩
      · rw [if_neg (by omega), hsome] at hd
        obtain rfl := Option.some.inj hd
        exact ⟨hs, hr⟩
      · rcases hbad with h | h | h <;> simp [h] at hd

/-- ASCTL UPDATE, whole (R450). -/
theorem asctlUpdate_spec (s : State) (p asid : Nat) :
    ∃ t, asctlUpdate asid p s = .next t ∧ Quiet s t ∧
      ((s.space p asid).used = false → t.space p asid = s.space p asid ∧ t.AsctlReads p asid 2 1) ∧
      ((s.space p asid).used = true → s.descriptor p = none → t.space p asid = s.space p asid ∧ t.AsctlReads p asid 2 2) ∧
      (∀ d, (s.space p asid).used = true → s.descriptor p = some d → t.AsctlReads p asid 2 0 ∧ t.space p asid = { s.space p asid with
        pgen := d.pgen
        heapen := d.heapen
        flten := d.flten
        nextRoot := some (d.ptroot, d.pasid)
        oldDrains := (s.drains.filter (fun k => k.1 == p && k.2.1 == asid)).length }) := by
  cases hu : (s.space p asid).used with
  | false =>
    obtain ⟨hq, hs, hr⟩ := s.asctlEnds_spec p asid 2 1
    have hu' : (!(s.space p asid).used) = true := congrArg (!·) hu
    exact ⟨_, if_pos hu', hq, fun _ => ⟨hs, hr⟩, fun h => absurd h (by simp), fun _ h => absurd h (by simp)⟩
  | true =>
    have hu' : ¬(!(s.space p asid).used) = true := by simp [hu]
    unfold asctlUpdate
    rw [show SMap.get {} (s.part p).aspaces asid = s.space p asid from rfl, if_neg hu']
    cases hd : s.descriptor p with
    | none =>
      obtain ⟨hq, hs, hr⟩ := s.asctlEnds_spec p asid 2 2
      exact ⟨_, rfl, hq, fun h => absurd h (by simp), fun _ _ => ⟨hs, hr⟩, fun _ _ h => absurd h (by simp)⟩
    | some x =>
      obtain ⟨hq, hs, hr⟩ := s.setSpace_asctlEnds_spec p asid 2 0 _
      refine ⟨_, rfl, hq, fun h => absurd h (by simp), fun _ h => absurd h (by simp), fun d _ h => ?_⟩
      obtain rfl := Option.some.inj h
      exact ⟨hr, hs⟩

/-- ASCTL DESTROY, whole (R450). -/
theorem asctlDestroy_spec (s : State) (p asid : Nat) :
    ∃ t, asctlDestroy asid p s = .next t ∧ Quiet s t ∧
      ((s.space p asid).used = false → t.space p asid = s.space p asid ∧ t.AsctlReads p asid 3 1) ∧
      ((s.space p asid).used = true → s.spaceNamed p asid = true → t.space p asid = s.space p asid ∧ t.AsctlReads p asid 3 3) ∧
      ((s.space p asid).used = true → s.spaceNamed p asid = false → t.space p asid = {} ∧ t.AsctlReads p asid 3 0) := by
  cases hu : (s.space p asid).used with
  | false =>
    obtain ⟨hq, hs, hr⟩ := s.asctlEnds_spec p asid 3 1
    have hu' : (!(s.space p asid).used) = true := congrArg (!·) hu
    exact ⟨_, if_pos hu', hq, fun _ => ⟨hs, hr⟩, fun h => absurd h (by simp), fun h => absurd h (by simp)⟩
  | true =>
    have hu' : ¬(!(s.space p asid).used) = true := by simp [hu]
    unfold asctlDestroy
    rw [show SMap.get {} (s.part p).aspaces asid = s.space p asid from rfl, if_neg hu']
    cases hn : s.spaceNamed p asid with
    | true =>
      obtain ⟨hq, hs, hr⟩ := s.asctlEnds_spec p asid 3 3
      exact ⟨_, rfl, hq, fun h => absurd h (by simp), fun _ _ => ⟨hs, hr⟩, fun _ h => absurd h (by simp)⟩
    | false =>
      obtain ⟨hq, hs, hr⟩ := s.setSpace_asctlEnds_spec p asid 3 0 {}
      exact ⟨_, rfl, hq, fun h => absurd h (by simp), fun _ h => absurd h (by simp), fun _ _ => ⟨hs, hr⟩⟩

end Sys2Proof.Machine
end

section
/-!
SUPPORT. POOLADD, TLBINV and its completion, and the obligation over the register page (R221, R222).
-/

namespace Sys2Proof.Machine

variable {s : State} {p : Nat}

/-! ## POOLADD -/

/-- POOLADD of a frame that the pool takes. -/
theorem exec_pooladd_taken {w : Dword} (hp : p < 4)
    (h : (s.part p).poolFree < (s.part p).poolCap ∧ w.toNat % 65536 = 0 ∧ w.toNat + 65536 ≤ s.partBytes p) :
    exec (.pooladd p w) s = .next (s.poolReturn p w.toNat) := by
  obtain ⟨hroom, halign, hin⟩ := h
  refine (State.onPage_physical (pooladd w) hp).trans (if_neg ?_)
  omega

/-- POOLADD of a frame that the pool refuses. -/
theorem exec_pooladd_refused {w : Dword} (hp : p < 4)
    (h : ¬((s.part p).poolFree < (s.part p).poolCap ∧ w.toNat % 65536 = 0 ∧ w.toNat + 65536 ≤ s.partBytes p)) :
    exec (.pooladd p w) s = .next (s.setPart p { s.part p with poolRefuse := bump (s.part p).poolRefuse }) := by
  refine (State.onPage_physical (pooladd w) hp).trans (if_pos ?_)
  omega

/-- POOLADD, whole (R222). -/
theorem pooladd_spec (w : Dword) (hp : p < 4) :
    ∃ t, exec (.pooladd p w) s = .next t ∧ GroupsSame s t ∧
      (if (s.part p).poolFree < (s.part p).poolCap ∧ w.toNat % 65536 = 0 ∧ w.toNat + 65536 ≤ s.partBytes p
        then (t.part p).poolW = (s.part p).poolW + 1 ∧ (t.part p).poolRefuse = (s.part p).poolRefuse ∧
          (s.hubQuiet (s.poolKey p (s.part p).poolW) 8 → t.cores = s.cores ∧ t.rd (s.poolKey p (s.part p).poolW) 8 = w.toNat ∧
            MemoryBut s t (s.poolKey p (s.part p).poolW) 8)
        else Quiet s t ∧ (t.part p).poolW = (s.part p).poolW ∧ (t.part p).poolRefuse = (s.part p).poolRefuse + 1) := by
  by_cases h : (s.part p).poolFree < (s.part p).poolCap ∧ w.toNat % 65536 = 0 ∧ w.toNat + 65536 ≤ s.partBytes p
  · obtain ⟨hw, hr⟩ := s.poolReturn_part p w.toNat
    refine ⟨_, exec_pooladd_taken hp h, (State.poolReturn_slotsSame ..).groups, ?_⟩
    rw [if_pos h]
    exact ⟨hw, hr, fun hq => s.poolReturn_quiet p w.toNat w.isLt hq⟩
  · refine ⟨_, exec_pooladd_refused hp h, fun _ _ => rfl, ?_⟩
    rw [if_neg h, State.part_setPart_same]
    exact ⟨⟨fun _ => rfl, rfl⟩, rfl, rfl⟩

/-! ## TLBINV -/

/-- BUSY of TLBINV.CTL while an invalidation of the partition is under way. -/
theorem State.readRegister_tlbinv_busy (h : s.drains.any (fun d => d.1 == p) = true) : (s.readRegister p 0x20).getLsbD 63 = true := by
  have he : s.readRegister p 0x20 = (s.part p).tlbinvCtl |||
      (if s.drains.any (fun d => d.1 == p) then BitVec.ofNat 64 (2 ^ 63) else 0) := rfl
  rw [he, if_pos h, BitVec.getLsbD_or, show (BitVec.ofNat 64 (2 ^ 63)).getLsbD 63 = true from rfl, Bool.or_true]

/-- TLBINV, whole (R221). -/
theorem tlbinv_spec (w : Dword) (hp : p < 4) :
    ∃ t, exec (.tlbinv p w) s = .next t ∧ Quiet s t ∧ t.tlb = s.tlb ∧ (t.readRegister p 0x20).getLsbD 63 = true ∧
      t.drains = s.drains ++ [(p, w.toNat / 2 ^ 32 % 65536, (s.part p).tlbinvVa.toNat / 65536 * 65536, 65536 * (w.toNat % 2 ^ 32))] := by
  have hexec : exec (.tlbinv p w) s = tlbinv w p s :=
    (State.onPage_physical (fun k s => if reachesSpace p (tlbinvAsid w) then tlbinv w k s else .next s) hp).trans
      (if_pos (reachesSpace_physical _ hp))
  refine ⟨_, hexec, ⟨fun _ => rfl, rfl⟩, rfl, State.readRegister_tlbinv_busy ?_, rfl⟩
  simp

/-- The entries that an invalidation leaves in the TLBs were there, and none of a core's lies in its range. -/
theorem State.shootdown_tlb {part asid va n : Nat} {e : TlbEntry} (h : e ∈ (s.shootdown part asid va n true).tlb) :
    e ∈ s.tlb ∧ ¬(e.asid = asid ∧ e.va < va + n ∧ va < e.va + e.bytes ∧ e.level = 0 ∧ (s.part part).dies.contains (dieOf e.owner) = true) := by
  obtain ⟨hm, hk⟩ := List.mem_filter.mp h
  refine ⟨hm, fun ⟨ha, hlo, hhi, hl, hd⟩ => ?_⟩
  rw [ha, hl] at hk
  simp only [hlo, hhi, hd, beq_self_eq_true, decide_true, Bool.or_true, Bool.and_self, Bool.not_true] at hk
  exact absurd hk (by decide)

/-- The completion of an invalidation whose accesses have all performed (R221). -/
theorem tlbinvComplete_spec {i va n : Nat} (hd : s.drains.find? (fun d => d.1 == p) = some (p, i, va, n))
    (hc : ∀ c ∈ s.cores, (s.part p).dies.contains (dieOf c.1) = true → ∀ b ∈ c.2.blocks, b.2.asid = i → s.translatedAhead c.1 b.1 = false) :
    ∃ t, exec (.tlbinvComplete p) s = .next t ∧ Quiet s t ∧ t.drains = s.drains.erase (p, i, va, n) ∧
      t.space p i = (s.space p i).rooted va n ∧
      ∀ e ∈ t.tlb, e ∈ s.tlb ∧
        ¬(e.asid = i ∧ e.va < va + n ∧ va < e.va + e.bytes ∧ e.level = 0 ∧ (s.part p).dies.contains (dieOf e.owner) = true) := by
  have hdone : s.cores.any (fun c => (s.part p).dies.contains (dieOf c.1) &&
      c.2.blocks.any (fun b => b.2.asid == i && s.translatedAhead c.1 b.1)) = false := by
    rw [List.any_eq_false]
    intro c hcm hbad
    obtain ⟨hdie, hb⟩ := Bool.and_eq_true_iff.mp hbad
    obtain ⟨b, hbm, hbt⟩ := List.any_eq_true.mp hb
    obtain ⟨hasid, hahead⟩ := Bool.and_eq_true_iff.mp hbt
    rw [hc c hcm hdie b hbm (beq_iff_eq.mp hasid)] at hahead
    exact absurd hahead (by decide)
  have hexec : exec (.tlbinvComplete p) s = .next
      (({ (s.shootdown p i va n true) with drains := s.drains.erase (p, i, va, n) } : State).setSpace p i ((s.space p i).rooted va n)) := by
    show execTlbinvComplete p s = _
    unfold execTlbinvComplete
    rw [hd]
    dsimp only
    rw [hdone]
    rfl
  exact ⟨_, hexec, ⟨fun _ => rfl, rfl⟩, rfl, State.setSpace_space .., fun e he => State.shootdown_tlb he⟩

/-- Settles O46: the operations case by case, those of a physical function on its own page, those of a virtual function by what it does not
reach. -/
theorem queueAndSpaceControl : Obligations.QueueAndSpaceControl := by
  intro s p f q asid w hp hf x y sp a bell quiet qctl asctl space ops
  refine ⟨fun hq hdev hin hst hw hfits => doorbell_taken hp hq hdev hin hst hw hfits,
    fun hq hdev hin hst hw hover => doorbell_overruns hp hq hdev hin hst hw hover,
    fun hq h => doorbell_ignored hp hq h, fun hq h => ?_, fun k hk => ⟨fun hr o ho => ?_, fun hr o ho => ?_⟩,
    fun off ho => pfOnly_virtual w hf ho, fun o ho hin => ?_, fun hin hst => ?_, fun hin hst ha => ?_, fun hin => ?_, fun o ho hin => ?_,
    ?_, ?_, ?_, pooladd_spec w hp, tlbinv_spec w hp, fun i va n hd hc => tlbinvComplete_spec hd hc⟩
  · obtain ⟨t, ht, hquiet, hqueues⟩ := doorbell_unreached (w := w) hf hq h
    exact ⟨t, ht, hquiet, hqueues, (pfOnly_virtual (s := t) 0 hf (by decide)).1⟩
  · simp only [List.mem_cons, List.not_mem_nil, or_false] at ho
    rcases ho with rfl | rfl | rfl | rfl
    · exact qctlBy_unreached 1 hf hk hr
    · exact qctlBy_unreached 2 hf hk hr
    · exact qctlBy_unreached (act := fun p s => .next (s.qctlDestroy p q 3)) 3 hf hk hr
    · exact qctlBy_unreached (act := fun p s => .next (s.qctlDestroy p q 4)) 4 hf hk hr
  · simp only [List.mem_cons, List.not_mem_nil, or_false] at ho
    rcases ho with rfl | rfl | rfl
    · exact asctlBy_unreached 1 hf hk hr
    · exact asctlBy_unreached 2 hf hk hr
    · exact asctlBy_unreached 3 hf hk hr
  · obtain ⟨hcreate, hread, hdestroy⟩ := qctl_outside (s := s) hin
    simp only [ops, List.mem_cons, List.not_mem_nil, or_false] at ho
    rcases ho with rfl | rfl | rfl | rfl
    · exact qctlEnds_spec ((exec_qctlCreate hp).trans hcreate)
    · exact qctlEnds_spec ((exec_qctlReadRidx hp).trans hread)
    · exact qctlEnds_spec ((exec_qctlDestroy hp).trans (congrArg _ (hdestroy 3)))
    · exact qctlEnds_spec ((exec_qctlDestroyForce hp).trans (congrArg _ (hdestroy 4)))
  · refine qctlEnds_spec ((exec_qctlCreate hp).trans ?_)
    unfold qctlCreate
    rw [if_neg (by simp [show (s.part p).hasQueue q = true from hin]), if_pos hst]
  · rw [exec_qctlCreate hp]
    exact qctlCreate_free_spec hin hst ha
  · rw [exec_qctlReadRidx hp]
    unfold qctlReadRidx
    rw [if_neg (by simp [show (s.part p).hasQueue q = true from hin])]
    by_cases hst : y.st = .free
    · obtain ⟨t, ht, hrest⟩ := qctlEnds_spec (s := s) (p := p) (q := q) (op := 2) (status := 2) (result := 0) rfl
      rw [if_pos hst]
      simp only [if_pos hst]
      exact ⟨t, ht, hrest⟩
    · obtain ⟨t, ht, hrest⟩ := qctlEnds_spec (s := s) (p := p) (q := q) (op := 2) (status := 0) (result := y.ridx.toNat) rfl
      rw [if_neg hst]
      simp only [if_neg hst]
      exact ⟨t, ht, hrest⟩
  · simp only [List.mem_cons, List.not_mem_nil, or_false] at ho
    rcases ho with rfl | rfl
    · exact ⟨_, exec_qctlDestroy hp, State.qctlDestroy_spec (.inl rfl) hin⟩
    · exact ⟨_, exec_qctlDestroyForce hp, State.qctlDestroy_spec (.inr rfl) hin⟩
  · rw [exec_asctlCreate hp]; exact asctlCreate_spec s p asid
  · rw [exec_asctlUpdate hp]; exact asctlUpdate_spec s p asid
  · rw [exec_asctlDestroy hp]; exact asctlDestroy_spec s p asid

end Sys2Proof.Machine
end

section
/-!
SUPPORT. An error of a block's own state kills the block, but in a table of cores that lists a core twice the block stands there again when
the gang records have settled: the statement, which is about every state, does not hold of that one.
-/

namespace Sys2Proof.Machine

/-- Core 0 twice. The entry that is read holds a block 0 that is not of a gang launch; the entry behind it, which no read of the core finds,
holds a block 0 of a gang of launch 7, for which the die keeps a barrier record without an arrival. -/
def shadowed : State :=
  { cores := [(0, { blocks := [(0, { cmd := 1 })] }), (0, { blocks := [(0, { cmd := 7, gangLaunch := true })] })]
    gangs := [(0, [{ cmd := 7, gang := 0, name := 0, arrived := [] }])] }

/-- The block leaves; then the record completes, as its one member has no thread: that member is the block of the entry behind, and its
departure is written to the block of the same number of the entry in front, which has left. -/
theorem shadowed_blockFatal_hasBlock : ((shadowed.blockFatal 0 0 0x40 0 0).core 0).hasBlock 0 = true := by
  decide +kernel

/-- An error of a register file of that block is fatal to it. -/
theorem shadowed_eccError : exec (.eccError (.register 0 0)) shadowed = .next (shadowed.blockFatal 0 0 0x40 0 0) := by
  have hblock : (shadowed.core 0).hasBlock 0 = true := by decide
  show shadowed.fatalIn 0 0 0x40 0 0 = _
  unfold State.fatalIn
  rw [if_pos hblock]

/-- Refutes O42: in `shadowed`, an error of the block's own state leaves block 0 of core 0 in the core's table, where the clause on such errors
says that it has gone. -/
theorem not_errorsAndOutsideAccesses : ¬ Obligations.ErrorsAndOutsideAccesses := by
  intro h
  obtain ⟨-, -, -, -, hown, -⟩ := h shadowed 0 0 0 0 0 0 []
  obtain ⟨t, ht, hgone, -⟩ := hown (.register 0 0) (List.mem_cons_self ..) (by decide) (by decide)
  obtain rfl : shadowed.blockFatal 0 0 0x40 0 0 = t := Host.Outcome.next.inj (shadowed_eccError.symm.trans ht)
  rw [shadowed_blockFatal_hasBlock] at hgone
  exact absurd hgone (by decide)

end Sys2Proof.Machine
end
